-- ==== Sys2Proof/Word.lean ====
section
/-! DEFINITION. The data units of the device (00_scope.md, Data units and address spaces): bytes, 64-byte lines, byte
masks, and the plainest arithmetic on them. -/

namespace Sys2Proof

/-- One byte. -/
abbrev Byte := BitVec 8

/-- One 64-byte line, byte `i` in bits `8i+7:8i` (R4). -/
abbrev Line := BitVec 512

/-- One bit for each byte of a line. -/
abbrev ByteMask := BitVec 64

/-- Byte `i` of a line. -/
def Line.byte (l : Line) (i : Nat) : Byte := l.extractLsb' (8 * i) 8

/-- The line whose byte `i` is `l[i]`, zeros above the end of the list. -/
def Line.ofBytes : List Byte → Line
  | [] => 0
  | b :: bs => (Line.ofBytes bs <<< 8) ||| b.setWidth 512

/-- The 64 bytes of a line, lowest address first. -/
def Line.bytes (l : Line) : List Byte := (List.range 64).map l.byte

/-- The line mask with `0xFF` in each byte whose bit is set. -/
def ByteMask.expand (m : ByteMask) : Line :=
  Line.ofBytes ((List.range 64).map fun i => if m.getLsbD i then 0xFF else 0)

/-- `new` where the mask is set, `old` elsewhere. -/
def Line.merge (old new : Line) (m : ByteMask) : Line :=
  (new &&& m.expand) ||| (old &&& ~~~ m.expand)

/-- A mask with every byte valid. -/
def ByteMask.full : ByteMask := BitVec.allOnes 64

/-- The field of `width` bits of `v` that starts at bit `lo` (R3). -/
def bits (v lo width : Nat) : Nat := (v >>> lo) % 2 ^ width

/-- Bit `i` of `v`. -/
def bit (v i : Nat) : Bool := v.testBit i

/-- `v` with bit `i` set to `b`. -/
def setBit (v i : Nat) (b : Bool) : Nat :=
  if v.testBit i then (if b then v else v - 2 ^ i) else (if b then v + 2 ^ i else v)

/-- A Boolean as a one-bit field. -/
def flag (b : Bool) : Nat := if b then 1 else 0

/-- Quotient rounded up. -/
def ceilDiv (a b : Nat) : Nat := (b - 1 + a) / b

/-- The bytes of a number, little-endian (R4). -/
def toBytes (v : Nat) : Nat → List Byte
  | 0 => []
  | n + 1 => BitVec.ofNat 8 v :: toBytes (v / 256) n

/-- The number whose little-endian bytes these are (R4). -/
def ofBytes : List Byte → Nat
  | [] => 0
  | b :: bs => b.toNat + 256 * ofBytes bs

end Sys2Proof
end

