-- ==== Sys2Proof/Syntax.lean ====
section
/-! DEFINITION. The commands of the device, one for each row of the table of operations and events, with the data types
of their operands. -/

namespace Sys2Proof

/-- Read classes as the home sees them, by MetaValue: Invalid, Shared and Any (R326). -/
inductive ReadKind where
  | nc | s | e
  deriving DecidableEq, Repr

/-- Classes of CXL.mem requests as the home sees them (R326). A write names the MetaValue it leaves the requester
with: Shared or Invalid. -/
inductive MemOp where
  | rdNC | rdS | rdE
  | wr (shared : Bool)
  | evict
  deriving DecidableEq, Repr

/-- The class of a read. -/
def ReadKind.op : ReadKind → MemOp
  | .nc => .rdNC
  | .s => .rdS
  | .e => .rdE

/-- Outcome of a check-bit or ECC code on the data of one read: clean, corrected (on DRAM, in device `device`), or
uncorrectable (R93, R103, R104, R257). -/
inductive Ecc where
  | clean
  | corrected (device : Nat)
  | uncorrectable
  deriving DecidableEq, Repr

/-- What one stored line's read finds: the ECC outcome and, for a sealed line, whether its tag matches (R257, R296). -/
structure MediaFind where
  ecc : Ecc := .clean
  macOk : Bool := true
  deriving DecidableEq, Repr

/-- What the reads of stored lines find, by internal line address; a line that is not listed is clean. -/
abbrev Finds := List (Nat × MediaFind)

/-- What the read of a line finds. -/
def Finds.line : Finds → Nat → MediaFind
  | [], _ => {}
  | (k, f) :: fs, l => if k = l then f else Finds.line fs l

/-- The findings of `n` lines from `l` on, in order. -/
def Finds.run (fs : Finds) (l n : Nat) : List MediaFind := (List.range n).map fun i => Finds.line fs (l + i)

/-- What a Cirrus access finds in the addressed way: tag codes of both copies, and the worst data byte (R103–R105). The
mask names the bytes that cannot be corrected. -/
structure CirrusFind where
  tag : Ecc := .clean
  shadowBad : Bool := false
  data : Ecc := .clean
  badBytes : ByteMask := 0
  deriving DecidableEq, Repr

/-- What one read of a map copy finds in a directory or leaf entry: the stored word with the flipped bits given, or an
uncorrectable ECC error (R73). -/
inductive CopyFind where
  | word (flips : Nat)
  | uncorrectable
  deriving DecidableEq, Repr

/-- Findings of a host access: the Cirrus way, a parity error in the map cache way (R75), an error in the directory
entry (R341), and the sampler's draw (R602). -/
structure AccessFind where
  cirrus : CirrusFind := {}
  mapParity : Bool := false
  halo : Ecc := .clean
  sampled : Bool := false
  deriving DecidableEq, Repr


/-- The head of a received Contrail packet (R411), as the receiver uses it: its SEQ, the acknowledgement and replay
request, the credits newly freed in each class, and KEYPHASE. -/
structure RxHead where
  seq : Nat
  ack : Option Nat := none
  nak : Bool := false
  crMW : Nat := 0
  crRS : Nat := 0
  crCT : Nat := 0
  phase : Nat := 0
  deriving DecidableEq, Repr

/-- The three paths to the register file (R623). -/
inductive Path where
  | bar2 | engine | steward
  deriving DecidableEq, Repr

/-- The IDE streams of a link (R27): CXL.mem, the link stream of CXL.io and its two selective streams. -/
inductive IdeSel where
  | mem | io | sel0 | sel1
  deriving DecidableEq, Repr

/-- IDE_KM messages (R27): program a pending key set for one direction (receive or transmit), switch to the pending
sets, stop. Keys are named by number. -/
inductive IdeMsg where
  | prog (rx : Bool) (key : Nat)
  | go
  | stop
  deriving DecidableEq, Repr

/-- What the reads of a map walk find: directory and leaf of both copies, and a parity error in the directory cache
way (R72, R73, R75). -/
structure WalkFind where
  dirParity : Bool := false
  dir1 : CopyFind := .word 0
  leaf1 : CopyFind := .word 0
  dir2 : CopyFind := .word 0
  leaf2 : CopyFind := .word 0
  deriving DecidableEq, Repr


/-- A DIMM as its SPD describes it: its row in the table of R221 (0–9), or an unreadable or unlisted one. -/
structure Dimm where
  row : Option Nat
  serial : Nat
  deriving DecidableEq, Repr

/-- How a step of DRAM training ends on a channel (R237, R238): the SPDs are read; step `step` passes or fails on a rank;
the check of the stored values passes or fails. `ms` is the time since training started. -/
inductive TrainStep where
  | spd (dimms : List Dimm)
  | passed (step ms : Nat)
  | failed (step rank ms : Nat)
  | stored (ok : Bool)
  deriving DecidableEq, Repr

/-- What the fetch of a counter tree entry finds, where it is not good (R301, R309, R310). -/
inductive EntryFind where
  | corrected | uncorrectable | macFail
  deriving DecidableEq, Repr

/-- A line of an MW or RSW packet (R414). The mask is full for a line that is not PARTIAL. -/
structure MirrorLine where
  line : Nat
  data : Line
  mask : ByteMask
  poison : Bool
  deriving DecidableEq, Repr

/-- A member's parameters as PARAMS carries them (R460): releases, capacities in bytes, numbers of claims and of live slots,
whether a committed decoder breaks R436, and the digest of the enabled slices, byte 0 lowest. The message does not carry the
PAIR_ID strap; the member learns it with the message (DESIGN CHOICE). -/
structure PeerParams where
  pairId : Nat
  stepping : Nat
  mode : Nat
  granLog : Nat
  zenith : Nat
  horizon : Nat
  usable : Nat
  dpaCap : Nat
  claims : Nat
  slots : Nat
  badDecoder : Bool
  digest : Nat
  deriving DecidableEq, Repr

/-- A packet that ends in a received codeword and is not good: its CRC fails, or its CRC passes and its tag fails (R418,
R426). -/
inductive BadPacket where
  | crc | tag
  deriving DecidableEq, Repr

/-- What a received codeword shows (R408–R410): the symbols corrected, or that it cannot be corrected; BMAP and SWAP of its
header; the bad packets that end in it, in order. -/
structure Codeword where
  corrected : Option Nat := some 0
  bmap : Nat := 7
  swap : Bool := false
  bad : List BadPacket := []
  deriving DecidableEq, Repr

/-- How a Contrail training step ends (R407). Step 3 gives the good lanes of each bundle, as masks with the spare in bit 8,
as this member receives them and as the partner does; step 6 gives the partner's free credits and the SEQ it expects. -/
inductive ConStep where
  | lock
  | marker (rx tx : List Nat)
  | align
  | deskew
  | init (h : RxHead)
  deriving DecidableEq, Repr

/-- What the instructions of a core have done since the last command that named it, which the spec leaves to the firmware:
moves to its control registers and 8-byte stores to engine SRAM in order, new values of general registers, the flags, the
address of the next instruction, and whether the core runs at U now (R469, R481; DESIGN CHOICE). -/
structure CoreWork where
  user : Bool := false
  moves : List (Nat × Nat) := []
  stores : List (Nat × Nat) := []
  regs : List (Nat × Nat) := []
  flags : Nat := 0
  pc : Nat := 0
  deriving DecidableEq, Repr

/-- The kinds of access of a core (R475). -/
inductive CoreAccess where
  | fetch | load | store
  deriving DecidableEq, Repr

/-- Why a core enters H asynchronously (R483). -/
inductive EntryWhy where
  | interrupt
  | nmi
  | stage2 (ipa cause : Nat)
  deriving DecidableEq, Repr

/-- A firmware image as it is read from flash or memory (R489): its 384-byte header and its body; whether the read
succeeded, and whether the ECDSA signature verifies. -/
structure Image where
  header : List Byte
  body : List Byte
  readOk : Bool := true
  sigOk : Bool := true
  deriving DecidableEq, Repr

/-- Blocks with a block reset (R516, R572). -/
inductive ResetBlock where
  | link | codec | contrail | core | telemetry
  deriving DecidableEq, Repr

/-- The boot record of the configuration area (R507): by port BIF (`split`), MAXRATE, MLD and SRIS; SPEED and EXCLUDE; by channel MODE,
AORDER and REFMODE; the channels of the map copies; MAP_DPACAP.CAP; AUTOCOMMIT. The defaults are the built-in ones. -/
structure BootRecord where
  split : List Nat := [0, 0, 0, 0]
  maxRate : List Nat := [3, 3, 3, 3]
  mld : List Bool := [false, false, false, false]
  sris : List Bool := [false, false, false, false]
  speed : Nat := 0
  exclude : Nat := 0
  mode : List Nat := List.replicate 16 0
  aorder : List Nat := List.replicate 16 1
  refmode : List Nat := List.replicate 16 2
  primary : Nat := 0
  secondary : Nat := 1
  cap : Nat := 0
  autocommit : Bool := false
  deriving DecidableEq, Repr

/-- A valid copy of the configuration area (R507): its SEQ, its boot record, and the user offsets of R512, items 0 to 7, of
its calibration record. -/
structure ConfigCopy where
  seq : Nat
  boot : BootRecord := {}
  offsets : List Int := []
  deriving DecidableEq, Repr

/-- What the fuses of a part hold (R487, R490, R508, R511): the key hash, the fused SVNs, the production lock, whether the
engine debug port is present, the factory values of the items of R512, and the Cirrus repairs used (R107). -/
structure Fuses where
  keyHash : Nat := 0
  zSvn : Nat := 0
  hSvn : Nat := 0
  dSvn : Nat := 0
  locked : Bool := false
  debug : Bool := false
  cal : List Int := [100, 0, 8, 8, 8, 16, 16, 8]
  rows : Nat := 0
  cols : Nat := 0
  deriving DecidableEq, Repr

/-- A part and the configuration area of its flash, as the board maker delivers them; a copy that is not valid is none. -/
structure Part where
  fuses : Fuses := {}
  copy0 : Option ConfigCopy := none
  copy1 : Option ConfigCopy := none
  deriving DecidableEq, Repr

/-- The straps (R646). -/
structure Straps where
  pairId : Nat := 0
  sbaddr : Nat := 0
  testEn : Bool := false
  deriving DecidableEq, Repr

/-- A PLL (R500): the root, one of the DRAM, one of the host ports, one of the Contrail bundles. -/
inductive Pll where
  | root
  | dram (k : Nat)
  | host (port : Nat)
  | contrail (bundle : Nat)
  deriving DecidableEq, Repr

/-- Low-power states that a host link enters from L0 (R550). -/
inductive LowPower where
  | l1 | l11 | l12 | l2
  deriving DecidableEq, Repr

/-- Wake sources (R553). -/
inductive WakeSource where
  | link | contrail | vsense
  deriving DecidableEq, Repr

/-- What a channel's health event is (R580, source DMCn_CHAN): FREEZE entry, a training failure, the end of sparing, or THROTTLED. -/
inductive ChanEvent where
  | freeze | training | spared | throttled
  deriving DecidableEq, Repr

/-- What Horizon forms an event record from (R579–R583): the oldest entry of the fault FIFO, with the line and the log words that
the owning block's log gives and the event of a channel; the events that a source's last record left out; a sticky bit
after a warm reset; the cause of a cold reset; an entry of the poison list, whether its media address is known; a
pending entry by internal line; a correction; a device mark; a deadline expiry; a scrub summary, a repair result, an overflow of
the poison list. -/
inductive EventCause where
  | fifo (line : Option Nat) (chan : ChanEvent) (detail : List Nat)
  | held (source : Nat)
  | sticky (source : Nat)
  | prior
  | poison (line : Nat) (known : Bool)
  | pending (line : Nat)
  | corrected (channel : Nat) (threshold : Bool)
  | marked (channel : Nat)
  | expiry (link ld cause dpaLine : Nat)
  | scrub
  | repair
  | overflow
  deriving DecidableEq, Repr

/-- A firmware package (R532): the Zenith image, the Horizon image and the drift program set. -/
structure Package where
  zenith : Image
  horizon : Image
  drift : List Image
  deriving DecidableEq, Repr

/-- Dynamic capacity management by the fabric manager (R21): what the device has; an LD's regions, read and set; an LD's extents; an
offer of extents to an LD; a request to give extents back, or their forced removal. -/
inductive DcdOp where
  | info
  | regions (ld : Nat)
  | configure (ld : Nat) (regions : List (Nat × Nat))
  | extents (ld : Nat)
  | add (ld : Nat) (xs : List (Nat × Nat))
  | release (ld : Nat) (xs : List (Nat × Nat)) (forced : Bool)
  deriving DecidableEq, Repr

/-- The head of a Zenith request (R543): the public key of the session's requester, none outside a secured session; its reserved
byte; SLICE. -/
structure ZenithHead where
  key : Option (List Byte)
  reserved : Nat
  slice : Nat
  deriving DecidableEq, Repr

/-- JTAG instructions (R647): those of IEEE 1149.1 and 1149.6 that take control of balls, and the others that the standards
require. -/
inductive JtagOp where
  | bypass | idcode | samplePreload | extest | extestPulse | extestTrain | clamp | highz
  deriving DecidableEq, Repr

/-- The commands the outside gives the device: one for each row of the table of operations and events. An operand is
what the outside supplies with the command, or what the device finds at that moment in its media, wires or clocks. The
Kamcon commands stand first, the others in the order of the table: Kamcon commands are the ones that the model itself holds and
runs later (R534), and compiled code can build only the first constructors of a large type. -/
inductive Instr where
  /-- IDENTIFY (R535). Kamcon IDENTIFY returns the device ID, stepping, releases and ordering code. -/
  | identify (cci : Nat) (input : List Byte)
  /-- REG_READ (R535). Kamcon REG_READ sets an engine-view selector and reads registers. -/
  | regRead (cci : Nat) (input : List Byte)
  /-- DEV_ENABLE (R535). Kamcon DEV_ENABLE sets or clears DEV_ENABLE with its check. -/
  | devEnable (cci : Nat) (input : List Byte)
  /-- CONFIG_READ (R535). Kamcon CONFIG_READ returns the newest valid configuration copy. -/
  | configRead (cci : Nat) (input : List Byte)
  /-- CONFIG_WRITE (R535). Kamcon CONFIG_WRITE writes items into the older configuration copy in the background. -/
  | configWrite (cci : Nat) (input : List Byte)
  /-- RESET (R535). Kamcon RESET starts a cold, warm or block reset. -/
  | reset (cci : Nat) (input : List Byte)
  /-- DECODER_ALLOC (R537). Kamcon DECODER_ALLOC checks and sets decoder allocations. -/
  | decoderAlloc (cci : Nat) (input : List Byte)
  /-- CLAIM_COMMIT (R537). Kamcon CLAIM_COMMIT writes and commits a claim. -/
  | claimCommit (cci : Nat) (input : List Byte)
  /-- CLAIM_RELEASE (R537). Kamcon CLAIM_RELEASE starts a claim's release. -/
  | claimRelease (cci : Nat) (input : List Byte)
  /-- CLAIM_GRANT (R537). Kamcon CLAIM_GRANT sets a claim's grants. -/
  | claimGrant (cci : Nat) (input : List Byte)
  /-- SLICE_ENABLE (R537). Kamcon SLICE_ENABLE enables a slice with its PASID and quota. -/
  | sliceEnable (cci : Nat) (input : List Byte)
  /-- SLICE_SET (R537). Kamcon SLICE_SET changes a slice's TEL_USER and quota. -/
  | sliceSet (cci : Nat) (input : List Byte)
  /-- SLICE_RESET (R537). Kamcon SLICE_RESET resets a slice and returns its new GEN. -/
  | sliceReset (cci : Nat) (input : List Byte)
  /-- SLICE_REMOVE (R537). Kamcon SLICE_REMOVE removes a slice. -/
  | sliceRemove (cci : Nat) (input : List Byte)
  /-- DOORBELL (R537). Kamcon DOORBELL assigns or frees a doorbell page. -/
  | doorbell (cci : Nat) (input : List Byte)
  /-- PLC_POLICY (R537). Kamcon PLC_POLICY stages and applies a placement parameter block. -/
  | plcPolicy (cci : Nat) (input : List Byte)
  /-- PLC_CLAIM_MODE (R537). Kamcon PLC_CLAIM_MODE sets a claim's placement mode. -/
  | plcClaimMode (cci : Nat) (input : List Byte)
  /-- SNAP_ARM (R537). Kamcon SNAP_ARM arms a snapshot slot. -/
  | snapArm (cci : Nat) (input : List Byte)
  /-- QOS_PROFILE (R537). Kamcon QOS_PROFILE stages and enables a regulator profile. -/
  | qosProfile (cci : Nat) (input : List Byte)
  /-- DMC_COMMIT (R538). Kamcon DMC_COMMIT writes the channel configuration and commits it. -/
  | dmcCommit (cci : Nat) (input : List Byte)
  /-- CHANNEL_RELEASE (R538). Kamcon CHANNEL_RELEASE releases a frozen channel. -/
  | channelRelease (cci : Nat) (input : List Byte)
  /-- SPARE_START (R538). Kamcon SPARE_START starts sparing of a rank. -/
  | spareStart (cci : Nat) (input : List Byte)
  /-- POISON_LIST (R538). Kamcon POISON_LIST lists poison entries across all claims. -/
  | poisonList (cci : Nat) (input : List Byte)
  /-- POISON_CLEAR (R538). Kamcon POISON_CLEAR clears a poisoned line in any claim. -/
  | poisonClear (cci : Nat) (input : List Byte)
  /-- KAMCON_SCRUB_RANGE (R538). Kamcon SCRUB_RANGE runs a range scrub in the background. -/
  | kamconScrubRange (cci : Nat) (input : List Byte)
  /-- SCRUB_RESULT (R538). Kamcon SCRUB_RESULT returns the last summary on the CCI. -/
  | scrubResult (cci : Nat) (input : List Byte)
  /-- SCRUB_POLICY (R538). Kamcon SCRUB_POLICY reads or sets the scrub policy. -/
  | scrubPolicy (cci : Nat) (input : List Byte)
  /-- REPAIR_LIST (R538). Kamcon REPAIR_LIST reads, adds to or removes from the pending repair list. -/
  | repairList (cci : Nat) (input : List Byte)
  /-- PPR_RUN (R538). Kamcon PPR_RUN runs a run-time repair and returns its result. -/
  | pprRun (cci : Nat) (input : List Byte)
  /-- SALVAGE_READ (R538). Kamcon SALVAGE_READ returns a salvage record, with sealed data as zeros. -/
  | salvageRead (cci : Nat) (input : List Byte)
  /-- SALVAGE_FREE (R538). Kamcon SALVAGE_FREE frees the salvage records selected by its mask. -/
  | salvageFree (cci : Nat) (input : List Byte)
  /-- PAIR_ENABLE (R540). Kamcon PAIR_ENABLE writes PAR_CFG and enables or leaves the pair. -/
  | pairEnable (cci : Nat) (input : List Byte)
  /-- PAIR_TAKEOVER (R540). Kamcon PAIR_TAKEOVER runs the take-over. -/
  | pairTakeover (cci : Nat) (input : List Byte)
  /-- PAIR_GIVEBACK (R540). Kamcon PAIR_GIVEBACK runs the give-back. -/
  | pairGiveback (cci : Nat) (input : List Byte)
  /-- PAIR_FENCE (R540). Kamcon PAIR_FENCE fences the member. -/
  | pairFence (cci : Nat) (input : List Byte)
  /-- PAIR_DISCARD (R540). Kamcon PAIR_DISCARD runs DISCARD in the background. -/
  | pairDiscard (cci : Nat) (input : List Byte)
  /-- LINK_CTL (R540). Kamcon LINK_CTL writes the Contrail control bits. -/
  | linkCtl (cci : Nat) (input : List Byte)
  /-- POWER_REQUEST (R540). Kamcon POWER_REQUEST requests NIGHT or CLEAR. -/
  | powerRequest (cci : Nat) (input : List Byte)
  /-- WAKE_CFG (R540). Kamcon WAKE_CFG selects the wake sources. -/
  | wakeCfg (cci : Nat) (input : List Byte)
  /-- DOMAIN_REQUEST (R540). Kamcon DOMAIN_REQUEST turns a domain on, gates it or turns it off. -/
  | domainRequest (cci : Nat) (input : List Byte)
  /-- FW_SLOTS (R540). Kamcon FW_SLOTS reports the images in both flash slots. -/
  | fwSlots (cci : Nat) (input : List Byte)
  /-- SVN_COMMIT (R540). Kamcon SVN_COMMIT raises a fused SVN through the world call. -/
  | svnCommit (cci : Nat) (input : List Byte)
  /-- MEM_READ (R115). A CXL.mem read slot is decoded and routed, then answered from Cirrus or sent on towards the page's form. -/
  | memRead (link number tag hpa : Nat) (kind : ReadKind) (f : AccessFind)
  /-- MEM_WRITE (R92). A CXL.mem write slot is decoded and routed, then applied to Cirrus as a full or partial write and completed. -/
  | memWrite (link number tag hpa : Nat) (shared : Bool) (data : Line) (mask : ByteMask) (poison : Bool) (f : AccessFind)
  /-- MEM_SPEC_RD (R21). A MemSpecRd starts the map and Cirrus lookup as a hint and sends no response. -/
  | memSpecRd (link number hpa : Nat)
  /-- MEM_CLN_EVCT (R326). A MemClnEvct to a SHARED claim removes the sender as a holder and completes. -/
  | memClnEvct (link number tag hpa : Nat) (f : AccessFind)
  /-- DEADLINE_EXPIRY (R36). A request's answer-deadline timer expires, and the router answers it with the cause recorded. -/
  | deadlineExpiry (req : Nat)
  /-- LINK_UP (R18). A host link finishes training and enters L0, its credits are reinitialized, and held interrupts are sent. -/
  | linkUp (link rate width : Nat) (flit256 lopt : Bool)
  /-- LINK_RETRAIN (R18). The host requests a retrain through the Link Control Retrain Link bit. -/
  | linkRetrain (link : Nat)
  /-- IDE_KM (R27). An IDE_KM message inside an SPDM session programs or switches IDE stream keys. -/
  | ideKm (link : Nat) (k : IdeSel) (m : IdeMsg)
  /-- IDE_INTEGRITY_FAILURE (R29). An IDE integrity check fails on a received stream, which goes Insecure and takes the link down. -/
  | ideIntegrityFailure (link : Nat) (k : IdeSel) (dropped : Nat)
  /-- LINK_DOWN (R39). A host link leaves L0: tracked reads are discarded, fully received writes are committed and the rest are dropped. -/
  | linkDown (link dropped : Nat)
  /-- PERST_ASSERT (R42). PERSTp_N is asserted, which downs both links of the port and resets its decoders and configuration. -/
  | perstAssert (port dropped0 dropped1 : Nat)
  /-- PERST_DEASSERT (R509). PERSTp_N is deasserted and the port's links start training. -/
  | perstDeassert (port : Nat)
  /-- FUNCTION_LEVEL_RESET (R42). A Function Level Reset resets CXL.io function state only. -/
  | functionLevelReset (link ld : Nat)
  /-- CREDIT_OVERFLOW (R43). The host overflows CXL.mem credits; HOSTn_ERR is set and the link is taken down. -/
  | creditOverflow (link dropped : Nat)
  /-- LINK_INTERNAL_PARITY (R43). A parity error on a link's CXL.mem path sets HOSTn_ERR and takes the link down. -/
  | linkInternalParity (link dropped : Nat)
  /-- FLIT_CRC_ERROR (R43). A flit CRC or FEC error is recovered by replay and counted. -/
  | flitCrcError (link : Nat) (rollover : Bool)
  /-- MALFORMED_TLP (R43). A malformed TLP, ECRC error or unsupported CXL.io request is reported through AER and counted. -/
  | malformedTlp (link : Nat)
  /-- HDM_DECODER_COMMIT (R26). Host firmware commits an HDM decoder, which is checked for overlap, range and supported interleave. -/
  | hdmDecoderCommit (ld k base size dpaBase ways gran : Nat) (hdmDb commit : Bool)
  /-- FM_SET_LD_ALLOCATIONS (R24). The FM Set LD Allocations command creates or removes the LDs of a port. -/
  | fmSetLdAllocations (cci port n0 n1 : Nat)
  /-- FM_GET_LD_ALLOCATIONS (R24). The FM command that returns the LD allocations of a port. -/
  | fmGetLdAllocations (cci port : Nat)
  /-- FM_LD_INFO (R21). The FM LD Info command returns LD information. -/
  | fmLdInfo (cci : Nat)
  /-- FM_MULTI_HEADED_INFO (R21). The FM Multi-Headed Info command returns head information for the device. -/
  | fmMultiHeadedInfo (cci : Nat)
  /-- FM_HEAD_INFO (R21). The FM Head Info command returns information about one head. -/
  | fmHeadInfo (cci link : Nat)
  /-- FM_DCD_MANAGEMENT (R21). An FM DCD management command manages the device's dynamic capacity. -/
  | fmDcdManagement (cci : Nat) (op : DcdOp)
  /-- MAP_CLAIM_COMMIT (R65). A write of 1 to MAP_CLAIMATTR.COMMIT runs the claim commit check and commits the selected claim. -/
  | mapClaimCommit (p : Path) (v : Nat)
  /-- MAP_CLAIM_RELEASE (R66). A write of 0 to MAP_CLAIMATTR.COMMIT starts the release of a committed claim. -/
  | mapClaimRelease (p : Path) (v : Nat)
  /-- CLAIM_RELEASE_END (R66). A claim release finishes returning space and leaves; RELEASING returns to 0. -/
  | claimReleaseEnd (claim : Nat)
  /-- MAP_CLAIMGRANT_WRITE (R83). A write to MAP_CLAIMGRANT0 or MAP_CLAIMGRANT1 changes a claim's grants, or is ignored as a whole. -/
  | mapClaimgrantWrite (p : Path) (high : Bool) (v : Nat)
  /-- PHYSICAL_ROOM_WAIT_END (R664). An allocation that waited for physical room takes the room that has appeared and applies its data. -/
  | physicalRoomWaitEnd
  /-- MAP_WALK (R72). A placement map walk gets its directory and leaf reads back and checks the primary and secondary copies. -/
  | mapWalk (dpn : Nat) (f : WalkFind)
  /-- AUDIT_SWEEP (R78). The always-on audit compares a batch of cached map and directory entries with the primary copy. -/
  | auditSweep (flips : List (Nat × Nat)) (dirs : List Nat)
  /-- CIRRUS_WRITEBACK (R98). A dirty or partial line is merged and written back to its page's current form. -/
  | cirrusWriteback (dpaLine : Nat) (fs : Finds) (mismatch : Bool)
  /-- WRITEBACK_BUFFER_FREE (R97). A writeback buffer entry frees, and a bank allocation waiting for it proceeds. -/
  | writebackBufferFree
  /-- CIR_FLUSH_START (R113). Setting CIR_FLUSH.START starts a flush of all lines or of one claim. -/
  | cirFlushStart (v : Nat)
  /-- FLUSH_END (R113). A flush completes, START clears and LEFTHELD is reported. -/
  | flushEnd (fs : Finds)
  /-- CIR_SWEEP_START (R114). Setting CIR_SWEEP.START starts the excursion sweep. -/
  | cirSweepStart
  /-- EXCURSION_SWEEP_END (R114). The excursion sweep finishes visiting every set and reports its counts. -/
  | excursionSweepEnd (finds : List (Nat × CirrusFind))
  /-- EPOCH_BOUNDARY (R132). The epoch timer ends an epoch: the number increments, banks swap, reports are written and selection begins. -/
  | epochBoundary
  /-- COLD_SCAN (R130). The paced cold scan reads and restamps map leaves. -/
  | coldScan
  /-- SELECTION_COMPLETE (R132). The drift programs complete ranking and hand the selected moves to the move assists. -/
  | selectionComplete
  /-- SELECTION_WINDOW_EXPIRY (R135). The selection window ends with selection incomplete, which can enter FALLBACK. -/
  | selectionWindowExpiry
  /-- MOVE_START (R139). A selected or explicit move takes a tracker, makes the page IN_FLIGHT and takes destination space. -/
  | moveStart (explicit : Bool)
  /-- COPY_PASS_END (R139). A copy or recopy pass finishes, and the move recopies, aborts or goes to its switch. -/
  | copyPassEnd (dpn : Nat) (fs : Finds) (mismatches : List Nat)
  /-- SWITCH_END (R141). The switch posts the new entry, replaces the cached entry and releases the held accesses. -/
  | switchEnd (dpn : Nat) (fs : Finds) (mismatches : List Nat)
  /-- SWITCH_CANCEL (R141). A switch whose recopy has not finished by 150 ns is cancelled. -/
  | switchCancel (dpn : Nat)
  /-- INCOMPRESSIBLE_FILTER_EXPIRY (R138). A page's 64 epochs in the incompressible filter run out. -/
  | incompressibleFilterExpiry
  /-- PLC_APPLY (R146). Setting PLC_APPLY.APPLY runs the placement policy check and stages the block for the next boundary. -/
  | plcApply
  /-- NIMBUS_DECODE (R162). A block's granules return and are decoded and checked against their CRC-32C. -/
  | nimbusDecode (job : Nat) (fs : Finds) (fault : Option Nat)
  /-- DECODE_RETRY (R178). A failed decode is retried once from a fresh DRAM read on another pipe. -/
  | decodeRetry (job : Nat) (fs : Finds) (fault : Option Nat)
  /-- NMB_PIPE_FAIL (R181). A parity error inside a pipe fails its job and takes the pipe out of service. -/
  | nmbPipeFail (compressor : Bool) (pipe : Nat) (job : Option Nat)
  /-- HEAP_DIRECTORY_REBUILD (R172). The map scan that rebuilds a segment entry after an uncorrectable error ends. -/
  | heapDirectoryRebuild (segment : Nat) (started : Bool)
  /-- SNP_ARM_ARM (R189). A write of 1 to SNP_ARM.ARM runs the snapshot arm check and starts ARMING. -/
  | snpArmArm (p : Path) (v : Nat)
  /-- ARMING_COMPLETE (R190). The marking walk passes the end of the claim, and the slot enters ARMED. -/
  | armingComplete (n : Nat)
  /-- EAGER_CURSOR_READ (R193). The eager cursor finishes reading a page, encodes its record and advances. -/
  | eagerCursorRead (n : Nat) (fs : Finds)
  /-- CAPTURE_TRACKER_FREE (R195). A capture tracker frees, and the oldest waiting change takes it. -/
  | captureTrackerFree
  /-- CAPTURE_END (R195). A capture is written to the table, SNAP is cleared and the held changes are released. -/
  | captureEnd (n dpn : Nat) (fs : Finds)
  /-- CAPTURE_TIME (R195). A capture not complete 950 ns after its change aborts the slot. -/
  | captureTime (n dpn : Nat)
  /-- EXPORT_DMA_COMPLETE (R199). An export DMA chunk completes, and a full buffer's SNAP_EXPORT completes. -/
  | exportDmaComplete (n : Nat)
  /-- EXPORT_DMA_ERROR (R200). An export DMA write fails, which aborts the slot or ends a read-out pass. -/
  | exportDmaError (n : Nat)
  /-- EXPORT_LINK_TIMEOUT (R200). The 10 ms timer with no link of the mask up expires. -/
  | exportLinkTimeout (n : Nat)
  /-- ABORT_MARKS_CLEARED (R210). An aborting slot finishes clearing its marks and enters ABORTED. -/
  | abortMarksCleared (n : Nat)
  /-- SNAP_MARK_CLEAR_END (R210). The background pass that clears warm-reset SNAP marks passes the end of a claim. -/
  | snapMarkClearEnd (claim : Nat)
  /-- IMPORT_RECORD (R213). IMPORT frames and applies one stream record, or stops or continues on a bad one. -/
  | importRecord (queue index : Nat) (bytes : List Byte)
  /-- CHANNEL_COMMIT (R248). A write of 1 to DMC_COMMIT.COMMIT runs the DRAM channel commit check and starts initialization. -/
  | channelCommit
  /-- CHANNEL_UNCOMMIT (R248). A write of 0 to DMC_COMMIT.COMMIT while DEV_ENABLE is 0 uncommits the channels. -/
  | channelUncommit
  /-- BACKGROUND_INITIALIZATION (R230). Background initialization zeroes the free frames of one 2 MiB region. -/
  | backgroundInitialization
  /-- DRAM_DATA_RETURN (R231). Read data returns from a channel and is ECC-checked, unveiled or unsealed, and delivered. -/
  | dramDataReturn (req : Nat) (f : MediaFind)
  /-- PANIC_WAIT_EXPIRY (R233). An urgent host read waiting PANIC_WAIT, or a write queue at WQ_PANIC, sends a channel into panic. -/
  | panicWaitExpiry (c : Nat) (read : Bool)
  /-- PANIC_END (R233). Both panic causes have been clear for 1 µs, and panic ends. -/
  | panicEnd (c : Nat)
  /-- REFRESH (R234). The refresh interval timer issues refresh on a channel. -/
  | refresh (c : Nat)
  /-- DIMM_TEMPERATURE_READ (R235). The 1 ms DIMM sensor read updates refresh, throttling and thermal freeze. -/
  | dimmTemperatureRead (c t0 t1 : Nat)
  /-- POWER_DOWN_ENTRY (R236). A rank idle for PDTIMER enters precharge power-down. -/
  | powerDownEntry (c rank : Nat)
  /-- DRAM_PLL_LOCK (R237). The DRAM PLLs lock, and channel training starts. -/
  | dramPllLock (k : Nat)
  /-- TRAINING_STEP_END (R237). A DRAM training step completes or fails on a channel. -/
  | trainingStepEnd (c : Nat) (t : TrainStep)
  /-- CA_PARITY_ERROR (R239). A CA parity error that persists through 3 retries freezes the channel with cause CAPAR. -/
  | caParityError (c retries : Nat)
  /-- DMC_FRZCTL_RELEASE (R243). A write to DMC_FRZCTLn.RELEASE releases a frozen channel, or is refused. -/
  | dmcFrzctlRelease (c : Nat)
  /-- CHANNEL_RELEASE_END (R243). A release finishes rewriting stale metadata and returns the channel to service. -/
  | channelReleaseEnd (c : Nat) (fs : Finds)
  /-- DMC_SPARECTL_START (R245). A write to DMC_SPARECTLn.START starts sparing of a rank. -/
  | dmcSparectlStart (c v : Nat)
  /-- SPARING_COPY (R245). The sparing copy moves one line of the failing rank to the spare. -/
  | sparingCopy (c : Nat) (f : Ecc)
  /-- MED_SCRUBCTL_START (R268). Setting MED_SCRUBCTL.START starts a scrub on context 0. -/
  | medScrubctlStart (v : Nat)
  /-- MED_SCRUBCTL_STOP (R269). Setting MED_SCRUBCTL.STOP stops context 0 with status STOPPED. -/
  | medScrubctlStop
  /-- SCRUB_READ (R268). A scrub context reads and checks the next lines at its paced rate. -/
  | scrubRead (context : Nat) (fs : Finds) (metaUes : Nat)
  /-- SCRUB_POLICY_PASS (R272). Horizon's 24 h policy timer starts the next physical scrub pass. -/
  | scrubPolicyPass
  /-- HPPR_ROW_END (R273). An hPPR applied at cold reset completes and its row leaves the list. -/
  | hpprRowEnd (c : Nat) (ok : Bool)
  /-- MED_PPRCTL_START (R274). Setting MED_PPRCTL.START starts a run-time sPPR of a frozen channel's row. -/
  | medPprctlStart (v : Nat)
  /-- PPR_END (R274). A run-time repair completes with its result, and BUSY clears. -/
  | pprEnd (noResource : Bool) (ues mismatches : List Nat)
  /-- SEC_VEILCFG_ROTATE (R291). Setting SEC_VEILCFG.ROTATE starts a veil rotation. -/
  | secVeilcfgRotate (v : Nat)
  /-- VEIL_SWEEP_PAGE (R291). The rotation sweep rewrites one page under the new generation. -/
  | veilSweepPage
  /-- ROTATION_END (R291). The drain after the rotation sweep ends, and the old key is erased. -/
  | rotationEnd (fs : Finds)
  /-- REWRITE_TRACKER_ITEM (R292). A rewrite tracker reads, transforms and writes back one item of its page. -/
  | rewriteTrackerItem (dpn item : Nat) (find : MediaFind)
  /-- COUNTER_FETCH (R301). Counter tree entries fetched on a miss return and are verified from the top down. -/
  | counterFetch (dpn : Nat) (finds : List (Nat × EntryFind)) (evicts spoilt : List (Nat × Nat × Nat))
  /-- SEC_REGIONCTL_ENABLE (R307). Setting SEC_REGIONCTL.ENABLE runs the seal region enable. -/
  | secRegionctlEnable (v : Nat)
  /-- REKEY_SWEEP_PAGE (R308). The re-key sweep moves one page to the new KeyID. -/
  | rekeySweepPage (k : Nat)
  /-- KEYID_RETIREMENT (R306). A RETIRING KeyID's drain completes, and the KeyID is retired. -/
  | keyidRetirement (k : Nat) (fs : Finds)
  /-- BREACH_RECOVERY_END (R311). A REINIT or REFETCH recovery ends, and the breach record clears. -/
  | breachRecoveryEnd (k : Nat) (record : Option Nat)
  /-- SEC_RNG_FAIL (R314). The random number generator fails its health test. -/
  | secRngFail
  /-- SEC_PIPE_PAR (R314). A parity error in a crypto pipeline redoes the item. -/
  | secPipePar (dpaLine : Nat) (again : Bool)
  /-- BIRSP (R327). A BIRsp from a holder updates the directory entry and may end the back-invalidate. -/
  | birsp (link ld dpaLine : Nat) (shared : Bool)
  /-- BICONFLICT (R328). A BIConflict from a holder is ordered and answered with BIConflictAck. -/
  | biconflict (link ld dpaLine : Nat)
  /-- T_BI_EXPIRY (R334). A back-invalidate timer expires: silent holders are removed and fenced, and the line may be poisoned. -/
  | tBiExpiry (dpaLine : Nat)
  /-- GRANT_HOLD_END (R331). A line's T_HOLD runs out, and a waiting back-invalidate may be sent. -/
  | grantHoldEnd (dpaLine : Nat)
  /-- REVOCATION_SWEEP_END (R323). A revocation sweep ends, and the claim's previous grants are dropped. -/
  | revocationSweepEnd (claim : Nat)
  /-- BACKGROUND_EVICTION (R333). The directory evicts an entry in the background to keep FREEWAYS ways free. -/
  | backgroundEviction (set : Nat)
  /-- HAL_FENCE (R335). Setting HAL_HOSTCTL.FENCE fences a link and starts its fence sweep. -/
  | halFence (mask : Nat)
  /-- HAL_UNFENCE (R336). Setting HAL_HOSTCTL.UNFENCE ends a link's fence once its sweep is complete. -/
  | halUnfence (mask : Nat)
  /-- FENCE_SWEEP_END (R335). A link's fence sweep completes. -/
  | fenceSweepEnd (link : Nat)
  /-- HAL_PEAK_CLEAR (R345). Setting HAL_PEAK.CLEAR zeroes WAITMAX and BIMAX. -/
  | halPeakClear
  /-- SLC_ENABLE (R348). A write of 1 to SLC_CTL.ENABLE runs the slice enable check. -/
  | slcEnable (p : Path)
  /-- SLC_REMOVE (R374). A write of 0 to SLC_CTL.ENABLE runs the removal check and removes the slice. -/
  | slcRemove (p : Path)
  /-- SLICE_REMOVE_END (R374). A slice removal ends and ENABLE clears. -/
  | sliceRemoveEnd (slice : Nat)
  /-- SLC_RESET (R373). Setting SLC_CTL.RESET starts a slice reset and increments GEN. -/
  | slcReset (p : Path)
  /-- SLICE_RESET_END (R373). A slice reset completes, and its queues are DISABLED. -/
  | sliceResetEnd (slice : Nat)
  /-- DB_ASSIGN (R350). Setting SLC_DBOWN.ASSIGN assigns a doorbell page to a slice. -/
  | dbAssign (p : Path) (v : Nat)
  /-- DB_FREE (R350). Setting SLC_DBOWN.FREE frees a doorbell page. -/
  | dbFree (p : Path) (v : Nat)
  /-- QUE_CTL_ENABLE (R352). A write of 1 to QUE_CTL.ENABLE runs the queue enable check. -/
  | queCtlEnable (p : Path) (bme msix : Bool)
  /-- QUE_CTL_DISABLE (R376). A write of 0 to QUE_CTL.ENABLE stops a queue. -/
  | queCtlDisable (p : Path)
  /-- QUEUE_DISABLED (R376). A stopping queue writes its last completion and becomes DISABLED. -/
  | queueDisabled (queue : Nat)
  /-- QUE_CTL_RESIZE (R375). Setting QUE_CTL.RESIZE checks and stages a live resize. -/
  | queCtlResize (p : Path) (bme msix : Bool)
  /-- RESIZE_SWITCH (R375). A pending resize switches to the new rings once the queue is drained. -/
  | resizeSwitch (queue : Nat)
  /-- SQ_TAIL (R354). A doorbell write to SQ_TAIL makes entries available, or puts the queue in ERROR. -/
  | sqTail (link queue v : Nat) (cqHead : Option Nat)
  /-- CQ_HEAD (R355). A doorbell write to CQ_HEAD frees completion entries, or puts the queue in ERROR. -/
  | cqHead (link queue v : Nat)
  /-- DESCRIPTOR_FETCH (R362). A submission entry arrives by DMA and is checked and started. -/
  | descriptorFetch (queue : Nat) (words : Option (List Nat))
  /-- DESCRIPTOR_COMPLETION (R356). A finished descriptor's completion is written to the CQ, followed by its MSI-X. -/
  | descriptorCompletion (queue : Nat)
  /-- NOP (R358). The NOP opcode completes with RESULT 0. -/
  | nop (queue index : Nat)
  /-- COPY (R364). The COPY opcode copies a DPA range line by line as host writes. -/
  | copy (queue index : Nat) (fs : Finds)
  /-- FILL (R365). The FILL opcode writes a repeated 8-byte pattern to a range. -/
  | fill (queue index : Nat)
  /-- ZERO (R365). The ZERO opcode unbacks whole pages and zeroes the lines of partial ones. -/
  | zero (queue index : Nat)
  /-- COMPARE (R365). The COMPARE opcode compares a range with another range or a pattern. -/
  | compare (queue index : Nat) (fs : Finds)
  /-- DEMOTE_RANGE (R137). The DEMOTE_RANGE opcode moves every permitted page of a range to NIMBUS. -/
  | demoteRange (queue index : Nat)
  /-- PROMOTE_RANGE (R137). The PROMOTE_RANGE opcode moves every permitted page of a range to STRATUS. -/
  | promoteRange (queue index : Nat)
  /-- HINT_HOT (R136). The HINT_HOT opcode sets or clears the hot hint of backed pages. -/
  | hintHot (queue index : Nat)
  /-- HINT_COLD (R136). The HINT_COLD opcode sets or clears the cold hint of backed pages. -/
  | hintCold (queue index : Nat)
  /-- PIN (R108). The PIN opcode pins the lines of a range in Cirrus within the limits. -/
  | pin (queue index : Nat) (fs : Finds)
  /-- UNPIN (R368). The UNPIN opcode releases slice pins. -/
  | unpin (queue index : Nat)
  /-- FLUSH (R369). The FLUSH opcode writes back the dirty lines of a range. -/
  | flush (queue index : Nat) (fs : Finds)
  /-- SCRUB_RANGE (R370). The SCRUB_RANGE opcode runs a scrub on a context and writes its summary. -/
  | scrubRange (queue index : Nat)
  /-- SNAP_CUT (R191). The SNAP_CUT opcode cuts an ARMED slot in one cycle and starts preservation. -/
  | snapCut (queue index : Nat)
  /-- SNAP_EXPORT (R199). The SNAP_EXPORT opcode queues a host buffer for a slot's stream. -/
  | snapExport (queue index : Nat)
  /-- SNAP_RELEASE (R211). The SNAP_RELEASE opcode frees a slot, aborting it first if needed. -/
  | snapRelease (queue index : Nat)
  /-- IMPORT (R212). The IMPORT opcode validates a stream header and starts reading the stream into a claim. -/
  | importStream (queue index : Nat) (header : List Byte)
  /-- FENCE (R362). The FENCE opcode orders the descriptors of its queue or slice. -/
  | fence (queue index : Nat)
  /-- TOKEN_WINDOW (R387). At each 1 µs window boundary the buckets refill and yield and profiles change. -/
  | tokenWindow
  /-- PRIORITY_RECOMPUTE (R390). Every 10 ns, waiting units' priorities are raised by their age ramp. -/
  | priorityRecompute
  /-- QOS_PROFILE_ENABLE (R396). Setting QOS_PROFILE.ENABLE runs the regulator profile check. -/
  | qosProfileEnable
  /-- CON_CTL_LINKEN (R406). A write of 1 to CON_CTL.LINKEN starts Contrail training. -/
  | conCtlLinken
  /-- CON_CTL_LINKEN_OFF (R406). A write of 0 to CON_CTL.LINKEN takes Contrail down to OFF. -/
  | conCtlLinkenOff
  /-- CON_CTL_RETRAIN (R420). Setting CON_CTL.RETRAIN retrains an UP link. -/
  | conCtlRetrain
  /-- CON_CTL_DOWN (R430). Setting CON_CTL.DOWN takes the link down with cause SOFTWARE. -/
  | conCtlDown
  /-- CON_CTL_READD (R424). Setting a bit of CON_CTL.READD trains a dropped bundle in the background. -/
  | conCtlReadd (mask : Nat)
  /-- BUNDLE_READD_END (R424). A re-added bundle finishes training and joins BMAP. -/
  | bundleReaddEnd (bundle : Nat)
  /-- TRAINING_RETRY (R406). The 100 ms retry timer of a DOWN link starts a new initial training. -/
  | trainingRetry
  /-- CONTRAIL_TRAINING_STEP (R407). A Contrail training or retrain step completes, ending in KEYING or UP. -/
  | contrailTrainingStep (t : ConStep)
  /-- CODEWORD (R408). A Contrail codeword is received and decoded, and its payload is fed to the packet stream. -/
  | codeword (bundle : Nat) (c : Codeword)
  /-- MW (R414). A mirror write packet is accepted and its lines applied to Cirrus as MIRROR_IN. -/
  | mw (h : RxHead) (jseq : Nat) (lines : List MirrorLine)
  /-- RSW (R452). A resync write packet is accepted and its lines applied as RESYNC. -/
  | rsw (h : RxHead) (lines : List MirrorLine)
  /-- STREAM (R415). A snapshot stream packet is staged in the receive slot. -/
  | stream (h : RxHead) (slot offset : Nat) (bytes : List Byte)
  /-- KEYX (R425). A key exchange packet advances KEYING, or is discarded outside KEYING. -/
  | keyx (h : RxHead) (reply last : Bool)
  /-- ACK (R419). An ACK frees acknowledged packets from the replay buffer. -/
  | ack (h : RxHead)
  /-- HB (R428). A heartbeat arrives carrying the partner's pair state and epoch. -/
  | hb (h : RxHead) (ts peer epoch : Nat)
  /-- LANE (R412). A LANE packet asks the transmitter to swap a lane or drop a bundle. -/
  | lane (h : RxHead) (bundle lane : Nat) (drop : Bool)
  /-- MIRACK (R447). A MIRACK removes journal entries and completes waiting sync writes. -/
  | mirack (h : RxHead) (jseq : Nat)
  /-- PARAMS (R440). The partner's PARAMS arrive and the PAIR enable check runs. -/
  | params (h : RxHead) (p : PeerParams)
  /-- CLAIMDEF (R442). A forwarded claim definition is checked and committed on the partner. -/
  | claimdef (h : RxHead) (claim base size attr : Nat)
  /-- CLAIMREL (R443). A forwarded claim release is checked and run on the partner. -/
  | claimrel (h : RxHead) (claim : Nat)
  /-- RESULT (R443). The partner's result for a forwarded operation arrives. -/
  | result (h : RxHead) (op code : Nat)
  /-- STRIPE_DONE (R452). STRIPE_DONE tells the receiver that a stripe is fully sent, and it answers STRIPE_ACK. -/
  | stripeDone (h : RxHead) (stripe : Nat)
  /-- STRIPE_ACK (R452). STRIPE_ACK clears a stripe's outbound bit, which may complete a join or resync. -/
  | stripeAck (h : RxHead) (stripe : Nat)
  /-- UNBACK (R452). An UNBACK message makes pages UNBACKED on the receiver. -/
  | unback (h : RxHead) (dpn count : Nat)
  /-- FETCH (R453). A FETCH message asks the partner for a line's current contents. -/
  | fetch (h : RxHead) (dpaLine : Nat)
  /-- PSTAT (R451). A PSTAT message updates the partner's journal, outbound bits and epoch. -/
  | pstat (h : RxHead) (outbits journal epoch : Nat)
  /-- GIVEBACK (R458). A GIVEBACK message sets the new epoch and homes on the partner. -/
  | giveback (h : RxHead) (epoch : Nat)
  /-- SLICEMAP (R460). A SLICEMAP piece of the partner's slice bitmaps arrives with PARAMS. -/
  | slicemap (h : RxHead) (piece : Nat) (owners : Bool) (slices : List Nat)
  /-- RXOPEN (R413). RXOPEN asks the partner for a snapshot receive slot. -/
  | rxopen (h : RxHead) (op slot slice size claim streamId : Nat)
  /-- RXRESULT (R413). RXRESULT returns the receive slot or its check code to the arming member. -/
  | rxresult (h : RxHead) (op slot code : Nat)
  /-- RXOPEN_TIMEOUT (R413). No RXRESULT within 100 ms fails the arm check with 0x55. -/
  | rxopenTimeout (slot : Nat)
  /-- RXCLOSE (R413). RXCLOSE frees a receive slot on release or abort. -/
  | rxclose (h : RxHead) (op slot cause : Nat)
  /-- SEALEN (R413). SEALEN asks the partner to enable a claim's seal region. -/
  | sealen (h : RxHead) (op claim : Nat)
  /-- SEALRES (R413). SEALRES returns the partner's seal enable result. -/
  | sealres (h : RxHead) (op code : Nat)
  /-- REFETCH (R311). REFETCH asks the partner to resend the covered lines of a breach. -/
  | refetch (h : RxHead) (op claim level index : Nat)
  /-- REFDONE (R413). REFDONE ends a REFETCH recovery. -/
  | refdone (h : RxHead) (op lines : Nat)
  /-- XKEY (R413). XKEY carries an export key to the partner's Zenith. -/
  | xkey (h : RxHead) (keyRef slot key : Nat)
  /-- XKEYACK (R413). XKEYACK reports whether the partner holds an export key. -/
  | xkeyack (h : RxHead) (keyRef status : Nat)
  /-- KEYRENEW (R427). KEYRENEW derives a new session key for one direction. -/
  | keyrenew (h : RxHead) (phase direction : Nat)
  /-- KEYRENEWACK (R427). KEYRENEWACK lets the renewing side switch KEYPHASE. -/
  | keyrenewack (h : RxHead) (phase direction : Nat)
  /-- RESERVED_CTRL_MSG (R412). A CTRL packet with a reserved MSG frees its credits and discards its message. -/
  | reservedCtrlMsg (h : RxHead) (bytes : Nat)
  /-- REPLAY_TIMEOUT (R419). REPLAY_TO passes without acknowledgement progress, and the transmitter replays. -/
  | replayTimeout
  /-- RETRAIN_TIMEOUT (R421). A retrain that has not reached UP within 1 ms fails. -/
  | retrainTimeout
  /-- KEYING_TIMEOUT (R426). A KEYING not complete within 100 ms takes the link down with cause AUTH. -/
  | keyingTimeout
  /-- ACK_TIMER (R418). 100 ns after the oldest unacknowledged packet, or after 32 packets, an ACK is sent. -/
  | ackTimer
  /-- MW_PACKET_CLOSE (R414). PKTWAIT passes since an MW packet's first line, and the packet is closed. -/
  | mwPacketClose
  /-- HB_SEND (R428). The 10 µs timer sends a heartbeat. -/
  | hbSend
  /-- CON_HB_LOST (R428). No heartbeat for HBMISS intervals clears HBOK. -/
  | conHbLost
  /-- LANE_SWAP_REQUEST (R423). A lane's corrected-symbol count passes SWAPTHR, and a spare swap is requested. -/
  | laneSwapRequest (bundle lane : Nat) (spareLocked : Bool)
  /-- LANE_LOCK_LOSS (R423). A data lane loses lock, and a swap or drop is requested. -/
  | laneLockLoss (bundle lane : Nat) (spareLocked : Bool)
  /-- SWAP_REQUEST_REPEAT (R423). The 1 µs timer repeats an unanswered LANE SWAP. -/
  | swapRequestRepeat (bundle : Nat)
  /-- BUNDLE_DROP_REQUEST (R424). Uncorrectable codewords beyond DROPTHR, or lost alignment, request a bundle drop. -/
  | bundleDropRequest (bundle : Nat)
  /-- PAR_CTL_ENABLE (R440). A write of 1 to PAR_CTL.ENABLE sends PARAMS to the partner. -/
  | parCtlEnable
  /-- PAR_CTL_LEAVE (R439). A write of 0 to PAR_CTL.ENABLE leaves the pair from JOINING or TAKEN_OVER. -/
  | parCtlLeave
  /-- PARAMS_TIMEOUT (R440). The partner's parameters do not arrive within 100 ms, and the check gives 0xC1. -/
  | paramsTimeout
  /-- PAR_CTL_TAKEOVER (R457). Setting PAR_CTL.TAKEOVER runs the take-over check and makes the member home for both halves. -/
  | parCtlTakeover (force : Bool)
  /-- PAR_CTL_GIVEBACK (R458). Setting PAR_CTL.GIVEBACK returns the partner's natural half to it. -/
  | parCtlGiveback
  /-- PAR_CTL_FENCE (R456). Setting PAR_CTL.FENCE makes the member FENCED. -/
  | parCtlFence
  /-- PAR_CTL_DISCARD (R456). Setting PAR_CTL.DISCARD on a FENCED member releases everything it holds. -/
  | parCtlDiscard
  /-- DISCARD_END (R456). The discard's releases end, and the member enters ALONE. -/
  | discardEnd
  /-- PTIMEOUT_EXPIRY (R449). The partner has been unresponsive for PTIMEOUT, and the member enters EXPOSED or leaves the join. -/
  | ptimeoutExpiry
  /-- MIRACK_STALL_TIMEOUT (R449). 100 µs pass with no MIRACK progress, and the partner counts as unresponsive. -/
  | mirackStallTimeout
  /-- RESYNC_STRIPE (R452). A member sends the pages of its next set stripe as master RESYNC. -/
  | resyncStripe (fs : Finds)
  /-- PSTAT_SEND (R451). Every 100 µs the member sends its PSTAT. -/
  | pstatSend
  /-- ENGINE_DPA_ACCESS (R471). An engine access through the DPA window is served, or raises a data abort. -/
  | engineDpaAccess (core dpaLine : Nat) (write : Option (Line × ByteMask)) (fs : Finds)
  /-- STAGE1_WALK (R474). A TLB miss walks the stage-1 tables with stage-2 checks on each read. -/
  | stage1Walk (core : Nat) (w : CoreWork) (va : Nat) (a : CoreAccess) (handler : Bool) (finds : List (Nat × Ecc)) (fs : Finds)
  /-- SPDM_MSG (R484). The SPDM_MSG world call passes an SPDM or IDE_KM message to Zenith. -/
  | spdmMsg (core : Nat) (w : CoreWork) (length : Nat)
  /-- VEIL_ROTATE_CALL (R484). The VEIL_ROTATE world call asks Zenith for a veil rotation. -/
  | veilRotateCall (core : Nat) (w : CoreWork)
  /-- FW_CHECK (R484). The FW_CHECK world call verifies a staged image. -/
  | fwCheck (core : Nat) (w : CoreWork) (image : Image) (type : Nat)
  /-- SVN_COMMIT_CALL (R490). The SVN_COMMIT world call raises a fused SVN, or is refused. -/
  | svnCommitCall (core : Nat) (w : CoreWork) (type : Nat)
  /-- CORE_RESTART (R484). The CORE_RESTART world call restarts a halted core. -/
  | coreRestart (core : Nat) (w : CoreWork) (target : Nat)
  /-- WORLD_RETURN (R482). A world return resumes S with only the two result registers kept. -/
  | worldReturn (core : Nat)
  /-- ASYNC_ENTRY (R483). An interrupt, stage-2 fault or NMI enters H, saving every register. -/
  | asyncEntry (core : Nat) (w : CoreWork) (why : EntryWhy)
  /-- MUP_GO (R480). A write to MUP_GO issues a MAP_UPDATE through the core's map update port. -/
  | mupGo (core : Nat) (w : CoreWork)
  /-- CORE_INVAL (R479). A write to CORE_INVAL invalidates the core's own TLB entries. -/
  | coreInval (core : Nat) (w : CoreWork) (v : Nat)
  /-- ENG_TLBINV (R479). A write to ENG_TLBINV starts the invalidation of other cores' TLBs. -/
  | engTlbinv (mask : Nat)
  /-- TLB_INVALIDATION_END (R479). A core finishes dropping matching entries, and its mask bit clears. -/
  | tlbInvalidationEnd (core : Nat)
  /-- ENG_WDOG_PET (R486). Zenith pets its watchdog. -/
  | engWdogPet
  /-- ENG_ZWDOG (R486). The Zenith watchdog expires without a pet. -/
  | engZwdog
  /-- ENG_LOCKSTEP (R486). A steward lockstep mismatch halts both cores. -/
  | engLockstep
  /-- ENG_HOLD_WRITE (R485). A write to ENG_HOLD holds power domains, waking any that are off. -/
  | engHoldWrite (v : Nat)
  /-- ENG_MEM_UE (R491). An uncorrectable error in engine SRAM gives the reading core a data abort. -/
  | engMemUe (core : Nat)
  /-- POWER_GOOD (R505). The rails and REFCLK are good, and the cold start begins with fuse sensing and strap latching. -/
  | powerGood (straps : Straps) (part : Option Part)
  /-- POWER_GOOD_LOSS (R505). A rail reaches its reset level, causing a cold reset with cause SUPPLY. -/
  | powerGoodLoss (rail : Nat) (aonLost : Bool)
  /-- REFCLK_LOSS (R502). REFCLK is absent for 1 µs, causing a cold reset. -/
  | refclkLoss
  /-- PLL_UNLOCK (R502). A PLL loses lock, causing a cold reset or a port or bundle down. -/
  | pllUnlock (p : Pll) (dropped0 dropped1 : Nat)
  /-- ROOT_PLL_LOCK (R500). The root PLL locks, the divided clocks run and self-test starts. -/
  | rootPllLock
  /-- SELF_TEST_END (R508). Self-test passes or fails, and the ROM starts verifying Zenith. -/
  | selfTestEnd (ok : Bool)
  /-- ZENITH_VERIFY_END (R488). The ROM accepts a Zenith image or stops in BOOT_HALT. -/
  | zenithVerifyEnd (a b : Image)
  /-- HORIZON_VERIFY_END (R488). Zenith accepts a Horizon image or runs alone in the Zenith-only state. -/
  | horizonVerifyEnd (a b : Image) (drift : List Image)
  /-- DEV_ENABLE_CHECK (R518). A write of 1 to SYS_CTL.DEV_ENABLE runs the DEV_ENABLE check. -/
  | devEnableCheck
  /-- DEV_DISABLE (R519). A write of 0 to SYS_CTL.DEV_ENABLE disables the device if nothing is in use. -/
  | devDisable
  /-- RST_CTL_COLD (R513). Setting RST_CTL.COLD starts a cold reset with cause SOFTWARE. -/
  | rstCtlCold
  /-- RST_CTL_WARM (R514). Setting RST_CTL.WARM starts a warm reset, or is refused. -/
  | rstCtlWarm
  /-- WARM_RESET_STEP (R514). A warm reset step completes: drain, save, reboot, recalibrate or restore. -/
  | warmResetStep (fs : Finds) (ok : Bool)
  /-- RST_CTL_GO (R516). Setting RST_CTL.GO starts a block reset. -/
  | rstCtlGo (p : Path)
  /-- BLOCK_RESET_END (R516). A block reset completes, and GO returns to 0. -/
  | blockResetEnd (block : ResetBlock) (index dropped : Nat)
  /-- THERMTRIP (R606). A junction reaches 115 °C, asserting THERMTRIP_N and holding cold reset. -/
  | thermtrip
  /-- CCI_IDENTIFY (R529). The CXL Identify command returns device identity. -/
  | cciIdentify (cci : Nat)
  /-- BACKGROUND_OPERATION_STATUS (R541). Background Operation Status reports the running background command. -/
  | backgroundOperationStatus (cci : Nat)
  /-- GET_RESPONSE_MESSAGE_LIMIT (R529). Get Response Message Limit returns the limit. -/
  | getResponseMessageLimit (cci : Nat)
  /-- SET_RESPONSE_MESSAGE_LIMIT (R528). Set Response Message Limit sets a limit of 256 B to 4 KiB. -/
  | setResponseMessageLimit (cci exponent : Nat)
  /-- REQUEST_ABORT_BACKGROUND_OPERATION (R542). An abort request stops a scan or scrub, or returns Unsupported. -/
  | requestAbortBackgroundOperation (cci : Nat)
  /-- GET_EVENT_RECORDS (R529). Get Event Records returns records of an LD's event log. -/
  | getEventRecords (cci log : Nat)
  /-- CLEAR_EVENT_RECORDS (R529). Clear Event Records clears records from an event log. -/
  | clearEventRecords (cci log : Nat) (all : Bool) (handles : List Nat)
  /-- GET_EVENT_INTERRUPT_POLICY (R529). Get Event Interrupt Policy returns the policy. -/
  | getEventInterruptPolicy (cci : Nat)
  /-- SET_EVENT_INTERRUPT_POLICY (R529). Set Event Interrupt Policy sets the policy. -/
  | setEventInterruptPolicy (cci : Nat) (policy : List Nat)
  /-- GET_FW_INFO (R532). Get FW Info reports the two firmware slots. -/
  | getFwInfo (cci : Nat)
  /-- TRANSFER_FW (R532). Transfer FW writes a firmware package to a slot as a background command. -/
  | transferFw (cci action slot : Nat) (pkg : Package)
  /-- ACTIVATE_FW (R532). Activate FW accepts only offline activation of slot 1. -/
  | activateFw (cci action slot : Nat)
  /-- GET_TIMESTAMP (R530). Get Timestamp returns the device timestamp in ns. -/
  | getTimestamp (cci : Nat)
  /-- SET_TIMESTAMP (R530). Set Timestamp overwrites the device timestamp. -/
  | setTimestamp (cci t : Nat)
  /-- GET_SUPPORTED_LOGS (R529). Get Supported Logs lists the Command Effects Log. -/
  | getSupportedLogs (cci : Nat)
  /-- GET_LOG (R529). Get Log returns the Command Effects Log. -/
  | getLog (cci : Nat) (effects : Bool)
  /-- IDENTIFY_MEMORY_DEVICE (R529). Identify Memory Device returns the LD's capacities and limits. -/
  | identifyMemoryDevice (cci : Nat)
  /-- GET_HEALTH_INFO (R529). Get Health Info returns the hottest junction and health data. -/
  | getHealthInfo (cci : Nat)
  /-- GET_ALERT_CONFIGURATION (R529). Get Alert Configuration returns the alert settings. -/
  | getAlertConfiguration (cci : Nat)
  /-- SET_ALERT_CONFIGURATION (R529). Set Alert Configuration sets temperature and error alerts. -/
  | setAlertConfiguration (cci : Nat) (over' under : Option (Option Int)) (ce : Option (Option Nat)) (other : Bool)
  /-- GET_POISON_LIST (R267). Get Poison List returns the listed lines of a DPA range granted to the LD. -/
  | getPoisonList (cci dpa lines : Nat)
  /-- INJECT_POISON (R267). Inject Poison writes a line poisoned, as a host write from the LD. -/
  | injectPoison (cci dpa : Nat) (f : AccessFind)
  /-- CLEAR_POISON (R267). Clear Poison writes supplied data to a line and removes its entry. -/
  | clearPoison (cci dpa : Nat) (data : Line) (f : AccessFind)
  /-- GET_SCAN_MEDIA_CAPABILITIES (R271). Get Scan Media Capabilities estimates a scan's time. -/
  | getScanMediaCapabilities (cci dpa lines : Nat)
  /-- SCAN_MEDIA (R271). Scan Media runs a logical VERIFY scrub as a background command. -/
  | scanMedia (cci dpa lines : Nat)
  /-- GET_SCAN_MEDIA_RESULTS (R271). Get Scan Media Results returns the first UE lines found. -/
  | getScanMediaResults (cci : Nat)
  /-- SANITIZE (R531). Sanitize draws new veil keys and zeroes every rank. -/
  | sanitize (cci : Nat)
  /-- SECURE_ERASE (R531). Secure Erase redraws all veil keys and zeroes the metadata area. -/
  | secureErase (cci : Nat)
  /-- GET_DYNAMIC_CAPACITY_CONFIGURATION (R529). Get Dynamic Capacity Configuration returns the DC regions. -/
  | getDynamicCapacityConfiguration (cci : Nat)
  /-- GET_DC_EXTENT_LIST (R529). Get DC Extent List returns the LD's extents. -/
  | getDcExtentList (cci : Nat)
  /-- ADD_DC_RESPONSE (R529). Add DC Response accepts extents that lie in a granted claim. -/
  | addDcResponse (cci : Nat) (xs : List (Nat × Nat))
  /-- RELEASE_DYNAMIC_CAPACITY (R529). Release Dynamic Capacity makes an extent's pages UNBACKED. -/
  | releaseDynamicCapacity (cci : Nat) (xs : List (Nat × Nat))
  /-- UNSUPPORTED_COMMAND (R529). An unimplemented or unpermitted command returns Unsupported. -/
  | unsupportedCommand (cci : Nat)
  /-- COMMAND_TIMEOUT (R528). A foreground command not completed in 2 s is completed with Internal Error. -/
  | commandTimeout (cci : Nat)
  /-- BACKGROUND_OPERATION_END (R541). A background command finishes and signals its completion interrupt. -/
  | backgroundOperationEnd (cci : Nat) (ok : Bool)
  /-- BIND_SLICE (R544). The Zenith request BIND_SLICE binds a slice to the requester's key. -/
  | bindSlice (h : ZenithHead) (body : List Byte)
  /-- GET_BINDING (R545). The Zenith request GET_BINDING returns a slice's binding. -/
  | getBinding (h : ZenithHead) (body : List Byte)
  /-- SEAL_ENABLE (R545). The Zenith request SEAL_ENABLE runs the seal region enable. -/
  | sealEnable (h : ZenithHead) (body : List Byte)
  /-- SEAL_RECOVERY (R311). The Zenith request SEAL_RECOVERY chooses or presets a breach recovery. -/
  | sealRecovery (h : ZenithHead) (body : List Byte)
  /-- BREACH_LIST (R545). The Zenith request BREACH_LIST returns the breach records of the slice. -/
  | breachList (h : ZenithHead) (body : List Byte)
  /-- ZR_SALVAGE_READ (R545). The Zenith request SALVAGE_READ returns a salvage record in plaintext. -/
  | zrSalvageRead (h : ZenithHead) (body : List Byte)
  /-- EXPORT_KEY_CREATE (R545). The Zenith request EXPORT_KEY_CREATE creates a slot's export key. -/
  | exportKeyCreate (h : ZenithHead) (body : List Byte)
  /-- EXPORT_KEY_GET (R545). The Zenith request EXPORT_KEY_GET returns an export key. -/
  | exportKeyGet (h : ZenithHead) (body : List Byte)
  /-- EXPORT_KEY_LOAD (R545). The Zenith request EXPORT_KEY_LOAD loads a foreign export key. -/
  | exportKeyLoad (h : ZenithHead) (body : List Byte)
  /-- EXPORT_KEY_DROP (R545). The Zenith request EXPORT_KEY_DROP drops an export key. -/
  | exportKeyDrop (h : ZenithHead) (body : List Byte)
  /-- ZR_VEIL_ROTATE (R545). The Zenith request VEIL_ROTATE starts a veil rotation for slice 0. -/
  | zrVeilRotate (h : ZenithHead) (body : List Byte)
  /-- HAZE_ENTRY (R548). After HAZE_IDLE of inactivity the device enters HAZE. -/
  | hazeEntry
  /-- HAZE_EXIT (R549). Activity in HAZE brings the arrays out of retention. -/
  | hazeExit (late : Bool)
  /-- OVERCAST_ENTRY (R550). After OVC_IDLE with every link in L1 the device enters OVERCAST. -/
  | overcastEntry
  /-- OVERCAST_WAKE (R554). A wake source returns the device from OVERCAST to CLEAR. -/
  | overcastWake (source : WakeSource)
  /-- PWR_CTL_NIGHT (R551). Setting PWR_CTL.NIGHT checks and accepts a NIGHT request. -/
  | pwrCtlNight
  /-- PWR_CTL_CLEAR (R553). Setting PWR_CTL.CLEAR cancels a pending NIGHT or wakes the device. -/
  | pwrCtlClear
  /-- NIGHT_ENTRY (R552). The last host link reaches L1.2 or L2 with PENDING set, and NIGHT entry begins. -/
  | nightEntry
  /-- NIGHT_ENTRY_STEP (R552). A NIGHT entry step completes, ending with STATE NIGHT. -/
  | nightEntryStep (fs : Finds)
  /-- NIGHT_WAKE (R554). A wake source starts the exit from NIGHT. -/
  | nightWake (source : WakeSource)
  /-- NIGHT_EXIT_STEP (R554). A NIGHT exit step completes, ending with links released to L0. -/
  | nightExitStep (ok : Bool)
  /-- DOMAIN_WAKE (R556). An access to a gated or off domain wakes it on demand. -/
  | domainWake (domain : Nat)
  /-- DOMAIN_WAKE_END (R556). A woken domain is ON, and the held access proceeds. -/
  | domainWakeEnd (domain : Nat) (late : Bool)
  /-- PWR_DOMCTL_GO (R558). Setting PWR_DOMCTL.GO applies an action to a domain, or records a refusal. -/
  | pwrDomctlGo (p : Path)
  /-- DOMAIN_GATE_EFFECT (R556). An accepted gate or off takes effect once no access is in flight. -/
  | domainGateEffect (domain : Nat)
  /-- SUPPLY_WARNING (R560). A rail crosses below its warning level and engages the brownout guard. -/
  | supplyWarning (rail : Nat)
  /-- GUARD_LIFT (R560). After 100 µs above the warning level plus HYST the guard lifts, and the sweep starts. -/
  | guardLift
  /-- FLT_STICKY_CLEAR (R570). A write of 1 to FLT_STICKYk clears sticky bits and may release ERR_N. -/
  | fltStickyClear (k v : Nat)
  /-- CHIPRST (R574). 10 µs after a CHIPRST event, the cold reset with cause FAULT begins. -/
  | chiprst
  /-- FLT_FIFO_READ (R588). A read of FLT_FIFO returns and removes the oldest entry. -/
  | fltFifoRead (p : Path)
  /-- HBEAT_TOGGLE (R578). Every 500 µs HBEAT toggles while its conditions hold. -/
  | hbeatToggle
  /-- EVENT_RECORD (R579). Horizon forms a CXL event record from the FIFO and the block logs. -/
  | eventRecord (e : EventCause)
  /-- TEL_CTL_START (R599). Setting TEL_CTL.START takes a counter sweep. -/
  | telCtlStart
  /-- SWEEP_PERIOD (R599). The PERIOD timer starts a counter sweep. -/
  | sweepPeriod
  /-- SWEEP_END (R600). A sweep completes, swaps the snapshot buffers and increments SEQ. -/
  | sweepEnd (span : Nat) (failed : List Nat)
  /-- TEL_CTL_CLRALL (R597). Setting TEL_CTL.CLRALL zeroes every counter and overflow bit. -/
  | telCtlClrall
  /-- TEL_CNTVAL_WRITE (R597). A write to TEL_CNTVAL loads a counter and clears its overflow bit. -/
  | telCntvalWrite (p : Path) (v : Nat)
  /-- TEL_SMPRD_WRITE (R603). A write to TEL_SMPRD frees the sample records before it. -/
  | telSmprdWrite (v : Nat)
  /-- JUNCTION_SENSOR_READ (R605). The 100 µs junction sensor read updates HOTTEST and throttling. -/
  | junctionSensorRead (readings : List (Option Int))
  /-- THERM_SENSOR (R605). A sensor that has not reported for 1 ms is marked FAILED. -/
  | thermSensor (sensor : Nat)
  /-- THROTTLE_RELEASE (R606). HOTTEST at or below the throttle point less 5 °C for 1 ms ends throttling. -/
  | throttleRelease
  /-- RAIL_SAMPLE (R607). The 10 µs rail sample updates voltages, currents and energy. -/
  | railSample (samples : List (Nat × Nat))
  /-- EYE_ESTIMATE (R608). The 1 ms eye estimate of each receiver lane is updated. -/
  | eyeEstimate (contrail : Bool) (unit lane height width : Nat) (margining : Bool)
  /-- REGISTER_WRITE (R6). A write to a register without behaviour of its own stores it under its access codes and clamping. -/
  | registerWrite (p : Path) (fn offset bytes v : Nat) (bme msix : Bool)
  /-- JTAG_INSTRUCTION (R647). A JTAG instruction runs, with ball-control instructions acting as BYPASS unless safe. -/
  | jtagInstruction (op : JtagOp)
  /-- LINK_LOW_POWER_ENTRY (R550). A host link leaves L0 for L1, L1.1, L1.2 or L2. -/
  | linkLowPowerEntry (link : Nat) (to' : LowPower)
  /-- SERDES_PLL_LOCK (R502). A host-port or Contrail SerDes PLL locks, at start-up or after losing lock, and the port's links may train again. -/
  | serdesPllLock (host : Bool) (k : Nat)
  /-- HOST_RECEIVER_CALIBRATION (R508). Host receiver calibration completes, and SYS_BOOT.STAGE becomes PORTS_READY. -/
  | hostReceiverCalibration
  /-- DOE_REQUEST (R509). A DOE request arrives on a function and is answered Busy, handled by Horizon, or served by Zenith in the Zenith-only state. -/
  | doeRequest (link ld : Nat) (spdm : Bool)
  /-- KEY_RENEWAL (R427). After 2^32 packets in a direction, Zenith starts a Contrail key renewal by sending KEYRENEW. -/
  | keyRenewal
  /-- QUE_PARITY (R377). An internal parity error in a queue's state puts the queue in ERROR with cause PARITY. -/
  | queParity (queue : Nat)
  /-- CMPL_DMA (R377). A CQ completion write ends in UR, CA or an IOMMU fault, and the queue enters ERROR with cause CMPL_DMA. -/
  | cmplDma (queue : Nat)
  /-- FLT_SRCCFG_WRITE (R577). A write to FLT_SRCCFG changes a source's reactions, keeping fixed reactions set, and an ERRN change takes effect on already set bits and may assert or release ERR_N. -/
  | fltSrccfgWrite (p : Path) (v : Nat)
  /-- FLT_INTCFG_WRITE (R571). A write to FLT_INTCFG that sets EN while an INT is pending sends the held MSI-X when the link is in L0. -/
  | fltIntcfgWrite (v : Nat)
  /-- OCCUPANCY_SAMPLE (R592). Every 1 µs, counters of occupancy events add the current level. -/
  | occupancySample
  deriving DecidableEq, Repr

end Sys2Proof
end

