-- ==== Sys2Proof/Config.lean ====
section
/-! DEFINITION. Values that the spec leaves open. Each is a constant without a body, so nothing can be proved of its
values; a meaning applies it to the state's count of free values or to the operands it depends on. -/

namespace Sys2Proof.Config

/-- A fresh number that the device draws: random values, estimates, values that the spec does not state. -/
opaque freeNat : Nat → Nat

/-- The token stream that the one-pass compressor forms for a block (R163: the output may be any conforming stream). -/
opaque compress : List Byte → List Byte

/-- AES-256-GCM under an export key (R208): ciphertext followed by the tag, and the plaintext where the tag matches. The
cipher is not modelled. -/
opaque gcmSeal : (key : Nat) → (nonce : Nat) → (aad plain : List Byte) → List Byte
opaque gcmOpen : (key : Nat) → (nonce : Nat) → (aad cipher : List Byte) → Option (List Byte)

end Sys2Proof.Config
end

