-- ==== Sys2Proof/Machine/Table.lean ====
section
/-! DEFINITION. Sparse data by number: tables with strictly rising keys that list no default entry, sets of numbers,
and memory as (address, byte) pairs. Updates drop the old entry before they place the new one, so that reading back
an update needs no hypothesis on the table. -/

namespace Sys2Proof.Machine

/-- Values by number. In canonical form the keys rise strictly. -/
abbrev Table (α : Type) := List (Nat × α)

/-- The entry of `k`, if one is listed. -/
def Table.find {α : Type} : Table α → Nat → Option α
  | [], _ => none
  | (k', v) :: t, k => if k' = k then some v else Table.find t k

/-- The entry of `k`, or `d` where none is listed. -/
def Table.get {α : Type} (t : Table α) (d : α) (k : Nat) : α := (Table.find t k).getD d

/-- Every entry except that of `k`. -/
def Table.erase {α : Type} (t : Table α) (k : Nat) : Table α := t.filter fun e => !(e.1 == k)

/-- Place an entry before the first greater key. -/
def Table.place {α : Type} (k : Nat) (v : α) : Table α → Table α
  | [] => [(k, v)]
  | e :: t => if k < e.1 then (k, v) :: e :: t else e :: Table.place k v t

/-- The table with `v` as the entry of `k`. -/
def Table.put {α : Type} (t : Table α) (k : Nat) (v : α) : Table α := Table.place k v (Table.erase t k)

/-- The table in which `k` reads as `v`, where an unlisted number reads as `d`. -/
def Table.set {α : Type} [DecidableEq α] (t : Table α) (d : α) (k : Nat) (v : α) : Table α :=
  if v = d then Table.erase t k else Table.put t k v

/-- Keys rise strictly. -/
def Table.rising {α : Type} (t : Table α) : Bool := (t.map Prod.fst).Pairwise (· < ·)

/-- Canonical form of a table whose unlisted numbers read as `d`. -/
def Table.wf {α : Type} [DecidableEq α] (t : Table α) (d : α) : Bool :=
  Table.rising t && t.all fun e => !(e.2 == d)

/-- A set of numbers, in rising order. -/
abbrev NSet := List Nat

/-- Membership. -/
def NSet.has (s : NSet) (k : Nat) : Bool := s.contains k

/-- Place a number before the first greater one. -/
def NSet.place (k : Nat) : NSet → NSet
  | [] => [k]
  | e :: t => if k < e then k :: e :: t else e :: NSet.place k t

/-- The set with `k` in it. -/
def NSet.add (s : NSet) (k : Nat) : NSet := NSet.place k (s.filter fun e => !(e == k))

/-- The set without `k`. -/
def NSet.remove (s : NSet) (k : Nat) : NSet := s.filter fun e => !(e == k)

/-- Members rise strictly. -/
def NSet.wf (s : NSet) : Bool := s.Pairwise (· < ·)

/-- Insert into a sorted list, before the first element that is not smaller. -/
def insertBy {α : Type} (le : α → α → Bool) (x : α) : List α → List α
  | [] => [x]
  | y :: ys => if le x y then x :: y :: ys else y :: insertBy le x ys

/-- Sort a list; equal elements keep their order. -/
def sortBy {α : Type} (le : α → α → Bool) : List α → List α
  | [] => []
  | x :: xs => insertBy le x (sortBy le xs)

end Sys2Proof.Machine
end

