-- ==== Sys2Proof/Machine/Registers.lean ====
section
/-! DEFINITION. The vendor register file as the spec's register tables give it: every field of every register
(R6, R622, R632), with its address, access code, reset value, lock and clamp, and the list of registers by block.
Values are kept per field (`Fld.key`); a register's word is formed from its fields. -/

namespace Sys2Proof.Machine

/-- Access codes of R6. RSV bits have no field: they read 0 and ignore writes (R6, R622). -/
inductive Access where
  | ro | rw | rw1c | rw1s | wo | ros | rwl
  deriving DecidableEq, Repr

/-- How a stored value is brought into the field's range (the Meaning columns of the register tables). -/
inductive Clamp where
  | asWritten
  | range (lo hi : Nat)
  | zeroOrRange (lo hi : Nat)
  | replace (bad good : Nat)
  deriving DecidableEq, Repr

/-- The commit or enable bit that locks an RWL field (R6, R9). -/
inductive Lock where
  | unlocked | devEnable | claimCommit | slotArmed | channelCommit | sliceEnable | queueEnable | pairEnable
  deriving DecidableEq, Repr

/-- One field of a register, or of one register of a family of like registers at distance `step`. -/
structure Fld where
  addr : Nat
  step : Nat
  lo : Nat
  width : Nat
  acc : Access
  reset : Nat
  resets : List Nat
  clamp : Clamp
  lock : Lock
  deriving DecidableEq, Repr

/-- Distance between the copies of a register that a selector selects: the size of BAR2 (R618), so that a key never
falls on another register's address. -/
def bank : Nat := 0x10000000

/-- Key of copy `i` of a field in the register file. -/
def Fld.key (f : Fld) (i : Nat) : Nat := (f.addr + f.step * i) * 64 + f.lo

/-- Reset value of copy `i` (R5). -/
def Fld.resetAt (f : Fld) (i : Nat) : Nat := f.resets.getD i f.reset

/-- What a write of `v` stores: the low `width` bits, clamped. -/
def Clamp.apply (c : Clamp) (v : Nat) : Nat :=
  match c with
  | .asWritten => v
  | .range lo hi => if v < lo then lo else if hi < v then hi else v
  | .zeroOrRange lo hi => if v = 0 then 0 else if v < lo then lo else if hi < v then hi else v
  | .replace bad good => if v = bad then good else v

/-- How software reaches the copies of a register. -/
inductive Reach where
  /-- `count` registers at distance `step` in the register file. -/
  | strided
  /-- One address; the copy is the one that the selector register with this address selects (R534). -/
  | selected (selector : Nat)
  /-- A selector: copy 0 for the BAR2 view, copy 1 for the engine and steward views (R534). -/
  | selector
  deriving DecidableEq, Repr

/-- One row of the register index (R632). `bits` is 32, 64 or, for a log record, 128. -/
structure Register where
  name : String
  addr : Nat
  step : Nat
  count : Nat
  bits : Nat
  reach : Reach
  fields : List Fld
  deriving DecidableEq, Repr

/-- SYS_CTL, at SYS + 0x000 (R521). -/
def SYS_CTL.DEV_ENABLE : Fld := ⟨0x0, 0x0, 0, 1, .rw, 0, [], .asWritten, .unlocked⟩
/-- SYS_CHECK, at SYS + 0x008 (R521). -/
def SYS_CHECK.CODE : Fld := ⟨0x8, 0x0, 0, 8, .ro, 0, [], .asWritten, .unlocked⟩
/-- SYS_BOOT, at SYS + 0x010 (R522). -/
def SYS_BOOT.STAGE : Fld := ⟨0x10, 0x0, 0, 3, .ro, 0, [], .asWritten, .unlocked⟩
def SYS_BOOT.MEMACTIVE : Fld := ⟨0x10, 0x0, 3, 1, .ro, 0, [], .asWritten, .unlocked⟩
def SYS_BOOT.CFGSRC : Fld := ⟨0x10, 0x0, 4, 2, .ro, 0, [], .asWritten, .unlocked⟩
def SYS_BOOT.SELFTEST_FAIL : Fld := ⟨0x10, 0x0, 6, 1, .ro, 0, [], .asWritten, .unlocked⟩
/-- SYS_ID, at SYS + 0x018 (R628). -/
def SYS_ID.DEVID : Fld := ⟨0x18, 0x0, 0, 16, .ro, 0x7160, [], .asWritten, .unlocked⟩
def SYS_ID.STEPPING : Fld := ⟨0x18, 0x0, 16, 8, .ro, 177, [], .asWritten, .unlocked⟩
def SYS_ID.PAIRID : Fld := ⟨0x18, 0x0, 24, 1, .ro, 0, [], .asWritten, .unlocked⟩
def SYS_ID.LOCKED : Fld := ⟨0x18, 0x0, 25, 1, .ro, 0, [], .asWritten, .unlocked⟩
def SYS_ID.MAPREV : Fld := ⟨0x18, 0x0, 32, 8, .ro, 1, [], .asWritten, .unlocked⟩
/-- SYS_SUMMARY, at SYS + 0x020 (R629). -/
def SYS_SUMMARY.DEV_ENABLE : Fld := ⟨0x20, 0x0, 0, 1, .ro, 0, [], .asWritten, .unlocked⟩
def SYS_SUMMARY.MEMACTIVE : Fld := ⟨0x20, 0x0, 1, 1, .ro, 0, [], .asWritten, .unlocked⟩
def SYS_SUMMARY.STAGE : Fld := ⟨0x20, 0x0, 2, 3, .ro, 0, [], .asWritten, .unlocked⟩
def SYS_SUMMARY.PWRSTATE : Fld := ⟨0x20, 0x0, 5, 2, .ro, 0, [], .asWritten, .unlocked⟩
def SYS_SUMMARY.GUARD : Fld := ⟨0x20, 0x0, 7, 1, .ro, 0, [], .asWritten, .unlocked⟩
def SYS_SUMMARY.PAIRSTATE : Fld := ⟨0x20, 0x0, 8, 4, .ro, 0, [], .asWritten, .unlocked⟩
def SYS_SUMMARY.CONSTATE : Fld := ⟨0x20, 0x0, 12, 3, .ro, 0, [], .asWritten, .unlocked⟩
def SYS_SUMMARY.ERRN : Fld := ⟨0x20, 0x0, 15, 1, .ro, 0, [], .asWritten, .unlocked⟩
def SYS_SUMMARY.STICKY : Fld := ⟨0x20, 0x0, 16, 1, .ro, 0, [], .asWritten, .unlocked⟩
def SYS_SUMMARY.FROZEN : Fld := ⟨0x20, 0x0, 17, 1, .ro, 0, [], .asWritten, .unlocked⟩
def SYS_SUMMARY.YIELDING : Fld := ⟨0x20, 0x0, 18, 1, .ro, 0, [], .asWritten, .unlocked⟩
def SYS_SUMMARY.THROTTLE : Fld := ⟨0x20, 0x0, 19, 1, .ro, 0, [], .asWritten, .unlocked⟩
def SYS_SUMMARY.FALLBACK : Fld := ⟨0x20, 0x0, 20, 1, .ro, 0, [], .asWritten, .unlocked⟩
/-- SYS_ACCERR, at SYS + 0x028 (R630). -/
def SYS_ACCERR.OFFSET : Fld := ⟨0x28, 0x0, 0, 28, .ro, 0, [], .asWritten, .unlocked⟩
def SYS_ACCERR.PATH : Fld := ⟨0x28, 0x0, 28, 2, .ro, 0, [], .asWritten, .unlocked⟩
def SYS_ACCERR.KIND : Fld := ⟨0x28, 0x0, 30, 1, .ro, 0, [], .asWritten, .unlocked⟩
def SYS_ACCERR.WRITE : Fld := ⟨0x28, 0x0, 31, 1, .ro, 0, [], .asWritten, .unlocked⟩
def SYS_ACCERR.COUNT : Fld := ⟨0x28, 0x0, 32, 16, .ros, 0, [], .asWritten, .unlocked⟩
def SYS_ACCERR.VALID : Fld := ⟨0x28, 0x0, 63, 1, .rw1c, 0, [], .asWritten, .unlocked⟩
/-- CLK_STAT, at CLK + 0x000 (R525). -/
def CLK_STAT.REFOK : Fld := ⟨0x10000, 0x0, 0, 1, .ro, 0, [], .asWritten, .unlocked⟩
def CLK_STAT.ROOT : Fld := ⟨0x10000, 0x0, 1, 1, .ro, 0, [], .asWritten, .unlocked⟩
def CLK_STAT.DRAM : Fld := ⟨0x10000, 0x0, 2, 8, .ro, 0, [], .asWritten, .unlocked⟩
def CLK_STAT.HOST : Fld := ⟨0x10000, 0x0, 10, 4, .ro, 0, [], .asWritten, .unlocked⟩
def CLK_STAT.CON : Fld := ⟨0x10000, 0x0, 14, 3, .ro, 0, [], .asWritten, .unlocked⟩
/-- RST_CTL, at RST + 0x000 (R523). -/
def RST_CTL.COLD : Fld := ⟨0x20000, 0x0, 0, 1, .rw1s, 0, [], .asWritten, .unlocked⟩
def RST_CTL.WARM : Fld := ⟨0x20000, 0x0, 1, 1, .rw1s, 0, [], .asWritten, .unlocked⟩
def RST_CTL.GO : Fld := ⟨0x20000, 0x0, 2, 1, .rw1s, 0, [], .asWritten, .unlocked⟩
def RST_CTL.CHECK : Fld := ⟨0x20000, 0x0, 8, 8, .ro, 0, [], .asWritten, .unlocked⟩
def RST_CTL.BLOCK : Fld := ⟨0x20000, 0x0, 16, 3, .rw, 0, [], .asWritten, .unlocked⟩
def RST_CTL.INDEX : Fld := ⟨0x20000, 0x0, 24, 6, .rw, 0, [], .asWritten, .unlocked⟩
/-- RST_LAST, at RST + 0x008 (R524). -/
def RST_LAST.KIND : Fld := ⟨0x20008, 0x0, 0, 1, .ro, 0, [], .asWritten, .unlocked⟩
def RST_LAST.CAUSE : Fld := ⟨0x20008, 0x0, 1, 4, .ro, 0, [], .asWritten, .unlocked⟩
def RST_LAST.RAIL : Fld := ⟨0x20008, 0x0, 5, 3, .ro, 0, [], .asWritten, .unlocked⟩
def RST_LAST.SOURCE : Fld := ⟨0x20008, 0x0, 8, 7, .ro, 0, [], .asWritten, .unlocked⟩
def RST_LAST.WARMCNT : Fld := ⟨0x20008, 0x0, 32, 16, .ro, 0, [], .asWritten, .unlocked⟩
/-- RST_CALSTAT, at RST + 0x010 (R526). -/
def RST_CALSTAT.CLAMPED : Fld := ⟨0x20010, 0x0, 0, 8, .ro, 0, [], .asWritten, .unlocked⟩
def RST_CALSTAT.USER : Fld := ⟨0x20010, 0x0, 8, 1, .ro, 0, [], .asWritten, .unlocked⟩
/-- PWR_CTL, at PWR + 0x000 (R562). -/
def PWR_CTL.NIGHT : Fld := ⟨0x30000, 0x0, 0, 1, .rw1s, 0, [], .asWritten, .unlocked⟩
def PWR_CTL.CLEAR : Fld := ⟨0x30000, 0x0, 1, 1, .rw1s, 0, [], .asWritten, .unlocked⟩
def PWR_CTL.CHECK : Fld := ⟨0x30000, 0x0, 8, 8, .ro, 0, [], .asWritten, .unlocked⟩
/-- PWR_CFG, at PWR + 0x008 (R562). -/
def PWR_CFG.HAZE_IDLE : Fld := ⟨0x30008, 0x0, 0, 10, .rw, 20, [], .range 0 1000, .unlocked⟩
def PWR_CFG.OVC_IDLE : Fld := ⟨0x30008, 0x0, 16, 10, .rw, 10, [], .range 0 1000, .unlocked⟩
def PWR_CFG.WAKE_LINK : Fld := ⟨0x30008, 0x0, 32, 1, .rw, 1, [], .asWritten, .unlocked⟩
def PWR_CFG.WAKE_CON : Fld := ⟨0x30008, 0x0, 33, 1, .rw, 1, [], .asWritten, .unlocked⟩
def PWR_CFG.WAKE_VSENSE : Fld := ⟨0x30008, 0x0, 34, 1, .rw, 0, [], .asWritten, .unlocked⟩
/-- PWR_STAT, at PWR + 0x010 (R563). -/
def PWR_STAT.STATE : Fld := ⟨0x30010, 0x0, 0, 2, .ro, 0, [], .asWritten, .unlocked⟩
def PWR_STAT.PENDING : Fld := ⟨0x30010, 0x0, 2, 1, .ro, 0, [], .asWritten, .unlocked⟩
def PWR_STAT.GUARD : Fld := ⟨0x30010, 0x0, 3, 1, .ro, 0, [], .asWritten, .unlocked⟩
def PWR_STAT.LASTWAKE : Fld := ⟨0x30010, 0x0, 4, 3, .ro, 0, [], .asWritten, .unlocked⟩
def PWR_STAT.NIGHTS : Fld := ⟨0x30010, 0x0, 32, 32, .ros, 0, [], .asWritten, .unlocked⟩
/-- PWR_DOMSEL, at PWR + 0x018 (R564). -/
def PWR_DOMSEL.DOMAIN : Fld := ⟨0x30018, bank, 0, 6, .rw, 0, [], .asWritten, .unlocked⟩
/-- PWR_DOMCTL, at PWR + 0x020 (R564). -/
def PWR_DOMCTL.GO : Fld := ⟨0x30020, 0x0, 0, 1, .rw1s, 0, [], .asWritten, .unlocked⟩
def PWR_DOMCTL.ACTION : Fld := ⟨0x30020, 0x0, 1, 2, .rw, 0, [], .asWritten, .unlocked⟩
def PWR_DOMCTL.CHECK : Fld := ⟨0x30020, 0x0, 8, 8, .ro, 0, [], .asWritten, .unlocked⟩
def PWR_DOMCTL.REFUSER : Fld := ⟨0x30020, 0x0, 16, 3, .ro, 0, [], .asWritten, .unlocked⟩
/-- PWR_DOMSTAT, at PWR + 0x028 (R564). -/
def PWR_DOMSTAT.STATE : Fld := ⟨0x30028, bank, 0, 2, .ro, 0, [], .asWritten, .unlocked⟩
def PWR_DOMSTAT.HELD : Fld := ⟨0x30028, bank, 2, 1, .ro, 0, [], .asWritten, .unlocked⟩
def PWR_DOMSTAT.WAKING : Fld := ⟨0x30028, bank, 3, 1, .ro, 0, [], .asWritten, .unlocked⟩
def PWR_DOMSTAT.WAKES : Fld := ⟨0x30028, bank, 32, 32, .ro, 0, [], .asWritten, .unlocked⟩
/-- PWR_REFCNT, at PWR + 0x030 (R565). -/
def PWR_REFCNT.HOLD : Fld := ⟨0x30030, 0x0, 0, 12, .ros, 0, [], .asWritten, .unlocked⟩
def PWR_REFCNT.ALWAYS : Fld := ⟨0x30030, 0x0, 12, 12, .ros, 0, [], .asWritten, .unlocked⟩
def PWR_REFCNT.INUSE : Fld := ⟨0x30030, 0x0, 24, 12, .ros, 0, [], .asWritten, .unlocked⟩
def PWR_REFCNT.TRANS : Fld := ⟨0x30030, 0x0, 36, 12, .ros, 0, [], .asWritten, .unlocked⟩
/-- PWR_REFLOG, at PWR + 0x040 (R566). -/
def PWR_REFLOG.TS : Fld := ⟨0x30040, 0x0, 0, 64, .ro, 0, [], .asWritten, .unlocked⟩
def PWR_REFLOG.DOMAIN : Fld := ⟨0x30040, 0x0, 64, 6, .ro, 0, [], .asWritten, .unlocked⟩
def PWR_REFLOG.ACTION : Fld := ⟨0x30040, 0x0, 70, 2, .ro, 0, [], .asWritten, .unlocked⟩
def PWR_REFLOG.REFUSER : Fld := ⟨0x30040, 0x0, 72, 3, .ro, 0, [], .asWritten, .unlocked⟩
def PWR_REFLOG.SOURCE : Fld := ⟨0x30040, 0x0, 75, 2, .ro, 0, [], .asWritten, .unlocked⟩
def PWR_REFLOG.VALID : Fld := ⟨0x30040, 0x0, 127, 1, .rw1c, 0, [], .asWritten, .unlocked⟩
/-- VMON_STAT, at VMON + 0x000 (R567). -/
def VMON_STAT.BELOW : Fld := ⟨0x40000, 0x0, 0, 7, .ro, 0, [], .asWritten, .unlocked⟩
/-- VMON_CFG, at VMON + 0x008 (R567). -/
def VMON_CFG.HYST : Fld := ⟨0x40008, 0x0, 0, 4, .rw, 2, [], .range 1 8, .unlocked⟩
/-- VMON_LEVEL, at VMON + 0x100 (R567). -/
def VMON_LEVEL.WARN : Fld := ⟨0x40100, 0x8, 0, 12, .ro, 0, [], .asWritten, .unlocked⟩
def VMON_LEVEL.RESET : Fld := ⟨0x40100, 0x8, 16, 12, .ro, 0, [], .asWritten, .unlocked⟩
def VMON_LEVEL.EXCUR : Fld := ⟨0x40100, 0x8, 32, 16, .ros, 0, [], .asWritten, .unlocked⟩
/-- LNK_PORTCFG, at LNK + 0x000 (R44). -/
def LNK_PORTCFG.BIF : Fld := ⟨0x50000, 0x100, 0, 2, .ro, 0, [], .asWritten, .unlocked⟩
def LNK_PORTCFG.MAXRATE : Fld := ⟨0x50000, 0x100, 2, 3, .ro, 0, [], .asWritten, .unlocked⟩
def LNK_PORTCFG.MLD : Fld := ⟨0x50000, 0x100, 5, 1, .ro, 0, [], .asWritten, .unlocked⟩
def LNK_PORTCFG.LOPT_ALLOW : Fld := ⟨0x50000, 0x100, 6, 1, .rw, 1, [], .asWritten, .unlocked⟩
/-- LNK_LSTAT, at LNK + 0x400 (R45). -/
def LNK_LSTAT.UP : Fld := ⟨0x50400, 0x40, 0, 1, .ro, 0, [], .asWritten, .unlocked⟩
def LNK_LSTAT.RATE : Fld := ⟨0x50400, 0x40, 1, 3, .ro, 0, [], .asWritten, .unlocked⟩
def LNK_LSTAT.WIDTH : Fld := ⟨0x50400, 0x40, 4, 2, .ro, 0, [], .asWritten, .unlocked⟩
def LNK_LSTAT.FLIT : Fld := ⟨0x50400, 0x40, 6, 2, .ro, 0, [], .asWritten, .unlocked⟩
def LNK_LSTAT.DEGRADED : Fld := ⟨0x50400, 0x40, 8, 1, .ro, 0, [], .asWritten, .unlocked⟩
def LNK_LSTAT.IDE_MEM : Fld := ⟨0x50400, 0x40, 9, 1, .ro, 0, [], .asWritten, .unlocked⟩
def LNK_LSTAT.IDE_IO : Fld := ⟨0x50400, 0x40, 10, 1, .ro, 0, [], .asWritten, .unlocked⟩
def LNK_LSTAT.DOWNCNT : Fld := ⟨0x50400, 0x40, 16, 16, .ros, 0, [], .asWritten, .unlocked⟩
/-- LNK_IDECTL, at LNK + 0x404 (R46). -/
def LNK_IDECTL.REQUIRE : Fld := ⟨0x50404, 0x40, 0, 1, .rw, 0, [], .asWritten, .unlocked⟩
/-- LNK_LASTDOWN, at LNK + 0x408 (R47). -/
def LNK_LASTDOWN.READS_DISC : Fld := ⟨0x50408, 0x40, 0, 16, .ros, 0, [], .asWritten, .unlocked⟩
def LNK_LASTDOWN.WR_COMMIT : Fld := ⟨0x50408, 0x40, 16, 16, .ros, 0, [], .asWritten, .unlocked⟩
def LNK_LASTDOWN.WR_DROP : Fld := ⟨0x50408, 0x40, 32, 16, .ros, 0, [], .asWritten, .unlocked⟩
def LNK_LASTDOWN.CAUSE : Fld := ⟨0x50408, 0x40, 48, 3, .ros, 0, [], .asWritten, .unlocked⟩
/-- LNK_LASTDOWN_TS, at LNK + 0x410 (R47). -/
def LNK_LASTDOWN_TS.TS : Fld := ⟨0x50410, 0x40, 0, 64, .ros, 0, [], .asWritten, .unlocked⟩
/-- RTR_DEADLINE, at RTR + 0x000 (R48). -/
def RTR_DEADLINE.TIME : Fld := ⟨0x60000, 0x0, 0, 10, .rwl, 20, [], .range 8 1000, .devEnable⟩
/-- RTR_DLLOG, at RTR + 0x100 (R49). -/
def RTR_DLLOG.TS : Fld := ⟨0x60100, 0x10, 0, 64, .ro, 0, [], .asWritten, .unlocked⟩
def RTR_DLLOG.DPALINE : Fld := ⟨0x60100, 0x10, 64, 39, .ro, 0, [], .asWritten, .unlocked⟩
def RTR_DLLOG.LINK : Fld := ⟨0x60100, 0x10, 103, 3, .ro, 0, [], .asWritten, .unlocked⟩
def RTR_DLLOG.LD : Fld := ⟨0x60100, 0x10, 106, 4, .ro, 0, [], .asWritten, .unlocked⟩
def RTR_DLLOG.OPCLASS : Fld := ⟨0x60100, 0x10, 110, 2, .ro, 0, [], .asWritten, .unlocked⟩
def RTR_DLLOG.CAUSE : Fld := ⟨0x60100, 0x10, 112, 4, .ro, 0, [], .asWritten, .unlocked⟩
def RTR_DLLOG.VALID : Fld := ⟨0x60100, 0x10, 127, 1, .rw1c, 0, [], .asWritten, .unlocked⟩
/-- RTR_DENYLOG, at RTR + 0x180 (R49). -/
def RTR_DENYLOG.TS : Fld := ⟨0x60180, 0x0, 0, 64, .ro, 0, [], .asWritten, .unlocked⟩
def RTR_DENYLOG.DPALINE : Fld := ⟨0x60180, 0x0, 64, 39, .ro, 0, [], .asWritten, .unlocked⟩
def RTR_DENYLOG.LINK : Fld := ⟨0x60180, 0x0, 103, 3, .ro, 0, [], .asWritten, .unlocked⟩
def RTR_DENYLOG.LD : Fld := ⟨0x60180, 0x0, 106, 4, .ro, 0, [], .asWritten, .unlocked⟩
def RTR_DENYLOG.OPCLASS : Fld := ⟨0x60180, 0x0, 110, 2, .ro, 0, [], .asWritten, .unlocked⟩
def RTR_DENYLOG.CAUSE : Fld := ⟨0x60180, 0x0, 112, 4, .ro, 0, [], .asWritten, .unlocked⟩
def RTR_DENYLOG.VALID : Fld := ⟨0x60180, 0x0, 127, 1, .rw1c, 0, [], .asWritten, .unlocked⟩
/-- MAP_CLAIMSEL, at MAP + 0x000 (R80). -/
def MAP_CLAIMSEL.CLAIM : Fld := ⟨0x70000, bank, 0, 13, .rw, 0, [], .asWritten, .unlocked⟩
/-- MAP_CLAIMBASE, at MAP + 0x008 (R81). -/
def MAP_CLAIMBASE.BASE : Fld := ⟨0x70008, bank, 0, 17, .rwl, 0, [], .asWritten, .claimCommit⟩
/-- MAP_CLAIMSIZE, at MAP + 0x010 (R81). -/
def MAP_CLAIMSIZE.SIZE : Fld := ⟨0x70010, bank, 0, 18, .rwl, 0, [], .asWritten, .claimCommit⟩
/-- MAP_CLAIMATTR, at MAP + 0x018 (R82). -/
def MAP_CLAIMATTR.COMMIT : Fld := ⟨0x70018, bank, 0, 1, .rw, 0, [], .asWritten, .unlocked⟩
def MAP_CLAIMATTR.TYPE : Fld := ⟨0x70018, bank, 1, 1, .rwl, 0, [], .asWritten, .claimCommit⟩
def MAP_CLAIMATTR.FLOOR : Fld := ⟨0x70018, bank, 2, 4, .rwl, 8, [], .asWritten, .claimCommit⟩
def MAP_CLAIMATTR.SHARED : Fld := ⟨0x70018, bank, 6, 1, .rwl, 0, [], .asWritten, .claimCommit⟩
def MAP_CLAIMATTR.SEALED : Fld := ⟨0x70018, bank, 7, 1, .rwl, 0, [], .asWritten, .claimCommit⟩
def MAP_CLAIMATTR.SEAL_DENSE : Fld := ⟨0x70018, bank, 8, 1, .rwl, 0, [], .asWritten, .claimCommit⟩
def MAP_CLAIMATTR.PIN_ALLOWED : Fld := ⟨0x70018, bank, 9, 1, .rwl, 0, [], .asWritten, .claimCommit⟩
def MAP_CLAIMATTR.SNAPSHOT_ALLOWED : Fld := ⟨0x70018, bank, 10, 1, .rwl, 0, [], .asWritten, .claimCommit⟩
def MAP_CLAIMATTR.SLICE : Fld := ⟨0x70018, bank, 16, 12, .rwl, 0, [], .asWritten, .claimCommit⟩
/-- MAP_CLAIMGRANT0, at MAP + 0x020 (R83). -/
def MAP_CLAIMGRANT0.GRANTS : Fld := ⟨0x70020, bank, 0, 64, .rw, 0, [], .asWritten, .unlocked⟩
/-- MAP_CLAIMGRANT1, at MAP + 0x028 (R83). -/
def MAP_CLAIMGRANT1.GRANTS : Fld := ⟨0x70028, bank, 0, 64, .rw, 0, [], .asWritten, .unlocked⟩
/-- MAP_CLAIMSTAT, at MAP + 0x030 (R84). -/
def MAP_CLAIMSTAT.RELEASING : Fld := ⟨0x70030, bank, 0, 1, .ro, 0, [], .asWritten, .unlocked⟩
def MAP_CLAIMSTAT.SEAL_READY : Fld := ⟨0x70030, bank, 1, 1, .ro, 0, [], .asWritten, .unlocked⟩
/-- MAP_CHECK, at MAP + 0x038 (R84). -/
def MAP_CHECK.CODE : Fld := ⟨0x70038, 0x0, 0, 8, .ro, 0, [], .asWritten, .unlocked⟩
/-- MAP_CLAIMUSED, at MAP + 0x040 (R84). -/
def MAP_CLAIMUSED.BYTES : Fld := ⟨0x70040, bank, 0, 48, .ro, 0, [], .asWritten, .unlocked⟩
/-- MAP_DPACAP, at MAP + 0x100 (R85). -/
def MAP_DPACAP.CAP : Fld := ⟨0x70100, 0x0, 0, 18, .rwl, 0, [], .asWritten, .devEnable⟩
/-- MAP_SQUALL, at MAP + 0x108 (R85). -/
def MAP_SQUALL.PCT : Fld := ⟨0x70108, 0x0, 0, 6, .rw, 5, [], .range 1 50, .unlocked⟩
/-- MAP_STORMCFG, at MAP + 0x10C (R85). -/
def MAP_STORMCFG.PCT : Fld := ⟨0x7010C, 0x0, 0, 4, .rwl, 1, [], .range 0 10, .devEnable⟩
/-- MAP_CAPINSTALLED, at MAP + 0x200 (R86). -/
def MAP_CAPINSTALLED.BYTES : Fld := ⟨0x70200, 0x0, 0, 48, .ro, 0, [], .asWritten, .unlocked⟩
/-- MAP_CAPUSABLE, at MAP + 0x208 (R86). -/
def MAP_CAPUSABLE.BYTES : Fld := ⟨0x70208, 0x0, 0, 48, .ro, 0, [], .asWritten, .unlocked⟩
/-- MAP_CAPCHARGED, at MAP + 0x210 (R86). -/
def MAP_CAPCHARGED.BYTES : Fld := ⟨0x70210, 0x0, 0, 48, .ro, 0, [], .asWritten, .unlocked⟩
/-- MAP_CAPSHAREDFREE, at MAP + 0x218 (R86). -/
def MAP_CAPSHAREDFREE.BYTES : Fld := ⟨0x70218, 0x0, 0, 48, .ro, 0, [], .asWritten, .unlocked⟩
/-- MAP_CAPSTORMSIZE, at MAP + 0x220 (R86). -/
def MAP_CAPSTORMSIZE.BYTES : Fld := ⟨0x70220, 0x0, 0, 48, .ro, 0, [], .asWritten, .unlocked⟩
/-- MAP_CAPSTORMFREE, at MAP + 0x228 (R86). -/
def MAP_CAPSTORMFREE.BYTES : Fld := ⟨0x70228, 0x0, 0, 48, .ro, 0, [], .asWritten, .unlocked⟩
/-- MAP_CAPMOVE, at MAP + 0x230 (R86). -/
def MAP_CAPMOVE.BYTES : Fld := ⟨0x70230, 0x0, 0, 48, .ro, 0, [], .asWritten, .unlocked⟩
/-- MAP_ERRCNT, at MAP + 0x280 (R87). -/
def MAP_ERRCNT.REPAIRED : Fld := ⟨0x70280, 0x0, 0, 16, .ros, 0, [], .asWritten, .unlocked⟩
def MAP_ERRCNT.LOST : Fld := ⟨0x70280, 0x0, 16, 16, .ros, 0, [], .asWritten, .unlocked⟩
def MAP_ERRCNT.INCOH : Fld := ⟨0x70280, 0x0, 32, 16, .ros, 0, [], .asWritten, .unlocked⟩
def MAP_ERRCNT.DROPS : Fld := ⟨0x70280, 0x0, 48, 16, .ros, 0, [], .asWritten, .unlocked⟩
/-- MAP_ERRCNT2, at MAP + 0x288 (R87). -/
def MAP_ERRCNT2.LOSTWR : Fld := ⟨0x70288, 0x0, 0, 32, .ros, 0, [], .asWritten, .unlocked⟩
/-- MAP_FLOG, at MAP + 0x300 (R88). -/
def MAP_FLOG.TS : Fld := ⟨0x70300, 0x10, 0, 64, .ro, 0, [], .asWritten, .unlocked⟩
def MAP_FLOG.DPN : Fld := ⟨0x70300, 0x10, 64, 33, .ro, 0, [], .asWritten, .unlocked⟩
def MAP_FLOG.LINE : Fld := ⟨0x70300, 0x10, 97, 6, .ro, 0, [], .asWritten, .unlocked⟩
def MAP_FLOG.KIND : Fld := ⟨0x70300, 0x10, 103, 3, .ro, 0, [], .asWritten, .unlocked⟩
def MAP_FLOG.COPY : Fld := ⟨0x70300, 0x10, 106, 1, .ro, 0, [], .asWritten, .unlocked⟩
def MAP_FLOG.VALID : Fld := ⟨0x70300, 0x10, 127, 1, .rw1c, 0, [], .asWritten, .unlocked⟩
/-- CIR_PINCFG, at CIR + 0x000 (R117). -/
def CIR_PINCFG.LIMIT : Fld := ⟨0x80000, 0x0, 0, 20, .rw, 0x60000, [], .range 0 786432, .unlocked⟩
def CIR_PINCFG.DRIFTMAX : Fld := ⟨0x80000, 0x0, 20, 20, .rw, 0x20000, [], .asWritten, .unlocked⟩
/-- CIR_SLICESEL, at CIR + 0x008 (R117). -/
def CIR_SLICESEL.SLICE : Fld := ⟨0x80008, bank, 0, 12, .rw, 0, [], .asWritten, .unlocked⟩
/-- CIR_PINQUOTA, at CIR + 0x010 (R117). -/
def CIR_PINQUOTA.QUOTA : Fld := ⟨0x80010, bank, 0, 20, .rw, 0, [], .range 0 786432, .unlocked⟩
def CIR_PINQUOTA.USED : Fld := ⟨0x80010, bank, 32, 20, .ro, 0, [], .asWritten, .unlocked⟩
/-- CIR_PINTOTAL, at CIR + 0x018 (R118). -/
def CIR_PINTOTAL.PINNED : Fld := ⟨0x80018, 0x0, 0, 20, .ro, 0, [], .asWritten, .unlocked⟩
def CIR_PINTOTAL.DRIFT : Fld := ⟨0x80018, 0x0, 32, 20, .ro, 0, [], .asWritten, .unlocked⟩
/-- CIR_HOLDCFG, at CIR + 0x020 (R118). -/
def CIR_HOLDCFG.LIMIT : Fld := ⟨0x80020, 0x0, 0, 19, .rw, 0x20000, [], .range 0 262144, .unlocked⟩
def CIR_HOLDCFG.HELD : Fld := ⟨0x80020, 0x0, 32, 19, .ro, 0, [], .asWritten, .unlocked⟩
/-- CIR_FLUSH, at CIR + 0x028 (R119). -/
def CIR_FLUSH.START : Fld := ⟨0x80028, 0x0, 0, 1, .rw1s, 0, [], .asWritten, .unlocked⟩
def CIR_FLUSH.INVAL : Fld := ⟨0x80028, 0x0, 1, 1, .rw, 0, [], .asWritten, .unlocked⟩
def CIR_FLUSH.SCOPE : Fld := ⟨0x80028, 0x0, 2, 1, .rw, 0, [], .asWritten, .unlocked⟩
def CIR_FLUSH.CLAIM : Fld := ⟨0x80028, 0x0, 16, 13, .rw, 0, [], .asWritten, .unlocked⟩
def CIR_FLUSH.LEFTHELD : Fld := ⟨0x80028, 0x0, 32, 21, .ro, 0, [], .asWritten, .unlocked⟩
/-- CIR_SWEEP, at CIR + 0x030 (R120). -/
def CIR_SWEEP.START : Fld := ⟨0x80030, 0x0, 0, 1, .rw1s, 0, [], .asWritten, .unlocked⟩
def CIR_SWEEP.CAUSE : Fld := ⟨0x80030, 0x0, 1, 1, .ro, 0, [], .asWritten, .unlocked⟩
def CIR_SWEEP.CORR : Fld := ⟨0x80030, 0x0, 16, 16, .ro, 0, [], .asWritten, .unlocked⟩
def CIR_SWEEP.UNCORR : Fld := ⟨0x80030, 0x0, 32, 16, .ro, 0, [], .asWritten, .unlocked⟩
/-- CIR_ERRCNT, at CIR + 0x040 (R121). -/
def CIR_ERRCNT.CE : Fld := ⟨0x80040, 0x0, 0, 16, .ros, 0, [], .asWritten, .unlocked⟩
def CIR_ERRCNT.UE : Fld := ⟨0x80040, 0x0, 16, 16, .ros, 0, [], .asWritten, .unlocked⟩
def CIR_ERRCNT.SALV : Fld := ⟨0x80040, 0x0, 32, 16, .ros, 0, [], .asWritten, .unlocked⟩
def CIR_ERRCNT.SALVLOST : Fld := ⟨0x80040, 0x0, 48, 16, .ros, 0, [], .asWritten, .unlocked⟩
/-- CIR_ERRCNT2, at CIR + 0x048 (R121). -/
def CIR_ERRCNT2.HOLDDROP : Fld := ⟨0x80048, 0x0, 0, 16, .ros, 0, [], .asWritten, .unlocked⟩
def CIR_ERRCNT2.TAGCE : Fld := ⟨0x80048, 0x0, 16, 16, .ros, 0, [], .asWritten, .unlocked⟩
def CIR_ERRCNT2.RETIRED : Fld := ⟨0x80048, 0x0, 32, 16, .ro, 0, [], .asWritten, .unlocked⟩
/-- CIR_SALVSTAT, at CIR + 0x050 (R122). -/
def CIR_SALVSTAT.VALID : Fld := ⟨0x80050, 0x0, 0, 64, .ro, 0, [], .asWritten, .unlocked⟩
/-- CIR_FUSESTAT, at CIR + 0x058 (R122). -/
def CIR_FUSESTAT.ROWS_USED : Fld := ⟨0x80058, 0x0, 0, 12, .ro, 0, [], .asWritten, .unlocked⟩
def CIR_FUSESTAT.ROWS_TOTAL : Fld := ⟨0x80058, 0x0, 16, 12, .ro, 512, [], .asWritten, .unlocked⟩
def CIR_FUSESTAT.COLS_USED : Fld := ⟨0x80058, 0x0, 32, 9, .ro, 0, [], .asWritten, .unlocked⟩
def CIR_FUSESTAT.COLS_TOTAL : Fld := ⟨0x80058, 0x0, 48, 9, .ro, 256, [], .asWritten, .unlocked⟩
/-- PLC_EPOCH, at PLC + 0x000 (R149). -/
def PLC_EPOCH.LEN : Fld := ⟨0x90000, 0x0, 0, 17, .rw, 1000, [], .range 100 100000, .unlocked⟩
def PLC_EPOCH.NUM : Fld := ⟨0x90000, 0x0, 32, 32, .ro, 0, [], .asWritten, .unlocked⟩
/-- PLC_HEATCFG, at PLC + 0x008 (R149). -/
def PLC_HEATCFG.RD : Fld := ⟨0x90008, 0x0, 0, 4, .rw, 1, [], .asWritten, .unlocked⟩
def PLC_HEATCFG.WR : Fld := ⟨0x90008, 0x0, 4, 4, .rw, 1, [], .asWritten, .unlocked⟩
def PLC_HEATCFG.NFETCH : Fld := ⟨0x90008, 0x0, 8, 4, .rw, 4, [], .asWritten, .unlocked⟩
def PLC_HEATCFG.MIRWR : Fld := ⟨0x90008, 0x0, 12, 4, .rw, 0, [], .asWritten, .unlocked⟩
/-- PLC_THRESH, at PLC + 0x010 (R150). -/
def PLC_THRESH.PROMOTE_T : Fld := ⟨0x90010, 0x0, 0, 8, .rw, 32, [], .asWritten, .unlocked⟩
def PLC_THRESH.DEMOTE_T : Fld := ⟨0x90010, 0x0, 8, 8, .rw, 0, [], .asWritten, .unlocked⟩
def PLC_THRESH.PIN_T : Fld := ⟨0x90010, 0x0, 16, 8, .rw, 192, [], .asWritten, .unlocked⟩
def PLC_THRESH.AMP_MAX : Fld := ⟨0x90010, 0x0, 32, 16, .rw, 2048, [], .range 256 4096, .unlocked⟩
/-- PLC_BUDGET, at PLC + 0x018 (R150). -/
def PLC_BUDGET.PROMOTE_MAX : Fld := ⟨0x90018, 0x0, 0, 16, .rw, 8192, [], .asWritten, .unlocked⟩
def PLC_BUDGET.DEMOTE_MAX : Fld := ⟨0x90018, 0x0, 16, 16, .rw, 8192, [], .asWritten, .unlocked⟩
def PLC_BUDGET.COMPACT_MAX : Fld := ⟨0x90018, 0x0, 32, 16, .rw, 2048, [], .asWritten, .unlocked⟩
/-- PLC_MOVECFG, at PLC + 0x020 (R151). -/
def PLC_MOVECFG.MAXPASS : Fld := ⟨0x90020, 0x0, 0, 4, .rw, 4, [], .range 1 15, .unlocked⟩
def PLC_MOVECFG.SWITCHMAX : Fld := ⟨0x90020, 0x0, 4, 5, .rw, 4, [], .range 0 16, .unlocked⟩
def PLC_MOVECFG.SWITCHTRY : Fld := ⟨0x90020, 0x0, 9, 3, .rw, 3, [], .range 1 7, .unlocked⟩
def PLC_MOVECFG.MINGAIN : Fld := ⟨0x90020, 0x0, 12, 7, .rw, 56, [], .range 1 64, .unlocked⟩
def PLC_MOVECFG.PROMOTE_EN : Fld := ⟨0x90020, 0x0, 24, 1, .rw, 1, [], .asWritten, .unlocked⟩
def PLC_MOVECFG.DEMOTE_EN : Fld := ⟨0x90020, 0x0, 25, 1, .rw, 1, [], .asWritten, .unlocked⟩
def PLC_MOVECFG.COMPACT_EN : Fld := ⟨0x90020, 0x0, 26, 1, .rw, 1, [], .asWritten, .unlocked⟩
def PLC_MOVECFG.PIN_EN : Fld := ⟨0x90020, 0x0, 27, 1, .rw, 1, [], .asWritten, .unlocked⟩
/-- PLC_SCANCFG, at PLC + 0x028 (R151). -/
def PLC_SCANCFG.RATE : Fld := ⟨0x90028, 0x0, 0, 8, .rw, 32, [], .range 1 255, .unlocked⟩
def PLC_SCANCFG.FRAG_T : Fld := ⟨0x90028, 0x0, 8, 7, .rw, 25, [], .range 5 90, .unlocked⟩
/-- PLC_APPLY, at PLC + 0x040 (R152). -/
def PLC_APPLY.APPLY : Fld := ⟨0x90040, 0x0, 0, 1, .rw1s, 0, [], .asWritten, .unlocked⟩
def PLC_APPLY.CHECK : Fld := ⟨0x90040, 0x0, 8, 8, .ro, 0, [], .asWritten, .unlocked⟩
/-- PLC_CLAIMSEL, at PLC + 0x048 (R152). -/
def PLC_CLAIMSEL.CLAIM : Fld := ⟨0x90048, bank, 0, 13, .rw, 0, [], .asWritten, .unlocked⟩
/-- PLC_CLAIMPOL, at PLC + 0x050 (R152). -/
def PLC_CLAIMPOL.MODE : Fld := ⟨0x90050, bank, 0, 2, .rw, 0, [], .replace 3 0, .unlocked⟩
/-- PLC_STATUS, at PLC + 0x058 (R153). -/
def PLC_STATUS.MOVES : Fld := ⟨0x90058, 0x0, 0, 13, .ro, 0, [], .asWritten, .unlocked⟩
def PLC_STATUS.PAUSED : Fld := ⟨0x90058, 0x0, 16, 1, .ro, 0, [], .asWritten, .unlocked⟩
def PLC_STATUS.FALLBACK : Fld := ⟨0x90058, 0x0, 17, 1, .ro, 0, [], .asWritten, .unlocked⟩
def PLC_STATUS.SCANNING : Fld := ⟨0x90058, 0x0, 18, 1, .ro, 0, [], .asWritten, .unlocked⟩
def PLC_STATUS.SCANPASS : Fld := ⟨0x90058, 0x0, 32, 32, .ro, 0, [], .asWritten, .unlocked⟩
/-- PLC_EPOCHREP0, at PLC + 0x060 (R154). -/
def PLC_EPOCHREP0.PROMOTED : Fld := ⟨0x90060, 0x0, 0, 16, .ro, 0, [], .asWritten, .unlocked⟩
def PLC_EPOCHREP0.DEMOTED : Fld := ⟨0x90060, 0x0, 16, 16, .ro, 0, [], .asWritten, .unlocked⟩
def PLC_EPOCHREP0.COMPACTED : Fld := ⟨0x90060, 0x0, 32, 16, .ro, 0, [], .asWritten, .unlocked⟩
def PLC_EPOCHREP0.ABORTED : Fld := ⟨0x90060, 0x0, 48, 16, .ro, 0, [], .asWritten, .unlocked⟩
/-- PLC_EPOCHREP1, at PLC + 0x068 (R154). -/
def PLC_EPOCHREP1.DEFERRED : Fld := ⟨0x90068, 0x0, 0, 16, .ro, 0, [], .asWritten, .unlocked⟩
def PLC_EPOCHREP1.INCOMP : Fld := ⟨0x90068, 0x0, 16, 16, .ro, 0, [], .asWritten, .unlocked⟩
def PLC_EPOCHREP1.SWITCH_MAX : Fld := ⟨0x90068, 0x0, 32, 16, .ro, 0, [], .asWritten, .unlocked⟩
def PLC_EPOCHREP1.AMP : Fld := ⟨0x90068, 0x0, 48, 16, .ro, 256, [], .asWritten, .unlocked⟩
/-- PLC_EPOCHREP2, at PLC + 0x070 (R154). -/
def PLC_EPOCHREP2.EPOCH : Fld := ⟨0x90070, 0x0, 0, 32, .ro, 0, [], .asWritten, .unlocked⟩
def PLC_EPOCHREP2.CARRIED : Fld := ⟨0x90070, 0x0, 32, 16, .ro, 0, [], .asWritten, .unlocked⟩
/-- PLC_ERRCNT, at PLC + 0x080 (R155). -/
def PLC_ERRCNT.MOVEUE : Fld := ⟨0x90080, 0x0, 0, 16, .ros, 0, [], .asWritten, .unlocked⟩
def PLC_ERRCNT.SWCANCEL : Fld := ⟨0x90080, 0x0, 16, 16, .ros, 0, [], .asWritten, .unlocked⟩
def PLC_ERRCNT.QOVF : Fld := ⟨0x90080, 0x0, 32, 16, .ros, 0, [], .asWritten, .unlocked⟩
def PLC_ERRCNT.HANG : Fld := ⟨0x90080, 0x0, 48, 16, .ros, 0, [], .asWritten, .unlocked⟩
/-- NMB_PIPECFG, at NMB + 0x000 (R183). -/
def NMB_PIPECFG.HOSTRES : Fld := ⟨0xA0000, 0x0, 0, 4, .rw, 4, [], .range 0 12, .unlocked⟩
/-- NMB_PIPESTAT, at NMB + 0x008 (R183). -/
def NMB_PIPESTAT.CMP : Fld := ⟨0xA0008, 0x0, 0, 12, .ro, 4095, [], .asWritten, .unlocked⟩
def NMB_PIPESTAT.DCMP : Fld := ⟨0xA0008, 0x0, 32, 12, .ro, 4095, [], .asWritten, .unlocked⟩
/-- NMB_HEAPCFG, at NMB + 0x010 (R183). -/
def NMB_HEAPCFG.URGENT : Fld := ⟨0xA0010, 0x0, 0, 3, .rw, 2, [], .range 1 4, .unlocked⟩
/-- NMB_HEAPSEG, at NMB + 0x018 (R184). -/
def NMB_HEAPSEG.SEGS : Fld := ⟨0xA0018, 0x0, 0, 23, .ro, 0, [], .asWritten, .unlocked⟩
def NMB_HEAPSEG.OPEN : Fld := ⟨0xA0018, 0x0, 32, 6, .ro, 0, [], .asWritten, .unlocked⟩
/-- NMB_HEAPLIVE, at NMB + 0x020 (R184). -/
def NMB_HEAPLIVE.GRANULES : Fld := ⟨0xA0020, 0x0, 0, 39, .ro, 0, [], .asWritten, .unlocked⟩
/-- NMB_HEAPRESIDUE, at NMB + 0x028 (R184). -/
def NMB_HEAPRESIDUE.GRANULES : Fld := ⟨0xA0028, 0x0, 0, 39, .ro, 0, [], .asWritten, .unlocked⟩
/-- NMB_ERRCNT, at NMB + 0x040 (R185). -/
def NMB_ERRCNT.BAD : Fld := ⟨0xA0040, 0x0, 0, 16, .ros, 0, [], .asWritten, .unlocked⟩
def NMB_ERRCNT.RETRY : Fld := ⟨0xA0040, 0x0, 16, 16, .ros, 0, [], .asWritten, .unlocked⟩
def NMB_ERRCNT.ENCMIS : Fld := ⟨0xA0040, 0x0, 32, 16, .ros, 0, [], .asWritten, .unlocked⟩
def NMB_ERRCNT.HEAPWAIT : Fld := ⟨0xA0040, 0x0, 48, 16, .ros, 0, [], .asWritten, .unlocked⟩
/-- NMB_ERRLOG, at NMB + 0x050 (R186). -/
def NMB_ERRLOG.TS : Fld := ⟨0xA0050, 0x0, 0, 64, .ro, 0, [], .asWritten, .unlocked⟩
def NMB_ERRLOG.DPN : Fld := ⟨0xA0050, 0x0, 64, 33, .ro, 0, [], .asWritten, .unlocked⟩
def NMB_ERRLOG.BLOCK : Fld := ⟨0xA0050, 0x0, 97, 2, .ro, 0, [], .asWritten, .unlocked⟩
def NMB_ERRLOG.KIND : Fld := ⟨0xA0050, 0x0, 99, 4, .ro, 0, [], .asWritten, .unlocked⟩
def NMB_ERRLOG.RETRYOK : Fld := ⟨0xA0050, 0x0, 103, 1, .ro, 0, [], .asWritten, .unlocked⟩
def NMB_ERRLOG.COUNT : Fld := ⟨0xA0050, 0x0, 104, 5, .ro, 0, [], .asWritten, .unlocked⟩
def NMB_ERRLOG.VALID : Fld := ⟨0xA0050, 0x0, 127, 1, .rw1c, 0, [], .asWritten, .unlocked⟩
/-- SNP_SLOTSEL, at SNP + 0x000 (R214). -/
def SNP_SLOTSEL.SLOT : Fld := ⟨0xB0000, bank, 0, 8, .rw, 0, [], .asWritten, .unlocked⟩
/-- SNP_ARM, at SNP + 0x008 (R214). -/
def SNP_ARM.ARM : Fld := ⟨0xB0008, bank, 0, 1, .rw, 0, [], .asWritten, .unlocked⟩
def SNP_ARM.TARGET : Fld := ⟨0xB0008, bank, 1, 2, .rwl, 0, [], .asWritten, .slotArmed⟩
def SNP_ARM.CLAIM : Fld := ⟨0xB0008, bank, 16, 13, .rwl, 0, [], .asWritten, .slotArmed⟩
/-- SNP_STATUS, at SNP + 0x018 (R216). -/
def SNP_STATUS.STATE : Fld := ⟨0xB0018, bank, 0, 3, .ro, 0, [], .asWritten, .unlocked⟩
def SNP_STATUS.PAUSED : Fld := ⟨0xB0018, bank, 3, 1, .ro, 0, [], .asWritten, .unlocked⟩
def SNP_STATUS.ABORTCAUSE : Fld := ⟨0xB0018, bank, 4, 4, .ro, 0, [], .asWritten, .unlocked⟩
def SNP_STATUS.CHECK : Fld := ⟨0xB0018, bank, 8, 8, .ro, 0, [], .asWritten, .unlocked⟩
def SNP_STATUS.PEER : Fld := ⟨0xB0018, bank, 16, 8, .ro, 0, [], .asWritten, .unlocked⟩
def SNP_STATUS.CURSOR : Fld := ⟨0xB0018, bank, 28, 36, .ro, 0, [], .asWritten, .unlocked⟩
/-- SNP_CUTTS, at SNP + 0x020 (R216). -/
def SNP_CUTTS.CUTTS : Fld := ⟨0xB0020, bank, 0, 64, .ro, 0, [], .asWritten, .unlocked⟩
/-- SNP_USE, at SNP + 0x028 (R217). -/
def SNP_USE.USED : Fld := ⟨0xB0028, bank, 0, 23, .ro, 0, [], .asWritten, .unlocked⟩
def SNP_USE.PEAK : Fld := ⟨0xB0028, bank, 32, 23, .ro, 0, [], .asWritten, .unlocked⟩
/-- SNP_COUNT, at SNP + 0x030 (R217). -/
def SNP_COUNT.CAPTURES : Fld := ⟨0xB0030, bank, 0, 32, .ro, 0, [], .asWritten, .unlocked⟩
def SNP_COUNT.HOLDMAX : Fld := ⟨0xB0030, bank, 32, 16, .ro, 0, [], .asWritten, .unlocked⟩
/-- SNP_BYTES, at SNP + 0x038 (R218). -/
def SNP_BYTES.BYTES : Fld := ⟨0xB0038, bank, 0, 48, .ro, 0, [], .asWritten, .unlocked⟩
/-- SNP_STREAMID, at SNP + 0x040 (R218). -/
def SNP_STREAMID.STREAMID : Fld := ⟨0xB0040, bank, 0, 64, .ro, 0, [], .asWritten, .unlocked⟩
/-- SNP_RESERVE, at SNP + 0x010 (R215). -/
def SNP_RESERVE.SIZE : Fld := ⟨0xB0010, bank, 0, 23, .rwl, 128, [], .range 0 4194304, .slotArmed⟩
def SNP_RESERVE.STAGEMAX : Fld := ⟨0xB0010, bank, 32, 23, .rwl, 0, [], .asWritten, .slotArmed⟩
/-- SNP_ERRCNT, at SNP + 0x100 (R219). -/
def SNP_ERRCNT.ABORTS : Fld := ⟨0xB0100, 0x0, 0, 16, .ros, 0, [], .asWritten, .unlocked⟩
def SNP_ERRCNT.CAPPOISON : Fld := ⟨0xB0100, 0x0, 16, 16, .ros, 0, [], .asWritten, .unlocked⟩
def SNP_ERRCNT.IMPBAD : Fld := ⟨0xB0100, 0x0, 32, 16, .ros, 0, [], .asWritten, .unlocked⟩
def SNP_ERRCNT.DMAERR : Fld := ⟨0xB0100, 0x0, 48, 16, .ros, 0, [], .asWritten, .unlocked⟩
/-- DMC_CFG, at DMC + 0x000 (R250). -/
def DMC_CFG.SPEED : Fld := ⟨0xC0000, 0x0, 0, 3, .rwl, 0, [], .asWritten, .channelCommit⟩
def DMC_CFG.EXCLUDE : Fld := ⟨0xC0000, 0x0, 16, 16, .rwl, 0, [], .asWritten, .channelCommit⟩
/-- DMC_COMMIT, at DMC + 0x008 (R250). -/
def DMC_COMMIT.COMMIT : Fld := ⟨0xC0008, 0x0, 0, 1, .rw, 0, [], .asWritten, .unlocked⟩
def DMC_COMMIT.CHECK : Fld := ⟨0xC0008, 0x0, 8, 8, .ro, 0, [], .asWritten, .unlocked⟩
/-- DMC_METACFG, at DMC + 0x010 (R251). -/
def DMC_METACFG.PRIMARY : Fld := ⟨0xC0010, 0x0, 0, 4, .rwl, 0, [], .asWritten, .channelCommit⟩
def DMC_METACFG.SECONDARY : Fld := ⟨0xC0010, 0x0, 4, 4, .rwl, 1, [], .asWritten, .channelCommit⟩
/-- DMC_SCHED, at DMC + 0x018 (R251). -/
def DMC_SCHED.WQ_LOW : Fld := ⟨0xC0018, 0x0, 0, 7, .rw, 32, [], .asWritten, .unlocked⟩
def DMC_SCHED.WQ_HIGH : Fld := ⟨0xC0018, 0x0, 8, 7, .rw, 96, [], .asWritten, .unlocked⟩
def DMC_SCHED.WQ_PANIC : Fld := ⟨0xC0018, 0x0, 16, 7, .rw, 120, [], .asWritten, .unlocked⟩
def DMC_SCHED.PANIC_WAIT : Fld := ⟨0xC0018, 0x0, 32, 10, .rw, 50, [], .range 10 1000, .unlocked⟩
def DMC_SCHED.AGEMAX : Fld := ⟨0xC0018, 0x0, 48, 10, .rw, 200, [], .range 10 1000, .unlocked⟩
/-- DMC_PWR, at DMC + 0x020 (R252). -/
def DMC_PWR.PDTIMER : Fld := ⟨0xC0020, 0x0, 0, 10, .rw, 10, [], .range 0 1000, .unlocked⟩
/-- DMC_THERM, at DMC + 0x028 (R252). -/
def DMC_THERM.THROTTLE : Fld := ⟨0xC0028, 0x0, 0, 8, .rw, 95, [], .range 80 105, .unlocked⟩
def DMC_THERM.CRIT : Fld := ⟨0xC0028, 0x0, 8, 8, .rw, 105, [], .range 95 115, .unlocked⟩
/-- DMC_SPARECFG, at DMC + 0x030 (R252). -/
def DMC_SPARECFG.RATE : Fld := ⟨0xC0030, 0x0, 0, 8, .rw, 8, [], .range 1 64, .unlocked⟩
/-- DMC_INITSTAT, at DMC + 0x038 (R252). -/
def DMC_INITSTAT.DONE : Fld := ⟨0xC0038, 0x0, 0, 1, .ro, 0, [], .asWritten, .unlocked⟩
def DMC_INITSTAT.PCT : Fld := ⟨0xC0038, 0x0, 16, 7, .ro, 0, [], .asWritten, .unlocked⟩
/-- DMC_CHCFG, at DMC + 0x100 (R253). -/
def DMC_CHCFG.MODE : Fld := ⟨0xC0100, 0x40, 0, 1, .rwl, 0, [], .asWritten, .channelCommit⟩
def DMC_CHCFG.AORDER : Fld := ⟨0xC0100, 0x40, 1, 2, .rwl, 1, [], .asWritten, .channelCommit⟩
def DMC_CHCFG.REFMODE : Fld := ⟨0xC0100, 0x40, 3, 2, .rwl, 2, [], .replace 3 2, .channelCommit⟩
/-- DMC_CHSTAT, at DMC + 0x108 (R254). -/
def DMC_CHSTAT.POP : Fld := ⟨0xC0108, 0x40, 0, 1, .ro, 0, [], .asWritten, .unlocked⟩
def DMC_CHSTAT.TRAINED : Fld := ⟨0xC0108, 0x40, 1, 1, .ro, 0, [], .asWritten, .unlocked⟩
def DMC_CHSTAT.FROZEN : Fld := ⟨0xC0108, 0x40, 2, 1, .ro, 0, [], .asWritten, .unlocked⟩
def DMC_CHSTAT.FRZCAUSE : Fld := ⟨0xC0108, 0x40, 3, 3, .ro, 0, [], .asWritten, .unlocked⟩
def DMC_CHSTAT.KEPT : Fld := ⟨0xC0108, 0x40, 6, 1, .ro, 0, [], .asWritten, .unlocked⟩
def DMC_CHSTAT.SPARESTAT : Fld := ⟨0xC0108, 0x40, 7, 2, .ro, 0, [], .asWritten, .unlocked⟩
def DMC_CHSTAT.RETIRED : Fld := ⟨0xC0108, 0x40, 9, 3, .ro, 0, [], .asWritten, .unlocked⟩
def DMC_CHSTAT.RANKS : Fld := ⟨0xC0108, 0x40, 12, 4, .ro, 0, [], .asWritten, .unlocked⟩
def DMC_CHSTAT.THROTTLED : Fld := ⟨0xC0108, 0x40, 16, 1, .ro, 0, [], .asWritten, .unlocked⟩
def DMC_CHSTAT.STALEFULL : Fld := ⟨0xC0108, 0x40, 17, 1, .ro, 0, [], .asWritten, .unlocked⟩
def DMC_CHSTAT.RELEASING : Fld := ⟨0xC0108, 0x40, 18, 1, .ro, 0, [], .asWritten, .unlocked⟩
def DMC_CHSTAT.RELREFUSED : Fld := ⟨0xC0108, 0x40, 19, 1, .ro, 0, [], .asWritten, .unlocked⟩
def DMC_CHSTAT.SPARECUR : Fld := ⟨0xC0108, 0x40, 32, 32, .ro, 0, [], .asWritten, .unlocked⟩
/-- DMC_FRZCTL, at DMC + 0x110 (R253). -/
def DMC_FRZCTL.RELEASE : Fld := ⟨0xC0110, 0x40, 0, 1, .rw1s, 0, [], .asWritten, .unlocked⟩
/-- DMC_SPARECTL, at DMC + 0x118 (R253). -/
def DMC_SPARECTL.START : Fld := ⟨0xC0118, 0x40, 0, 1, .rw1s, 0, [], .asWritten, .unlocked⟩
def DMC_SPARECTL.RANK : Fld := ⟨0xC0118, 0x40, 1, 3, .rw, 0, [], .asWritten, .unlocked⟩
/-- DMC_TEMP, at DMC + 0x120 (R255). -/
def DMC_TEMP.DIMM0 : Fld := ⟨0xC0120, 0x40, 0, 8, .ro, 0, [], .asWritten, .unlocked⟩
def DMC_TEMP.DIMM1 : Fld := ⟨0xC0120, 0x40, 8, 8, .ro, 0, [], .asWritten, .unlocked⟩
/-- DMC_TRAIN, at DMC + 0x128 (R255). -/
def DMC_TRAIN.PHASE : Fld := ⟨0xC0128, 0x40, 0, 4, .ro, 0, [], .asWritten, .unlocked⟩
def DMC_TRAIN.FAIL : Fld := ⟨0xC0128, 0x40, 4, 1, .ro, 0, [], .asWritten, .unlocked⟩
def DMC_TRAIN.FAST : Fld := ⟨0xC0128, 0x40, 5, 1, .ro, 0, [], .asWritten, .unlocked⟩
def DMC_TRAIN.FAILRANK : Fld := ⟨0xC0128, 0x40, 8, 3, .ro, 0, [], .asWritten, .unlocked⟩
def DMC_TRAIN.DURATION : Fld := ⟨0xC0128, 0x40, 16, 16, .ro, 0, [], .asWritten, .unlocked⟩
/-- DMC_ERRCNT, at DMC + 0x130 (R255). -/
def DMC_ERRCNT.UE : Fld := ⟨0xC0130, 0x40, 0, 16, .ros, 0, [], .asWritten, .unlocked⟩
def DMC_ERRCNT.CAPAR : Fld := ⟨0xC0130, 0x40, 16, 16, .ros, 0, [], .asWritten, .unlocked⟩
def DMC_ERRCNT.FRZPOISON : Fld := ⟨0xC0130, 0x40, 32, 16, .ros, 0, [], .asWritten, .unlocked⟩
def DMC_ERRCNT.STALE : Fld := ⟨0xC0130, 0x40, 48, 16, .ros, 0, [], .asWritten, .unlocked⟩
/-- MED_CECFG, at MED + 0x000 (R280). -/
def MED_CECFG.ROWTHRESH : Fld := ⟨0xD0000, 0x0, 0, 8, .rw, 16, [], .range 1 255, .unlocked⟩
def MED_CECFG.DEVROWS : Fld := ⟨0xD0000, 0x0, 8, 4, .rw, 4, [], .range 2 15, .unlocked⟩
def MED_CECFG.ERASE_EN : Fld := ⟨0xD0000, 0x0, 12, 1, .rw, 1, [], .asWritten, .unlocked⟩
/-- MED_CELOGSEL, at MED + 0x008 (R280). -/
def MED_CELOGSEL.INDEX : Fld := ⟨0xD0008, bank, 0, 5, .rw, 0, [], .asWritten, .unlocked⟩
/-- MED_CELOG0, at MED + 0x010 (R281). -/
def MED_CELOG0.FIRST_TS : Fld := ⟨0xD0010, bank, 0, 64, .ro, 0, [], .asWritten, .unlocked⟩
/-- MED_CELOG1, at MED + 0x018 (R281). -/
def MED_CELOG1.LAST_TS : Fld := ⟨0xD0018, bank, 0, 64, .ro, 0, [], .asWritten, .unlocked⟩
/-- MED_CELOG2, at MED + 0x020 (R281). -/
def MED_CELOG2.CHANNEL : Fld := ⟨0xD0020, bank, 0, 4, .ro, 0, [], .asWritten, .unlocked⟩
def MED_CELOG2.SUBCH : Fld := ⟨0xD0020, bank, 4, 1, .ro, 0, [], .asWritten, .unlocked⟩
def MED_CELOG2.RANK : Fld := ⟨0xD0020, bank, 5, 3, .ro, 0, [], .asWritten, .unlocked⟩
def MED_CELOG2.BG : Fld := ⟨0xD0020, bank, 8, 3, .ro, 0, [], .asWritten, .unlocked⟩
def MED_CELOG2.BANK : Fld := ⟨0xD0020, bank, 11, 2, .ro, 0, [], .asWritten, .unlocked⟩
def MED_CELOG2.ROW : Fld := ⟨0xD0020, bank, 13, 18, .ro, 0, [], .asWritten, .unlocked⟩
def MED_CELOG2.DEVICE : Fld := ⟨0xD0020, bank, 31, 4, .ro, 0, [], .asWritten, .unlocked⟩
def MED_CELOG2.COUNT : Fld := ⟨0xD0020, bank, 35, 16, .ro, 0, [], .asWritten, .unlocked⟩
def MED_CELOG2.ROWFLAG : Fld := ⟨0xD0020, bank, 51, 1, .ro, 0, [], .asWritten, .unlocked⟩
def MED_CELOG2.VALID : Fld := ⟨0xD0020, bank, 63, 1, .rw1c, 0, [], .asWritten, .unlocked⟩
/-- MED_CESTAT, at MED + 0x028 (R281). -/
def MED_CESTAT.VALID : Fld := ⟨0xD0028, 0x0, 0, 32, .ro, 0, [], .asWritten, .unlocked⟩
def MED_CESTAT.LOST : Fld := ⟨0xD0028, 0x0, 32, 16, .ros, 0, [], .asWritten, .unlocked⟩
/-- MED_SCRUBCFG, at MED + 0x040 (R282). -/
def MED_SCRUBCFG.RATE : Fld := ⟨0xD0040, 0x0, 0, 12, .rw, 32, [], .range 1 4095, .unlocked⟩
/-- MED_SCRUBCTL, at MED + 0x048 (R282). -/
def MED_SCRUBCTL.START : Fld := ⟨0xD0048, 0x0, 0, 1, .rw1s, 0, [], .asWritten, .unlocked⟩
def MED_SCRUBCTL.STOP : Fld := ⟨0xD0048, 0x0, 1, 1, .rw1s, 0, [], .asWritten, .unlocked⟩
def MED_SCRUBCTL.SCOPE : Fld := ⟨0xD0048, 0x0, 2, 1, .rw, 0, [], .asWritten, .unlocked⟩
def MED_SCRUBCTL.VERIFY : Fld := ⟨0xD0048, 0x0, 3, 1, .rw, 0, [], .asWritten, .unlocked⟩
def MED_SCRUBCTL.CHANNEL : Fld := ⟨0xD0048, 0x0, 4, 4, .rw, 0, [], .asWritten, .unlocked⟩
/-- MED_SCRUBBASE, at MED + 0x050 (R283). -/
def MED_SCRUBBASE.ADDR : Fld := ⟨0xD0050, 0x0, 12, 33, .rw, 0, [], .asWritten, .unlocked⟩
/-- MED_SCRUBLEN, at MED + 0x058 (R283). -/
def MED_SCRUBLEN.LEN : Fld := ⟨0xD0058, 0x0, 12, 33, .rw, 0, [], .asWritten, .unlocked⟩
/-- MED_SCRUBCUR, at MED + 0x060 (R283). -/
def MED_SCRUBCUR.CURSOR : Fld := ⟨0xD0060, 0x0, 12, 33, .ro, 0, [], .asWritten, .unlocked⟩
/-- MED_SCRUBSUM, at MED + 0x080 (R283). -/
def MED_SCRUBSUM.BYTES : Fld := ⟨0xD0080, 0x8, 0, 64, .ro, 0, [], .asWritten, .unlocked⟩
/-- MED_ERASE, at MED + 0x100 (R284). -/
def MED_ERASE.MARKS : Fld := ⟨0xD0100, 0x8, 0, 64, .rw, 0xFFFFFFFFFFFFFFFF, [], .asWritten, .unlocked⟩
/-- MED_POISONSTAT, at MED + 0x180 (R285). -/
def MED_POISONSTAT.ENTRIES : Fld := ⟨0xD0180, 0x0, 0, 21, .ro, 0, [], .asWritten, .unlocked⟩
def MED_POISONSTAT.FULL : Fld := ⟨0xD0180, 0x0, 21, 1, .ro, 0, [], .asWritten, .unlocked⟩
def MED_POISONSTAT.OVERFLOW : Fld := ⟨0xD0180, 0x0, 22, 1, .ro, 0, [], .asWritten, .unlocked⟩
def MED_POISONSTAT.COARSE : Fld := ⟨0xD0180, 0x0, 32, 16, .ros, 0, [], .asWritten, .unlocked⟩
def MED_POISONSTAT.COARSEDROP : Fld := ⟨0xD0180, 0x0, 48, 16, .ros, 0, [], .asWritten, .unlocked⟩
/-- MED_POISONOVTS, at MED + 0x188 (R285). -/
def MED_POISONOVTS.TS : Fld := ⟨0xD0188, 0x0, 0, 64, .ro, 0, [], .asWritten, .unlocked⟩
/-- MED_PPRCTL, at MED + 0x200 (R286). -/
def MED_PPRCTL.START : Fld := ⟨0xD0200, 0x0, 0, 1, .rw1s, 0, [], .asWritten, .unlocked⟩
def MED_PPRCTL.CHANNEL : Fld := ⟨0xD0200, 0x0, 1, 4, .rw, 0, [], .asWritten, .unlocked⟩
def MED_PPRCTL.SUBCH : Fld := ⟨0xD0200, 0x0, 5, 1, .rw, 0, [], .asWritten, .unlocked⟩
def MED_PPRCTL.RANK : Fld := ⟨0xD0200, 0x0, 6, 3, .rw, 0, [], .asWritten, .unlocked⟩
def MED_PPRCTL.BG : Fld := ⟨0xD0200, 0x0, 9, 3, .rw, 0, [], .asWritten, .unlocked⟩
def MED_PPRCTL.BANK : Fld := ⟨0xD0200, 0x0, 12, 2, .rw, 0, [], .asWritten, .unlocked⟩
def MED_PPRCTL.ROW : Fld := ⟨0xD0200, 0x0, 14, 18, .rw, 0, [], .asWritten, .unlocked⟩
/-- MED_PPRSTAT, at MED + 0x208 (R286). -/
def MED_PPRSTAT.BUSY : Fld := ⟨0xD0208, 0x0, 0, 1, .ro, 0, [], .asWritten, .unlocked⟩
def MED_PPRSTAT.RESULT : Fld := ⟨0xD0208, 0x0, 1, 3, .ro, 0, [], .asWritten, .unlocked⟩
def MED_PPRSTAT.POISONED : Fld := ⟨0xD0208, 0x0, 8, 8, .ro, 0, [], .asWritten, .unlocked⟩
/-- MED_DIAGSEL, at MED + 0x300 (R287). -/
def MED_DIAGSEL.CHANNEL : Fld := ⟨0xD0300, bank, 0, 4, .rw, 0, [], .asWritten, .unlocked⟩
def MED_DIAGSEL.INDEX : Fld := ⟨0xD0300, bank, 4, 10, .rw, 0, [], .asWritten, .unlocked⟩
/-- MED_DIAGDATA0, at MED + 0x308 (R287). -/
def MED_DIAGDATA0.DATA : Fld := ⟨0xD0308, 0x0, 0, 64, .ro, 0, [], .asWritten, .unlocked⟩
/-- MED_DIAGDATA1, at MED + 0x310 (R287). -/
def MED_DIAGDATA1.DATA : Fld := ⟨0xD0310, 0x0, 0, 64, .ro, 0, [], .asWritten, .unlocked⟩
/-- MED_DIAGINFO, at MED + 0x318 (R287). -/
def MED_DIAGINFO.VALID : Fld := ⟨0xD0318, 0x0, 0, 1, .ro, 0, [], .asWritten, .unlocked⟩
def MED_DIAGINFO.NCMD : Fld := ⟨0xD0318, 0x0, 1, 9, .ro, 0, [], .asWritten, .unlocked⟩
def MED_DIAGINFO.NUE : Fld := ⟨0xD0318, 0x0, 10, 5, .ro, 0, [], .asWritten, .unlocked⟩
/-- MED_DIAGTS, at MED + 0x320 (R287). -/
def MED_DIAGTS.TS : Fld := ⟨0xD0320, 0x0, 0, 64, .ro, 0, [], .asWritten, .unlocked⟩
/-- SEC_VEILSTAT, at SEC + 0x000 (R316). -/
def SEC_VEILSTAT.GEN : Fld := ⟨0xE0000, 0x0, 0, 1, .ro, 0, [], .asWritten, .unlocked⟩
def SEC_VEILSTAT.ROTATING : Fld := ⟨0xE0000, 0x0, 1, 1, .ro, 0, [], .asWritten, .unlocked⟩
def SEC_VEILSTAT.PCT : Fld := ⟨0xE0000, 0x0, 2, 7, .ro, 0, [], .asWritten, .unlocked⟩
def SEC_VEILSTAT.ROTCOUNT : Fld := ⟨0xE0000, 0x0, 16, 32, .ro, 0, [], .asWritten, .unlocked⟩
/-- SEC_VEILCFG, at SEC + 0x008 (R316). -/
def SEC_VEILCFG.ROTATE : Fld := ⟨0xE0008, 0x0, 0, 1, .rw1s, 0, [], .asWritten, .unlocked⟩
def SEC_VEILCFG.RATE : Fld := ⟨0xE0008, 0x0, 8, 8, .rw, 16, [], .range 1 64, .unlocked⟩
/-- SEC_KEYSEL, at SEC + 0x010 (R317). -/
def SEC_KEYSEL.KEYID : Fld := ⟨0xE0010, bank, 0, 10, .rw, 0, [], .asWritten, .unlocked⟩
/-- SEC_KEYSTAT, at SEC + 0x018 (R317). -/
def SEC_KEYSTAT.STATE : Fld := ⟨0xE0018, bank, 0, 2, .ro, 0, [], .asWritten, .unlocked⟩
def SEC_KEYSTAT.BREACHED : Fld := ⟨0xE0018, bank, 2, 1, .ro, 0, [], .asWritten, .unlocked⟩
def SEC_KEYSTAT.RECOVERY : Fld := ⟨0xE0018, bank, 3, 2, .rw, 0, [], .replace 3 0, .unlocked⟩
def SEC_KEYSTAT.REKEY : Fld := ⟨0xE0018, bank, 5, 1, .ro, 0, [], .asWritten, .unlocked⟩
def SEC_KEYSTAT.CLAIM : Fld := ⟨0xE0018, bank, 16, 13, .ro, 0, [], .asWritten, .unlocked⟩
def SEC_KEYSTAT.PAGES : Fld := ⟨0xE0018, bank, 32, 30, .ro, 0, [], .asWritten, .unlocked⟩
/-- SEC_KEYALLOC, at SEC + 0x020 (R317). -/
def SEC_KEYALLOC.NEXT : Fld := ⟨0xE0020, bank, 0, 56, .ro, 0, [], .asWritten, .unlocked⟩
/-- SEC_REGIONCTL, at SEC + 0x028 (R318). -/
def SEC_REGIONCTL.ENABLE : Fld := ⟨0xE0028, 0x0, 0, 1, .rw1s, 0, [], .asWritten, .unlocked⟩
def SEC_REGIONCTL.CHECK : Fld := ⟨0xE0028, 0x0, 8, 8, .ro, 0, [], .asWritten, .unlocked⟩
def SEC_REGIONCTL.CLAIM : Fld := ⟨0xE0028, 0x0, 16, 13, .rw, 0, [], .asWritten, .unlocked⟩
/-- SEC_ERRCNT, at SEC + 0x030 (R319). -/
def SEC_ERRCNT.MACFAIL : Fld := ⟨0xE0030, 0x0, 0, 16, .ros, 0, [], .asWritten, .unlocked⟩
def SEC_ERRCNT.TREECE : Fld := ⟨0xE0030, 0x0, 16, 16, .ros, 0, [], .asWritten, .unlocked⟩
def SEC_ERRCNT.BREACH : Fld := ⟨0xE0030, 0x0, 32, 16, .ros, 0, [], .asWritten, .unlocked⟩
def SEC_ERRCNT.BREACHDROP : Fld := ⟨0xE0030, 0x0, 48, 16, .ros, 0, [], .asWritten, .unlocked⟩
/-- SEC_BREACHSTAT, at SEC + 0x038 (R319). -/
def SEC_BREACHSTAT.VALID : Fld := ⟨0xE0038, 0x0, 0, 64, .ro, 0, [], .asWritten, .unlocked⟩
/-- SEC_BREACH, at SEC + 0x100 (R320). -/
def SEC_BREACH.TS : Fld := ⟨0xE0100, 0x10, 0, 64, .ro, 0, [], .asWritten, .unlocked⟩
def SEC_BREACH.KEYID : Fld := ⟨0xE0100, 0x10, 64, 10, .ro, 0, [], .asWritten, .unlocked⟩
def SEC_BREACH.LEVEL : Fld := ⟨0xE0100, 0x10, 74, 4, .ro, 0, [], .asWritten, .unlocked⟩
def SEC_BREACH.INDEX : Fld := ⟨0xE0100, 0x10, 78, 29, .ro, 0, [], .asWritten, .unlocked⟩
def SEC_BREACH.CAUSE : Fld := ⟨0xE0100, 0x10, 107, 2, .ro, 0, [], .asWritten, .unlocked⟩
def SEC_BREACH.PROGRESS : Fld := ⟨0xE0100, 0x10, 109, 2, .ro, 0, [], .asWritten, .unlocked⟩
def SEC_BREACH.VALID : Fld := ⟨0xE0100, 0x10, 127, 1, .ro, 0, [], .asWritten, .unlocked⟩
/-- HAL_TIMING, at HAL + 0x000 (R343). -/
def HAL_TIMING.TBI : Fld := ⟨0xF0000, 0x0, 0, 9, .rwl, 4, [], .range 1 400, .devEnable⟩
def HAL_TIMING.THOLD : Fld := ⟨0xF0000, 0x0, 16, 9, .rwl, 25, [], .range 0 400, .devEnable⟩
def HAL_TIMING.FREEWAYS : Fld := ⟨0xF0000, 0x0, 32, 3, .rw, 2, [], .range 0 4, .unlocked⟩
/-- HAL_HOSTSTAT, at HAL + 0x008 (R344). -/
def HAL_HOSTSTAT.FENCED : Fld := ⟨0xF0008, 0x0, 0, 8, .ro, 0, [], .asWritten, .unlocked⟩
def HAL_HOSTSTAT.SWEEP : Fld := ⟨0xF0008, 0x0, 8, 8, .ro, 0, [], .asWritten, .unlocked⟩
def HAL_HOSTSTAT.REVOKING : Fld := ⟨0xF0008, 0x0, 16, 1, .ro, 0, [], .asWritten, .unlocked⟩
/-- HAL_HOSTCTL, at HAL + 0x010 (R344). -/
def HAL_HOSTCTL.UNFENCE : Fld := ⟨0xF0010, 0x0, 0, 8, .rw1s, 0, [], .asWritten, .unlocked⟩
def HAL_HOSTCTL.FENCE : Fld := ⟨0xF0010, 0x0, 8, 8, .rw1s, 0, [], .asWritten, .unlocked⟩
/-- HAL_OCC, at HAL + 0x018 (R345). -/
def HAL_OCC.ENTRIES : Fld := ⟨0xF0018, 0x0, 0, 23, .ro, 0, [], .asWritten, .unlocked⟩
def HAL_OCC.WAITQ : Fld := ⟨0xF0018, 0x0, 32, 10, .ro, 0, [], .asWritten, .unlocked⟩
def HAL_OCC.OPEN : Fld := ⟨0xF0018, 0x0, 48, 11, .ro, 0, [], .asWritten, .unlocked⟩
/-- HAL_PEAK, at HAL + 0x020 (R345). -/
def HAL_PEAK.WAITMAX : Fld := ⟨0xF0020, 0x0, 0, 10, .ro, 0, [], .asWritten, .unlocked⟩
def HAL_PEAK.BIMAX : Fld := ⟨0xF0020, 0x0, 16, 16, .ro, 0, [], .asWritten, .unlocked⟩
def HAL_PEAK.CLEAR : Fld := ⟨0xF0020, 0x0, 63, 1, .rw1s, 0, [], .asWritten, .unlocked⟩
/-- HAL_ERRCNT, at HAL + 0x040 (R346). -/
def HAL_ERRCNT.BITO : Fld := ⟨0xF0040, 0x0, 0, 16, .ros, 0, [], .asWritten, .unlocked⟩
def HAL_ERRCNT.LATERSP : Fld := ⟨0xF0040, 0x0, 16, 16, .ros, 0, [], .asWritten, .unlocked⟩
def HAL_ERRCNT.EXPIRED : Fld := ⟨0xF0040, 0x0, 32, 16, .ros, 0, [], .asWritten, .unlocked⟩
def HAL_ERRCNT.FENCEDREQ : Fld := ⟨0xF0040, 0x0, 48, 16, .ros, 0, [], .asWritten, .unlocked⟩
/-- HAL_ERRCNT2, at HAL + 0x048 (R346). -/
def HAL_ERRCNT2.DIRCE : Fld := ⟨0xF0048, 0x0, 0, 16, .ros, 0, [], .asWritten, .unlocked⟩
def HAL_ERRCNT2.DIRUE : Fld := ⟨0xF0048, 0x0, 16, 16, .ros, 0, [], .asWritten, .unlocked⟩
def HAL_ERRCNT2.WQFULL : Fld := ⟨0xF0048, 0x0, 32, 16, .ros, 0, [], .asWritten, .unlocked⟩
def HAL_ERRCNT2.PROTO : Fld := ⟨0xF0048, 0x0, 48, 16, .ros, 0, [], .asWritten, .unlocked⟩
/-- HAL_TOLOG, at HAL + 0x100 (R347). -/
def HAL_TOLOG.TS : Fld := ⟨0xF0100, 0x10, 0, 64, .ro, 0, [], .asWritten, .unlocked⟩
def HAL_TOLOG.DPALINE : Fld := ⟨0xF0100, 0x10, 64, 39, .ro, 0, [], .asWritten, .unlocked⟩
def HAL_TOLOG.HOLDER : Fld := ⟨0xF0100, 0x10, 103, 3, .ro, 0, [], .asWritten, .unlocked⟩
def HAL_TOLOG.REQLINK : Fld := ⟨0xF0100, 0x10, 106, 3, .ro, 0, [], .asWritten, .unlocked⟩
def HAL_TOLOG.STATE : Fld := ⟨0xF0100, 0x10, 109, 2, .ro, 0, [], .asWritten, .unlocked⟩
def HAL_TOLOG.POISONED : Fld := ⟨0xF0100, 0x10, 111, 1, .ro, 0, [], .asWritten, .unlocked⟩
def HAL_TOLOG.CAUSE : Fld := ⟨0xF0100, 0x10, 112, 2, .ro, 0, [], .asWritten, .unlocked⟩
def HAL_TOLOG.VALID : Fld := ⟨0xF0100, 0x10, 127, 1, .rw1c, 0, [], .asWritten, .unlocked⟩
/-- QUE_SEL, at QUE + 0x000 (R382). -/
def QUE_SEL.QID : Fld := ⟨0x100000, bank, 0, 16, .rw, 0, [], .asWritten, .unlocked⟩
/-- QUE_SQBASE, at QUE + 0x008 (R382). -/
def QUE_SQBASE.ADDR : Fld := ⟨0x100008, bank, 12, 52, .rwl, 0, [], .asWritten, .queueEnable⟩
/-- QUE_CQBASE, at QUE + 0x010 (R382). -/
def QUE_CQBASE.ADDR : Fld := ⟨0x100010, bank, 12, 52, .rwl, 0, [], .asWritten, .queueEnable⟩
/-- QUE_CFG, at QUE + 0x018 (R382). -/
def QUE_CFG.DEPTHLOG : Fld := ⟨0x100018, bank, 0, 4, .rwl, 4, [], .asWritten, .queueEnable⟩
def QUE_CFG.LINK : Fld := ⟨0x100018, bank, 4, 3, .rwl, 0, [], .asWritten, .queueEnable⟩
def QUE_CFG.VECTOR : Fld := ⟨0x100018, bank, 8, 11, .rwl, 0, [], .asWritten, .queueEnable⟩
def QUE_CFG.INTEN : Fld := ⟨0x100018, bank, 19, 1, .rwl, 0, [], .asWritten, .queueEnable⟩
/-- QUE_CTL, at QUE + 0x020 (R383). -/
def QUE_CTL.ENABLE : Fld := ⟨0x100020, bank, 0, 1, .rw, 0, [], .asWritten, .unlocked⟩
def QUE_CTL.RESIZE : Fld := ⟨0x100020, bank, 1, 1, .rw1s, 0, [], .asWritten, .unlocked⟩
def QUE_CTL.CHECK : Fld := ⟨0x100020, bank, 8, 8, .ro, 0, [], .asWritten, .unlocked⟩
/-- QUE_STAT, at QUE + 0x028 (R383). -/
def QUE_STAT.STATE : Fld := ⟨0x100028, bank, 0, 2, .ro, 0, [], .asWritten, .unlocked⟩
def QUE_STAT.ERRCAUSE : Fld := ⟨0x100028, bank, 4, 3, .ro, 0, [], .asWritten, .unlocked⟩
def QUE_STAT.SQHEAD : Fld := ⟨0x100028, bank, 8, 12, .ro, 0, [], .asWritten, .unlocked⟩
def QUE_STAT.CQTAIL : Fld := ⟨0x100028, bank, 20, 12, .ro, 0, [], .asWritten, .unlocked⟩
def QUE_STAT.PHASE : Fld := ⟨0x100028, bank, 32, 1, .ro, 1, [], .asWritten, .unlocked⟩
def QUE_STAT.RUNNING : Fld := ⟨0x100028, bank, 33, 5, .ro, 0, [], .asWritten, .unlocked⟩
/-- QUE_NEXTSQ, at QUE + 0x030 (R384). -/
def QUE_NEXTSQ.DEPTHLOG : Fld := ⟨0x100030, bank, 0, 4, .rw, 4, [], .asWritten, .unlocked⟩
def QUE_NEXTSQ.ADDR : Fld := ⟨0x100030, bank, 12, 52, .rw, 0, [], .asWritten, .unlocked⟩
/-- QUE_NEXTCQ, at QUE + 0x038 (R384). -/
def QUE_NEXTCQ.ADDR : Fld := ⟨0x100038, bank, 12, 52, .rw, 0, [], .asWritten, .unlocked⟩
/-- QUE_ERRCNT, at QUE + 0x100 (R384). -/
def QUE_ERRCNT.DBERR : Fld := ⟨0x100100, 0x0, 0, 16, .ros, 0, [], .asWritten, .unlocked⟩
def QUE_ERRCNT.DMAERR : Fld := ⟨0x100100, 0x0, 16, 16, .ros, 0, [], .asWritten, .unlocked⟩
def QUE_ERRCNT.DBIGNORED : Fld := ⟨0x100100, 0x0, 32, 16, .ros, 0, [], .asWritten, .unlocked⟩
def QUE_ERRCNT.LATEDROP : Fld := ⟨0x100100, 0x0, 48, 16, .ros, 0, [], .asWritten, .unlocked⟩
/-- SLC_SEL, at SLC + 0x000 (R379). -/
def SLC_SEL.SLICE : Fld := ⟨0x110000, bank, 0, 12, .rw, 0, [], .asWritten, .unlocked⟩
/-- SLC_CFG, at SLC + 0x008 (R379). -/
def SLC_CFG.PASID : Fld := ⟨0x110008, bank, 0, 20, .rwl, 0, [], .asWritten, .sliceEnable⟩
def SLC_CFG.TEL_USER : Fld := ⟨0x110008, bank, 20, 1, .rw, 0, [], .asWritten, .unlocked⟩
/-- SLC_CTL, at SLC + 0x010 (R379). -/
def SLC_CTL.ENABLE : Fld := ⟨0x110010, bank, 0, 1, .rw, 0, [], .asWritten, .unlocked⟩
def SLC_CTL.RESET : Fld := ⟨0x110010, bank, 1, 1, .rw1s, 0, [], .asWritten, .unlocked⟩
def SLC_CTL.CHECK : Fld := ⟨0x110010, bank, 8, 8, .ro, 0, [], .asWritten, .unlocked⟩
/-- SLC_STAT, at SLC + 0x018 (R380). -/
def SLC_STAT.GEN : Fld := ⟨0x110018, bank, 0, 16, .ro, 0, [], .asWritten, .unlocked⟩
def SLC_STAT.RESETTING : Fld := ⟨0x110018, bank, 16, 1, .ro, 0, [], .asWritten, .unlocked⟩
def SLC_STAT.QUEUES : Fld := ⟨0x110018, bank, 32, 17, .ro, 0, [], .asWritten, .unlocked⟩
/-- SLC_LATE, at SLC + 0x020 (R380). -/
def SLC_LATE.DROPS : Fld := ⟨0x110020, bank, 0, 32, .ro, 0, [], .asWritten, .unlocked⟩
def SLC_LATE.DBIGNORED : Fld := ⟨0x110020, bank, 32, 32, .ro, 0, [], .asWritten, .unlocked⟩
/-- SLC_DBSEL, at SLC + 0x040 (R381). -/
def SLC_DBSEL.PAGE : Fld := ⟨0x110040, bank, 0, 10, .rw, 0, [], .asWritten, .unlocked⟩
/-- SLC_DBOWN, at SLC + 0x048 (R381). -/
def SLC_DBOWN.ASSIGN : Fld := ⟨0x110048, bank, 0, 1, .rw1s, 0, [], .asWritten, .unlocked⟩
def SLC_DBOWN.FREE : Fld := ⟨0x110048, bank, 1, 1, .rw1s, 0, [], .asWritten, .unlocked⟩
def SLC_DBOWN.OWNED : Fld := ⟨0x110048, bank, 2, 1, .ro, 0, [], .asWritten, .unlocked⟩
def SLC_DBOWN.CHECK : Fld := ⟨0x110048, bank, 8, 8, .ro, 0, [], .asWritten, .unlocked⟩
def SLC_DBOWN.SLICE : Fld := ⟨0x110048, bank, 16, 12, .rw, 0, [], .asWritten, .unlocked⟩
def SLC_DBOWN.OWNER : Fld := ⟨0x110048, bank, 32, 12, .ro, 0, [], .asWritten, .unlocked⟩
/-- QOS_PROFILE, at QOS + 0x000 (R398). -/
def QOS_PROFILE.ENABLE : Fld := ⟨0x120000, 0x0, 0, 1, .rw1s, 0, [], .asWritten, .unlocked⟩
def QOS_PROFILE.CHECK : Fld := ⟨0x120000, 0x0, 8, 8, .ro, 0, [], .asWritten, .unlocked⟩
/-- QOS_STATUS, at QOS + 0x008 (R398). -/
def QOS_STATUS.YIELDING : Fld := ⟨0x120008, 0x0, 0, 1, .ro, 0, [], .asWritten, .unlocked⟩
def QOS_STATUS.PANIC : Fld := ⟨0x120008, 0x0, 16, 16, .ro, 0, [], .asWritten, .unlocked⟩
/-- QOS_BUCKET, at QOS + 0x100 (R399). -/
def QOS_BUCKET.RATE : Fld := ⟨0x120100, 0x20, 0, 16, .rw, 0, [0, 0, 0, 0, 0, 0, 0, 0, 2000, 0, 0, 1000, 2500, 250, 1500], .range 0 25600, .unlocked⟩
def QOS_BUCKET.BURST : Fld := ⟨0x120100, 0x20, 16, 16, .rw, 0, [0, 0, 0, 0, 0, 0, 0, 0, 8000, 0, 0, 4000, 10000, 1000, 6000], .asWritten, .unlocked⟩
def QOS_BUCKET.YIELD : Fld := ⟨0x120100, 0x20, 32, 2, .rw, 0, [0, 0, 0, 0, 0, 0, 0, 0, 2, 0, 0, 1, 1, 3, 2], .asWritten, .unlocked⟩
/-- QOS_URG, at QOS + 0x108 (R400). -/
def QOS_URG.U1 : Fld := ⟨0x120108, 0x20, 0, 4, .rw, 4, [], .range 1 15, .unlocked⟩
def QOS_URG.U2 : Fld := ⟨0x120108, 0x20, 4, 4, .rw, 8, [], .range 1 15, .unlocked⟩
def QOS_URG.U3 : Fld := ⟨0x120108, 0x20, 8, 4, .rw, 12, [], .range 1 15, .unlocked⟩
def QOS_URG.TARGET : Fld := ⟨0x120108, 0x20, 16, 14, .rw, 0, [50, 50, 50, 50, 50, 50, 50, 50, 0, 100, 100, 0, 0, 0, 0], .zeroOrRange 10 10000, .unlocked⟩
/-- QOS_STAT, at QOS + 0x110 (R401). -/
def QOS_STAT.URGENCY : Fld := ⟨0x120110, 0x20, 0, 2, .ro, 0, [], .asWritten, .unlocked⟩
def QOS_STAT.PRIORITY : Fld := ⟨0x120110, 0x20, 2, 2, .ro, 0, [], .asWritten, .unlocked⟩
def QOS_STAT.LEVEL : Fld := ⟨0x120110, 0x20, 4, 12, .ro, 0, [], .asWritten, .unlocked⟩
def QOS_STAT.TOKENS : Fld := ⟨0x120110, 0x20, 16, 16, .ro, 0, [], .asWritten, .unlocked⟩
def QOS_STAT.AGE : Fld := ⟨0x120110, 0x20, 32, 16, .ro, 0, [], .asWritten, .unlocked⟩
def QOS_STAT.HELD : Fld := ⟨0x120110, 0x20, 48, 1, .ro, 0, [], .asWritten, .unlocked⟩
/-- QOS_CNT, at QOS + 0x118 (R402). -/
def QOS_CNT.GRANTED : Fld := ⟨0x120118, 0x20, 0, 48, .ro, 0, [], .asWritten, .unlocked⟩
def QOS_CNT.EMPTY : Fld := ⟨0x120118, 0x20, 48, 16, .ros, 0, [], .asWritten, .unlocked⟩
/-- CON_CTL, at CON + 0x000 (R430). -/
def CON_CTL.LINKEN : Fld := ⟨0x130000, 0x0, 0, 1, .rw, 0, [], .asWritten, .unlocked⟩
def CON_CTL.RETRAIN : Fld := ⟨0x130000, 0x0, 1, 1, .rw1s, 0, [], .asWritten, .unlocked⟩
def CON_CTL.DOWN : Fld := ⟨0x130000, 0x0, 2, 1, .rw1s, 0, [], .asWritten, .unlocked⟩
def CON_CTL.READD : Fld := ⟨0x130000, 0x0, 4, 3, .rw1s, 0, [], .asWritten, .unlocked⟩
/-- CON_CFG, at CON + 0x008 (R431). -/
def CON_CFG.REPLAY_TO : Fld := ⟨0x130008, 0x0, 0, 8, .rw, 20, [], .range 5 255, .unlocked⟩
def CON_CFG.HBMISS : Fld := ⟨0x130008, 0x0, 8, 7, .rw, 5, [], .range 2 100, .unlocked⟩
def CON_CFG.SWAPTHR : Fld := ⟨0x130008, 0x0, 16, 16, .rw, 4096, [], .range 16 65535, .unlocked⟩
def CON_CFG.DROPTHR : Fld := ⟨0x130008, 0x0, 32, 12, .rw, 64, [], .range 1 4095, .unlocked⟩
def CON_CFG.PKTWAIT : Fld := ⟨0x130008, 0x0, 48, 4, .rw, 8, [], .asWritten, .unlocked⟩
/-- CON_STAT, at CON + 0x010 (R432). -/
def CON_STAT.STATE : Fld := ⟨0x130010, 0x0, 0, 3, .ro, 0, [], .asWritten, .unlocked⟩
def CON_STAT.BUNDLES : Fld := ⟨0x130010, 0x0, 3, 3, .ro, 0, [], .asWritten, .unlocked⟩
def CON_STAT.HBOK : Fld := ⟨0x130010, 0x0, 6, 1, .ro, 0, [], .asWritten, .unlocked⟩
def CON_STAT.KEYPHASE : Fld := ⟨0x130010, 0x0, 7, 1, .ro, 0, [], .asWritten, .unlocked⟩
def CON_STAT.REPLAYS : Fld := ⟨0x130010, 0x0, 8, 3, .ro, 0, [], .asWritten, .unlocked⟩
def CON_STAT.RETRAINS : Fld := ⟨0x130010, 0x0, 11, 2, .ro, 0, [], .asWritten, .unlocked⟩
def CON_STAT.UNACK : Fld := ⟨0x130010, 0x0, 16, 11, .ro, 0, [], .asWritten, .unlocked⟩
def CON_STAT.RXSPARE : Fld := ⟨0x130010, 0x0, 32, 12, .ro, 4095, [], .asWritten, .unlocked⟩
def CON_STAT.TXSPARE : Fld := ⟨0x130010, 0x0, 44, 12, .ro, 4095, [], .asWritten, .unlocked⟩
def CON_STAT.DOWNCAUSE : Fld := ⟨0x130010, 0x0, 56, 3, .ros, 0, [], .asWritten, .unlocked⟩
/-- CON_ERRCNT, at CON + 0x040 (R433). -/
def CON_ERRCNT.CRCFAIL : Fld := ⟨0x130040, 0x0, 0, 16, .ros, 0, [], .asWritten, .unlocked⟩
def CON_ERRCNT.AUTH : Fld := ⟨0x130040, 0x0, 16, 16, .ros, 0, [], .asWritten, .unlocked⟩
def CON_ERRCNT.REPLAYS : Fld := ⟨0x130040, 0x0, 32, 16, .ros, 0, [], .asWritten, .unlocked⟩
def CON_ERRCNT.RETRAINS : Fld := ⟨0x130040, 0x0, 48, 16, .ros, 0, [], .asWritten, .unlocked⟩
/-- CON_ERRCNT2, at CON + 0x048 (R433). -/
def CON_ERRCNT2.UNCORRCW : Fld := ⟨0x130048, 0x0, 0, 16, .ros, 0, [], .asWritten, .unlocked⟩
def CON_ERRCNT2.SWAPS : Fld := ⟨0x130048, 0x0, 16, 16, .ros, 0, [], .asWritten, .unlocked⟩
def CON_ERRCNT2.DROPS : Fld := ⟨0x130048, 0x0, 32, 16, .ros, 0, [], .asWritten, .unlocked⟩
def CON_ERRCNT2.DOWNS : Fld := ⟨0x130048, 0x0, 48, 16, .ros, 0, [], .asWritten, .unlocked⟩
/-- CON_FECCORR, at CON + 0x050 (R434). -/
def CON_FECCORR.CORRECTED : Fld := ⟨0x130050, 0x0, 0, 48, .ros, 0, [], .asWritten, .unlocked⟩
/-- CON_LASTDOWN_TS, at CON + 0x058 (R434). -/
def CON_LASTDOWN_TS.TS : Fld := ⟨0x130058, 0x0, 0, 64, .ros, 0, [], .asWritten, .unlocked⟩
/-- PAR_CTL, at PAR + 0x000 (R462). -/
def PAR_CTL.ENABLE : Fld := ⟨0x140000, 0x0, 0, 1, .rw, 0, [], .asWritten, .unlocked⟩
def PAR_CTL.TAKEOVER : Fld := ⟨0x140000, 0x0, 1, 1, .rw1s, 0, [], .asWritten, .unlocked⟩
def PAR_CTL.GIVEBACK : Fld := ⟨0x140000, 0x0, 2, 1, .rw1s, 0, [], .asWritten, .unlocked⟩
def PAR_CTL.FENCE : Fld := ⟨0x140000, 0x0, 3, 1, .rw1s, 0, [], .asWritten, .unlocked⟩
def PAR_CTL.DISCARD : Fld := ⟨0x140000, 0x0, 4, 1, .rw1s, 0, [], .asWritten, .unlocked⟩
def PAR_CTL.FORCE : Fld := ⟨0x140000, 0x0, 5, 1, .rw, 0, [], .asWritten, .unlocked⟩
def PAR_CTL.CHECK : Fld := ⟨0x140000, 0x0, 8, 8, .ro, 0, [], .asWritten, .unlocked⟩
/-- PAR_CFG, at PAR + 0x008 (R463). -/
def PAR_CFG.MODE : Fld := ⟨0x140008, 0x0, 0, 1, .rwl, 0, [], .asWritten, .pairEnable⟩
def PAR_CFG.GRANLOG : Fld := ⟨0x140008, 0x0, 1, 4, .rwl, 12, [], .range 8 14, .pairEnable⟩
def PAR_CFG.PTIMEOUT : Fld := ⟨0x140008, 0x0, 16, 10, .rw, 20, [], .range 1 1000, .unlocked⟩
def PAR_CFG.ASYNCWIN : Fld := ⟨0x140008, 0x0, 32, 10, .rw, 16, [], .range 1 1000, .unlocked⟩
/-- PAR_STAT, at PAR + 0x010 (R464). -/
def PAR_STAT.STATE : Fld := ⟨0x140010, 0x0, 0, 4, .ro, 0, [], .asWritten, .unlocked⟩
def PAR_STAT.HOME : Fld := ⟨0x140010, 0x0, 4, 2, .ro, 3, [], .asWritten, .unlocked⟩
def PAR_STAT.ROLE : Fld := ⟨0x140010, 0x0, 6, 1, .ro, 0, [], .asWritten, .unlocked⟩
def PAR_STAT.FWD : Fld := ⟨0x140010, 0x0, 7, 1, .ro, 0, [], .asWritten, .unlocked⟩
def PAR_STAT.PEERSTATE : Fld := ⟨0x140010, 0x0, 8, 4, .ro, 0, [], .asWritten, .unlocked⟩
def PAR_STAT.PEERDIRTY : Fld := ⟨0x140010, 0x0, 12, 1, .ro, 0, [], .asWritten, .unlocked⟩
def PAR_STAT.UNRESP : Fld := ⟨0x140010, 0x0, 13, 1, .ro, 0, [], .asWritten, .unlocked⟩
def PAR_STAT.PEERCHECK : Fld := ⟨0x140010, 0x0, 16, 8, .ro, 0, [], .asWritten, .unlocked⟩
/-- PAR_EPOCH, at PAR + 0x018 (R465). -/
def PAR_EPOCH.CUR : Fld := ⟨0x140018, 0x0, 0, 32, .ros, 0, [], .asWritten, .unlocked⟩
def PAR_EPOCH.PEER : Fld := ⟨0x140018, 0x0, 32, 32, .ros, 0, [], .asWritten, .unlocked⟩
/-- PAR_TAKEOVER, at PAR + 0x020 (R465). -/
def PAR_TAKEOVER.EPOCH : Fld := ⟨0x140020, 0x0, 0, 32, .rw, 0, [], .asWritten, .unlocked⟩
/-- PAR_JSTAT, at PAR + 0x028 (R466). -/
def PAR_JSTAT.ENTRIES : Fld := ⟨0x140028, 0x0, 0, 18, .ro, 0, [], .asWritten, .unlocked⟩
def PAR_JSTAT.OLDEST : Fld := ⟨0x140028, 0x0, 32, 16, .ro, 0, [], .asWritten, .unlocked⟩
/-- PAR_RSSTAT, at PAR + 0x030 (R466). -/
def PAR_RSSTAT.OUTBITS : Fld := ⟨0x140030, 0x0, 0, 30, .ro, 0, [], .asWritten, .unlocked⟩
def PAR_RSSTAT.COPYLEFT : Fld := ⟨0x140030, 0x0, 32, 30, .ro, 0, [], .asWritten, .unlocked⟩
/-- PAR_PEER, at PAR + 0x038 (R466). -/
def PAR_PEER.JOURNAL : Fld := ⟨0x140038, 0x0, 0, 18, .ro, 0, [], .asWritten, .unlocked⟩
def PAR_PEER.OUTBITS : Fld := ⟨0x140038, 0x0, 32, 30, .ro, 0, [], .asWritten, .unlocked⟩
/-- PAR_ERRCNT, at PAR + 0x040 (R467). -/
def PAR_ERRCNT.ACKLATE : Fld := ⟨0x140040, 0x0, 0, 16, .ros, 0, [], .asWritten, .unlocked⟩
def PAR_ERRCNT.PEERFIX : Fld := ⟨0x140040, 0x0, 16, 16, .ros, 0, [], .asWritten, .unlocked⟩
def PAR_ERRCNT.PEERFAIL : Fld := ⟨0x140040, 0x0, 32, 16, .ros, 0, [], .asWritten, .unlocked⟩
def PAR_ERRCNT.NOTHOME : Fld := ⟨0x140040, 0x0, 48, 16, .ros, 0, [], .asWritten, .unlocked⟩
/-- ENG_STAT, at ENG + 0x000 (R492). -/
def ENG_STAT.ZENITH_UP : Fld := ⟨0x150000, 0x0, 0, 1, .ro, 0, [], .asWritten, .unlocked⟩
def ENG_STAT.HORIZON_UP : Fld := ⟨0x150000, 0x0, 1, 1, .ro, 0, [], .asWritten, .unlocked⟩
def ENG_STAT.CORES : Fld := ⟨0x150000, 0x0, 2, 46, .ro, 0, [], .asWritten, .unlocked⟩
def ENG_STAT.LOCKED : Fld := ⟨0x150000, 0x0, 48, 1, .ro, 0, [], .asWritten, .unlocked⟩
def ENG_STAT.DEBUG_OPEN : Fld := ⟨0x150000, 0x0, 49, 1, .ro, 0, [], .asWritten, .unlocked⟩
/-- ENG_BOOTSTAT, at ENG + 0x008 (R492). -/
def ENG_BOOTSTAT.STAGE : Fld := ⟨0x150008, 0x0, 0, 3, .ro, 0, [], .asWritten, .unlocked⟩
def ENG_BOOTSTAT.ZSLOT : Fld := ⟨0x150008, 0x0, 3, 1, .ro, 0, [], .asWritten, .unlocked⟩
def ENG_BOOTSTAT.HSLOT : Fld := ⟨0x150008, 0x0, 4, 1, .ro, 0, [], .asWritten, .unlocked⟩
def ENG_BOOTSTAT.CAUSE_A : Fld := ⟨0x150008, 0x0, 8, 4, .ro, 0, [], .asWritten, .unlocked⟩
def ENG_BOOTSTAT.CAUSE_B : Fld := ⟨0x150008, 0x0, 12, 4, .ro, 0, [], .asWritten, .unlocked⟩
/-- ENG_SVN, at ENG + 0x010 (R493). -/
def ENG_SVN.ZFUSE : Fld := ⟨0x150010, 0x0, 0, 7, .ro, 0, [], .asWritten, .unlocked⟩
def ENG_SVN.HFUSE : Fld := ⟨0x150010, 0x0, 8, 7, .ro, 0, [], .asWritten, .unlocked⟩
def ENG_SVN.DFUSE : Fld := ⟨0x150010, 0x0, 16, 6, .ro, 0, [], .asWritten, .unlocked⟩
def ENG_SVN.ZRUN : Fld := ⟨0x150010, 0x0, 32, 7, .ro, 0, [], .asWritten, .unlocked⟩
def ENG_SVN.HRUN : Fld := ⟨0x150010, 0x0, 40, 7, .ro, 0, [], .asWritten, .unlocked⟩
def ENG_SVN.DRUN : Fld := ⟨0x150010, 0x0, 48, 6, .ro, 0, [], .asWritten, .unlocked⟩
/-- ENG_HOLD, at ENG + 0x018 (R494). -/
def ENG_HOLD.DOMAINS : Fld := ⟨0x150018, 0x0, 0, 64, .rw, 0, [], .asWritten, .unlocked⟩
/-- ENG_WDOG, at ENG + 0x020 (R494). -/
def ENG_WDOG.PET : Fld := ⟨0x150020, 0x0, 0, 1, .rw1s, 0, [], .asWritten, .unlocked⟩
def ENG_WDOG.TIMEOUT : Fld := ⟨0x150020, 0x0, 8, 8, .rw, 10, [], .range 1 255, .unlocked⟩
def ENG_WDOG.EXPIRED : Fld := ⟨0x150020, 0x0, 16, 1, .ro, 0, [], .asWritten, .unlocked⟩
/-- ENG_WINSEL, at ENG + 0x040 (R495). -/
def ENG_WINSEL.CORE : Fld := ⟨0x150040, bank, 0, 6, .rw, 0, [], .asWritten, .unlocked⟩
def ENG_WINSEL.WIN : Fld := ⟨0x150040, bank, 8, 3, .rw, 0, [], .asWritten, .unlocked⟩
/-- ENG_S2BASE, at ENG + 0x048 (R495). -/
def ENG_S2BASE.IPA : Fld := ⟨0x150048, bank, 12, 36, .rw, 0, [], .asWritten, .unlocked⟩
/-- ENG_S2SIZE, at ENG + 0x050 (R495). -/
def ENG_S2SIZE.PAGES : Fld := ⟨0x150050, bank, 0, 36, .rw, 0, [], .asWritten, .unlocked⟩
/-- ENG_S2MAP, at ENG + 0x058 (R495). -/
def ENG_S2MAP.EN : Fld := ⟨0x150058, bank, 0, 1, .rw, 0, [], .asWritten, .unlocked⟩
def ENG_S2MAP.R : Fld := ⟨0x150058, bank, 1, 1, .rw, 0, [], .asWritten, .unlocked⟩
def ENG_S2MAP.W : Fld := ⟨0x150058, bank, 2, 1, .rw, 0, [], .asWritten, .unlocked⟩
def ENG_S2MAP.X : Fld := ⟨0x150058, bank, 3, 1, .rw, 0, [], .asWritten, .unlocked⟩
def ENG_S2MAP.EPA : Fld := ⟨0x150058, bank, 12, 36, .rw, 0, [], .asWritten, .unlocked⟩
/-- ENG_TLBINV, at ENG + 0x080 (R496). -/
def ENG_TLBINV.CORES : Fld := ⟨0x150080, 0x0, 0, 46, .rw1s, 0, [], .asWritten, .unlocked⟩
/-- ENG_TLBARG, at ENG + 0x088 (R496). -/
def ENG_TLBARG.SCOPE : Fld := ⟨0x150088, 0x0, 0, 2, .rw, 0, [], .asWritten, .unlocked⟩
def ENG_TLBARG.STAG : Fld := ⟨0x150088, 0x0, 2, 8, .rw, 0, [], .asWritten, .unlocked⟩
def ENG_TLBARG.ADDR : Fld := ⟨0x150088, 0x0, 12, 36, .rw, 0, [], .asWritten, .unlocked⟩
/-- ENG_WALKLOG, at ENG + 0x100 (R497). -/
def ENG_WALKLOG.TS : Fld := ⟨0x150100, 0x0, 0, 64, .ro, 0, [], .asWritten, .unlocked⟩
def ENG_WALKLOG.CORE : Fld := ⟨0x150100, 0x0, 64, 6, .ro, 0, [], .asWritten, .unlocked⟩
def ENG_WALKLOG.KIND : Fld := ⟨0x150100, 0x0, 70, 3, .ro, 0, [], .asWritten, .unlocked⟩
def ENG_WALKLOG.LEVEL : Fld := ⟨0x150100, 0x0, 73, 2, .ro, 0, [], .asWritten, .unlocked⟩
def ENG_WALKLOG.FETCH : Fld := ⟨0x150100, 0x0, 75, 1, .ro, 0, [], .asWritten, .unlocked⟩
def ENG_WALKLOG.ADDR : Fld := ⟨0x150100, 0x0, 76, 48, .ro, 0, [], .asWritten, .unlocked⟩
def ENG_WALKLOG.VALID : Fld := ⟨0x150100, 0x0, 127, 1, .rw1c, 0, [], .asWritten, .unlocked⟩
/-- ENG_ERRCNT, at ENG + 0x110 (R498). -/
def ENG_ERRCNT.WALK : Fld := ⟨0x150110, 0x0, 0, 16, .ros, 0, [], .asWritten, .unlocked⟩
def ENG_ERRCNT.S2 : Fld := ⟨0x150110, 0x0, 16, 16, .ros, 0, [], .asWritten, .unlocked⟩
def ENG_ERRCNT.HOLDREF : Fld := ⟨0x150110, 0x0, 32, 16, .ros, 0, [], .asWritten, .unlocked⟩
def ENG_ERRCNT.MEMCE : Fld := ⟨0x150110, 0x0, 48, 16, .ros, 0, [], .asWritten, .unlocked⟩
/-- FLT_STICKY, at FLT + 0x000 (R584). -/
def FLT_STICKY.SRC : Fld := ⟨0x160000, 0x8, 0, 64, .rw1c, 0, [], .asWritten, .unlocked⟩
/-- FLT_FIRST, at FLT + 0x010 (R585). -/
def FLT_FIRST.SOURCE : Fld := ⟨0x160010, 0x0, 0, 7, .ro, 0, [], .asWritten, .unlocked⟩
def FLT_FIRST.VALID : Fld := ⟨0x160010, 0x0, 63, 1, .rw1c, 0, [], .asWritten, .unlocked⟩
/-- FLT_FIRSTTS, at FLT + 0x018 (R585). -/
def FLT_FIRSTTS.TS : Fld := ⟨0x160018, 0x0, 0, 64, .ro, 0, [], .asWritten, .unlocked⟩
/-- FLT_SRCSEL, at FLT + 0x020 (R586). -/
def FLT_SRCSEL.SOURCE : Fld := ⟨0x160020, bank, 0, 7, .rw, 0, [], .asWritten, .unlocked⟩
/-- FLT_SRCCFG, at FLT + 0x028 (R586). -/
def FLT_SRCCFG.INT : Fld := ⟨0x160028, bank, 0, 1, .rw, 0, [1, 1, 1, 1, 1, 1, 1, 1, 1, 1, 1, 1, 1, 1, 1, 1, 1, 1, 1, 1, 1, 1, 1, 1, 1, 1, 1, 1, 1, 1, 1, 0, 0, 1, 1, 1, 1, 1, 1, 0, 1, 0, 1, 1, 1, 0, 1, 1, 1, 1, 1, 1, 1, 1, 1, 1, 1, 1, 1, 1, 1, 1, 1, 1, 1, 1, 1, 1, 1, 1, 1, 1, 1, 1, 1, 1, 1, 1, 1, 1, 1, 0, 0, 1, 1, 1, 1, 0, 1, 1, 1, 1, 1, 1, 0, 1, 1, 1, 1, 1, 1, 1, 1, 1, 0, 1, 1, 1, 1, 1, 1, 1, 1, 1, 1, 0, 0, 0, 0, 0, 0, 0, 0, 0, 0, 0, 0, 0], .asWritten, .unlocked⟩
def FLT_SRCCFG.NMI : Fld := ⟨0x160028, bank, 1, 1, .rw, 0, [0, 0, 0, 0, 0, 0, 0, 0, 0, 0, 0, 0, 0, 0, 0, 0, 0, 0, 0, 0, 0, 0, 0, 0, 0, 0, 1, 0, 0, 0, 0, 0, 0, 0, 1, 0, 0, 0, 0, 0, 0, 0, 0, 0, 0, 0, 0, 0, 0, 0, 0, 0, 0, 0, 0, 0, 0, 0, 0, 0, 0, 0, 0, 0, 0, 0, 0, 0, 0, 0, 0, 0, 0, 0, 0, 0, 0, 0, 0, 0, 1, 1, 1, 1, 1, 0, 1, 0, 0, 0, 0, 0, 0, 0, 0, 0, 0, 0, 0, 1, 0, 0, 0, 0, 0, 0, 1, 1, 0, 0, 0, 0, 0, 0, 0, 0, 0, 0, 0, 0, 0, 0, 0, 0, 0, 0, 0, 0], .asWritten, .unlocked⟩
def FLT_SRCCFG.BLKRST : Fld := ⟨0x160028, bank, 2, 1, .rw, 0, [0, 0, 0, 0, 0, 0, 0, 0, 0, 0, 0, 0, 0, 0, 0, 0, 0, 0, 0, 0, 0, 0, 0, 0, 0, 0, 0, 0, 0, 0, 0, 0, 0, 0, 0, 0, 0, 0, 0, 0, 0, 0, 0, 0, 0, 0, 0, 0, 0, 0, 0, 0, 0, 0, 0, 0, 0, 0, 0, 0, 0, 0, 0, 0, 0, 0, 0, 0, 0, 0, 0, 0, 0, 0, 0, 0, 0, 0, 0, 0, 0, 0, 0, 0, 0, 0, 0, 0, 0, 0, 0, 0, 0, 0, 0, 0, 0, 0, 0, 0, 0, 0, 0, 0, 0, 0, 0, 0, 1, 0, 0, 0, 0, 0, 0, 0, 0, 0, 0, 0, 0, 0, 0, 0, 0, 0, 0, 0], .asWritten, .unlocked⟩
def FLT_SRCCFG.CHIPRST : Fld := ⟨0x160028, bank, 3, 1, .rw, 0, [0, 0, 0, 0, 0, 0, 0, 0, 0, 0, 0, 0, 0, 0, 0, 0, 0, 0, 0, 0, 0, 0, 0, 0, 0, 0, 0, 0, 0, 0, 0, 0, 0, 0, 0, 0, 0, 0, 0, 0, 0, 0, 0, 0, 0, 0, 0, 0, 0, 0, 0, 0, 0, 0, 0, 0, 0, 0, 0, 0, 0, 0, 0, 0, 0, 0, 0, 0, 0, 0, 0, 0, 0, 0, 0, 0, 0, 0, 0, 0, 0, 0, 0, 0, 0, 0, 0, 0, 0, 0, 0, 0, 0, 0, 0, 0, 0, 0, 0, 0, 0, 0, 0, 0, 1, 0, 0, 0, 0, 0, 0, 0, 0, 0, 0, 0, 0, 0, 0, 0, 0, 0, 0, 0, 0, 0, 0, 0], .asWritten, .unlocked⟩
def FLT_SRCCFG.ERRN : Fld := ⟨0x160028, bank, 4, 1, .rw, 0, [0, 0, 0, 0, 0, 0, 0, 0, 0, 1, 0, 1, 0, 1, 0, 1, 0, 1, 0, 1, 0, 1, 0, 1, 0, 1, 1, 0, 0, 0, 1, 0, 0, 1, 1, 0, 1, 1, 0, 0, 0, 0, 0, 0, 0, 0, 0, 0, 1, 0, 1, 0, 1, 0, 1, 0, 1, 0, 1, 0, 1, 0, 1, 0, 1, 0, 1, 0, 1, 0, 1, 0, 1, 0, 1, 0, 1, 0, 1, 0, 1, 1, 0, 0, 1, 0, 1, 0, 1, 1, 0, 0, 0, 0, 0, 1, 0, 0, 0, 1, 1, 1, 0, 0, 1, 0, 0, 1, 0, 0, 0, 0, 0, 1, 0, 0, 0, 0, 0, 0, 0, 0, 0, 0, 0, 0, 0, 0], .asWritten, .unlocked⟩
def FLT_SRCCFG.FIXED : Fld := ⟨0x160028, bank, 8, 5, .ro, 0, [0, 0, 0, 0, 0, 0, 0, 0, 0, 0, 0, 0, 0, 0, 0, 0, 0, 0, 0, 0, 0, 0, 0, 0, 0, 0, 2, 0, 0, 0, 0, 0, 0, 0, 0, 0, 0, 0, 0, 0, 0, 0, 0, 0, 0, 0, 0, 0, 0, 0, 0, 0, 0, 0, 0, 0, 0, 0, 0, 0, 0, 0, 0, 0, 0, 0, 0, 0, 0, 0, 0, 0, 0, 0, 0, 0, 0, 0, 0, 0, 2, 2, 2, 0, 2, 0, 2, 0, 0, 0, 0, 0, 0, 0, 0, 0, 0, 0, 0, 2, 0, 0, 0, 0, 24, 0, 2, 2, 0, 0, 0, 0, 0, 0, 0, 0, 0, 0, 0, 0, 0, 0, 0, 0, 0, 0, 0, 0], .asWritten, .unlocked⟩
def FLT_SRCCFG.COUNT : Fld := ⟨0x160028, bank, 32, 32, .ros, 0, [], .asWritten, .unlocked⟩
/-- FLT_SRCTS, at FLT + 0x030 (R586). -/
def FLT_SRCTS.TS : Fld := ⟨0x160030, bank, 0, 64, .ros, 0, [], .asWritten, .unlocked⟩
/-- FLT_INTCFG, at FLT + 0x040 (R587). -/
def FLT_INTCFG.LINK : Fld := ⟨0x160040, 0x0, 0, 3, .rw, 0, [], .asWritten, .unlocked⟩
def FLT_INTCFG.VECTOR : Fld := ⟨0x160040, 0x0, 8, 11, .rw, 0, [], .asWritten, .unlocked⟩
def FLT_INTCFG.EN : Fld := ⟨0x160040, 0x0, 20, 1, .rw, 0, [], .asWritten, .unlocked⟩
def FLT_INTCFG.PENDING : Fld := ⟨0x160040, 0x0, 21, 1, .ro, 0, [], .asWritten, .unlocked⟩
/-- FLT_PINS, at FLT + 0x048 (R587). -/
def FLT_PINS.ERRN : Fld := ⟨0x160048, 0x0, 0, 1, .ro, 0, [], .asWritten, .unlocked⟩
def FLT_PINS.HBEAT : Fld := ⟨0x160048, 0x0, 1, 1, .ro, 0, [], .asWritten, .unlocked⟩
def FLT_PINS.HBCAUSE : Fld := ⟨0x160048, 0x0, 2, 3, .ro, 1, [], .asWritten, .unlocked⟩
/-- FLT_FIFO, at FLT + 0x060 (R588). -/
def FLT_FIFO.SOURCE : Fld := ⟨0x160060, 0x0, 0, 7, .ro, 0, [], .asWritten, .unlocked⟩
def FLT_FIFO.VALID : Fld := ⟨0x160060, 0x0, 7, 1, .ro, 0, [], .asWritten, .unlocked⟩
def FLT_FIFO.TS : Fld := ⟨0x160060, 0x0, 8, 56, .ro, 0, [], .asWritten, .unlocked⟩
/-- FLT_FIFOSTAT, at FLT + 0x068 (R588). -/
def FLT_FIFOSTAT.LEVEL : Fld := ⟨0x160068, 0x0, 0, 11, .ro, 0, [], .asWritten, .unlocked⟩
def FLT_FIFOSTAT.LOST : Fld := ⟨0x160068, 0x0, 16, 16, .ros, 0, [], .asWritten, .unlocked⟩
/-- FLT_PRIOR, at FLT + 0x080 (R589). -/
def FLT_PRIOR.SRC : Fld := ⟨0x160080, 0x8, 0, 64, .ro, 0, [], .asWritten, .unlocked⟩
/-- TEL_CTL, at TEL + 0x000 (R609). -/
def TEL_CTL.START : Fld := ⟨0x800000, 0x0, 0, 1, .rw1s, 0, [], .asWritten, .unlocked⟩
def TEL_CTL.CLRALL : Fld := ⟨0x800000, 0x0, 1, 1, .rw1s, 0, [], .asWritten, .unlocked⟩
def TEL_CTL.PERIOD : Fld := ⟨0x800000, 0x0, 16, 16, .rw, 0, [], .zeroOrRange 10 65535, .unlocked⟩
/-- TEL_SWEEPSTAT, at TEL + 0x008 (R609). -/
def TEL_SWEEPSTAT.SEQ : Fld := ⟨0x800008, 0x0, 0, 32, .ro, 0, [], .asWritten, .unlocked⟩
def TEL_SWEEPSTAT.BUSY : Fld := ⟨0x800008, 0x0, 32, 1, .ro, 0, [], .asWritten, .unlocked⟩
def TEL_SWEEPSTAT.SPAN : Fld := ⟨0x800008, 0x0, 33, 9, .ro, 0, [], .asWritten, .unlocked⟩
def TEL_SWEEPSTAT.SKIPPED : Fld := ⟨0x800008, 0x0, 48, 16, .ro, 0, [], .asWritten, .unlocked⟩
/-- TEL_SWEEPTS, at TEL + 0x010 (R609). -/
def TEL_SWEEPTS.TS : Fld := ⟨0x800010, 0x0, 0, 64, .ro, 0, [], .asWritten, .unlocked⟩
/-- TEL_CNTSEL, at TEL + 0x020 (R609). -/
def TEL_CNTSEL.COUNTER : Fld := ⟨0x800020, bank, 0, 9, .rw, 0, [], .asWritten, .unlocked⟩
/-- TEL_CNTCFG, at TEL + 0x028 (R610). -/
def TEL_CNTCFG.EVENT : Fld := ⟨0x800028, bank, 0, 10, .rw, 0, [], .asWritten, .unlocked⟩
def TEL_CNTCFG.INDEX : Fld := ⟨0x800028, bank, 10, 6, .rw, 0, [], .asWritten, .unlocked⟩
def TEL_CNTCFG.INDEX_ALL : Fld := ⟨0x800028, bank, 16, 1, .rw, 1, [], .asWritten, .unlocked⟩
def TEL_CNTCFG.SLICE_EN : Fld := ⟨0x800028, bank, 17, 1, .rw, 0, [], .asWritten, .unlocked⟩
def TEL_CNTCFG.SLICE : Fld := ⟨0x800028, bank, 18, 12, .rw, 0, [], .asWritten, .unlocked⟩
def TEL_CNTCFG.CHAIN : Fld := ⟨0x800028, bank, 30, 1, .rw, 0, [], .asWritten, .unlocked⟩
def TEL_CNTCFG.OVF_INT : Fld := ⟨0x800028, bank, 31, 1, .rw, 0, [], .asWritten, .unlocked⟩
def TEL_CNTCFG.EN : Fld := ⟨0x800028, bank, 32, 1, .rw, 0, [], .asWritten, .unlocked⟩
/-- TEL_CNTVAL, at TEL + 0x030 (R610). -/
def TEL_CNTVAL.VALUE : Fld := ⟨0x800030, bank, 0, 48, .rw, 0, [], .asWritten, .unlocked⟩
/-- TEL_OVF, at TEL + 0x040 (R611). -/
def TEL_OVF.BITS : Fld := ⟨0x800040, 0x8, 0, 64, .rw1c, 0, [], .asWritten, .unlocked⟩
/-- TEL_SNAP, at TEL + 0x1000 (R611). -/
def TEL_SNAP.VALUE : Fld := ⟨0x801000, 0x8, 0, 48, .ro, 0, [], .asWritten, .unlocked⟩
def TEL_SNAP.OVF : Fld := ⟨0x801000, 0x8, 48, 1, .ro, 0, [], .asWritten, .unlocked⟩
/-- TEL_SMPCFG, at TEL + 0x080 (R612). -/
def TEL_SMPCFG.EN : Fld := ⟨0x800080, 0x0, 0, 1, .rw, 0, [], .asWritten, .unlocked⟩
def TEL_SMPCFG.MODE : Fld := ⟨0x800080, 0x0, 1, 1, .rw, 0, [], .asWritten, .unlocked⟩
def TEL_SMPCFG.STOP : Fld := ⟨0x800080, 0x0, 2, 1, .rw, 0, [], .asWritten, .unlocked⟩
def TEL_SMPCFG.RATE : Fld := ⟨0x800080, 0x0, 3, 5, .rw, 10, [], .range 0 20, .unlocked⟩
def TEL_SMPCFG.LINKMASK : Fld := ⟨0x800080, 0x0, 8, 8, .rw, 255, [], .asWritten, .unlocked⟩
def TEL_SMPCFG.CLASSMASK : Fld := ⟨0x800080, 0x0, 16, 4, .rw, 15, [], .asWritten, .unlocked⟩
def TEL_SMPCFG.SLICE_EN : Fld := ⟨0x800080, 0x0, 20, 1, .rw, 0, [], .asWritten, .unlocked⟩
def TEL_SMPCFG.SLICE : Fld := ⟨0x800080, 0x0, 21, 12, .rw, 0, [], .asWritten, .unlocked⟩
def TEL_SMPCFG.MINLAT : Fld := ⟨0x800080, 0x0, 33, 24, .rw, 0, [], .asWritten, .unlocked⟩
/-- TEL_SMPSTAT, at TEL + 0x088 (R613). -/
def TEL_SMPSTAT.WRIDX : Fld := ⟨0x800088, 0x0, 0, 13, .ro, 0, [], .asWritten, .unlocked⟩
def TEL_SMPSTAT.FULL : Fld := ⟨0x800088, 0x0, 13, 1, .ro, 0, [], .asWritten, .unlocked⟩
def TEL_SMPSTAT.NEXTSEQ : Fld := ⟨0x800088, 0x0, 32, 32, .ro, 0, [], .asWritten, .unlocked⟩
/-- TEL_SMPRD, at TEL + 0x090 (R613). -/
def TEL_SMPRD.RDIDX : Fld := ⟨0x800090, 0x0, 0, 13, .rw, 0, [], .asWritten, .unlocked⟩
/-- TEL_SMPDROP, at TEL + 0x098 (R613). -/
def TEL_SMPDROP.DROPS : Fld := ⟨0x800098, 0x0, 0, 32, .ros, 0, [], .asWritten, .unlocked⟩
/-- TEL_SLICESEL, at TEL + 0x0A0 (R614). -/
def TEL_SLICESEL.SLICE : Fld := ⟨0x8000A0, bank, 0, 12, .rw, 0, [], .asWritten, .unlocked⟩
/-- TEL_USERADDR, at TEL + 0x0A8 (R614). -/
def TEL_USERADDR.EN : Fld := ⟨0x8000A8, bank, 0, 1, .rw, 0, [], .asWritten, .unlocked⟩
def TEL_USERADDR.LINK : Fld := ⟨0x8000A8, bank, 1, 3, .rw, 0, [], .asWritten, .unlocked⟩
def TEL_USERADDR.ADDR : Fld := ⟨0x8000A8, bank, 12, 52, .rw, 0, [], .asWritten, .unlocked⟩
/-- TEL_ERRCNT, at TEL + 0x0B0 (R614). -/
def TEL_ERRCNT.USERDMA : Fld := ⟨0x8000B0, 0x0, 0, 16, .ros, 0, [], .asWritten, .unlocked⟩
/-- TEL_THERM, at TEL + 0x200 (R615). -/
def TEL_THERM.TEMP : Fld := ⟨0x800200, 0x8, 0, 9, .ro, 0, [], .asWritten, .unlocked⟩
def TEL_THERM.VALID : Fld := ⟨0x800200, 0x8, 9, 1, .ro, 0, [], .asWritten, .unlocked⟩
def TEL_THERM.FAILED : Fld := ⟨0x800200, 0x8, 10, 1, .ro, 0, [], .asWritten, .unlocked⟩
/-- TEL_THERMSTAT, at TEL + 0x300 (R615). -/
def TEL_THERMSTAT.HOTTEST : Fld := ⟨0x800300, 0x0, 0, 9, .ro, 0, [], .asWritten, .unlocked⟩
def TEL_THERMSTAT.THROTTLE : Fld := ⟨0x800300, 0x0, 9, 1, .ro, 0, [], .asWritten, .unlocked⟩
def TEL_THERMSTAT.NVALID : Fld := ⟨0x800300, 0x0, 10, 5, .ro, 0, [], .asWritten, .unlocked⟩
def TEL_THERMSTAT.THROTTLES : Fld := ⟨0x800300, 0x0, 32, 16, .ros, 0, [], .asWritten, .unlocked⟩
/-- TEL_RAIL, at TEL + 0x340 (R616). -/
def TEL_RAIL.MV : Fld := ⟨0x800340, 0x8, 0, 16, .ro, 0, [], .asWritten, .unlocked⟩
def TEL_RAIL.CURRENT : Fld := ⟨0x800340, 0x8, 16, 16, .ro, 0, [], .asWritten, .unlocked⟩
def TEL_RAIL.POWER : Fld := ⟨0x800340, 0x8, 32, 16, .ro, 0, [], .asWritten, .unlocked⟩
def TEL_RAIL.ISENSE : Fld := ⟨0x800340, 0x8, 48, 1, .ro, 0, [], .asWritten, .unlocked⟩
/-- TEL_MARGINSEL, at TEL + 0x380 (R617). -/
def TEL_MARGINSEL.GROUP : Fld := ⟨0x800380, bank, 0, 1, .rw, 0, [], .asWritten, .unlocked⟩
def TEL_MARGINSEL.UNIT : Fld := ⟨0x800380, bank, 1, 3, .rw, 0, [], .asWritten, .unlocked⟩
def TEL_MARGINSEL.LANE : Fld := ⟨0x800380, bank, 4, 4, .rw, 0, [], .asWritten, .unlocked⟩
/-- TEL_MARGIN, at TEL + 0x388 (R617). -/
def TEL_MARGIN.HEIGHT : Fld := ⟨0x800388, bank, 0, 8, .ro, 0, [], .asWritten, .unlocked⟩
def TEL_MARGIN.WIDTH : Fld := ⟨0x800388, bank, 8, 8, .ro, 0, [], .asWritten, .unlocked⟩
def TEL_MARGIN.VALID : Fld := ⟨0x800388, bank, 16, 1, .ro, 0, [], .asWritten, .unlocked⟩
def TEL_MARGIN.HELD : Fld := ⟨0x800388, bank, 17, 1, .ro, 0, [], .asWritten, .unlocked⟩

/-- The registers of block SYS (R632). -/
def registersSYS : List Register := [
  ⟨"SYS_CTL", 0x0, 0x0, 1, 64, .strided,
    [SYS_CTL.DEV_ENABLE]⟩,
  ⟨"SYS_CHECK", 0x8, 0x0, 1, 64, .strided,
    [SYS_CHECK.CODE]⟩,
  ⟨"SYS_BOOT", 0x10, 0x0, 1, 64, .strided,
    [SYS_BOOT.STAGE, SYS_BOOT.MEMACTIVE, SYS_BOOT.CFGSRC, SYS_BOOT.SELFTEST_FAIL]⟩,
  ⟨"SYS_ID", 0x18, 0x0, 1, 64, .strided,
    [SYS_ID.DEVID, SYS_ID.STEPPING, SYS_ID.PAIRID, SYS_ID.LOCKED, SYS_ID.MAPREV]⟩,
  ⟨"SYS_SUMMARY", 0x20, 0x0, 1, 64, .strided,
    [SYS_SUMMARY.DEV_ENABLE, SYS_SUMMARY.MEMACTIVE, SYS_SUMMARY.STAGE, SYS_SUMMARY.PWRSTATE, SYS_SUMMARY.GUARD, SYS_SUMMARY.PAIRSTATE, SYS_SUMMARY.CONSTATE, SYS_SUMMARY.ERRN, SYS_SUMMARY.STICKY, SYS_SUMMARY.FROZEN, SYS_SUMMARY.YIELDING, SYS_SUMMARY.THROTTLE, SYS_SUMMARY.FALLBACK]⟩,
  ⟨"SYS_ACCERR", 0x28, 0x0, 1, 64, .strided,
    [SYS_ACCERR.OFFSET, SYS_ACCERR.PATH, SYS_ACCERR.KIND, SYS_ACCERR.WRITE, SYS_ACCERR.COUNT, SYS_ACCERR.VALID]⟩]

/-- The registers of block CLK (R632). -/
def registersCLK : List Register := [
  ⟨"CLK_STAT", 0x10000, 0x0, 1, 64, .strided,
    [CLK_STAT.REFOK, CLK_STAT.ROOT, CLK_STAT.DRAM, CLK_STAT.HOST, CLK_STAT.CON]⟩]

/-- The registers of block RST (R632). -/
def registersRST : List Register := [
  ⟨"RST_CTL", 0x20000, 0x0, 1, 64, .strided,
    [RST_CTL.COLD, RST_CTL.WARM, RST_CTL.GO, RST_CTL.CHECK, RST_CTL.BLOCK, RST_CTL.INDEX]⟩,
  ⟨"RST_LAST", 0x20008, 0x0, 1, 64, .strided,
    [RST_LAST.KIND, RST_LAST.CAUSE, RST_LAST.RAIL, RST_LAST.SOURCE, RST_LAST.WARMCNT]⟩,
  ⟨"RST_CALSTAT", 0x20010, 0x0, 1, 64, .strided,
    [RST_CALSTAT.CLAMPED, RST_CALSTAT.USER]⟩]

/-- The registers of block PWR (R632). -/
def registersPWR : List Register := [
  ⟨"PWR_CTL", 0x30000, 0x0, 1, 64, .strided,
    [PWR_CTL.NIGHT, PWR_CTL.CLEAR, PWR_CTL.CHECK]⟩,
  ⟨"PWR_CFG", 0x30008, 0x0, 1, 64, .strided,
    [PWR_CFG.HAZE_IDLE, PWR_CFG.OVC_IDLE, PWR_CFG.WAKE_LINK, PWR_CFG.WAKE_CON, PWR_CFG.WAKE_VSENSE]⟩,
  ⟨"PWR_STAT", 0x30010, 0x0, 1, 64, .strided,
    [PWR_STAT.STATE, PWR_STAT.PENDING, PWR_STAT.GUARD, PWR_STAT.LASTWAKE, PWR_STAT.NIGHTS]⟩,
  ⟨"PWR_DOMSEL", 0x30018, bank, 2, 64, .selector,
    [PWR_DOMSEL.DOMAIN]⟩,
  ⟨"PWR_DOMCTL", 0x30020, 0x0, 1, 64, .strided,
    [PWR_DOMCTL.GO, PWR_DOMCTL.ACTION, PWR_DOMCTL.CHECK, PWR_DOMCTL.REFUSER]⟩,
  ⟨"PWR_DOMSTAT", 0x30028, bank, 33, 64, .selected 0x30018,
    [PWR_DOMSTAT.STATE, PWR_DOMSTAT.HELD, PWR_DOMSTAT.WAKING, PWR_DOMSTAT.WAKES]⟩,
  ⟨"PWR_REFCNT", 0x30030, 0x0, 1, 64, .strided,
    [PWR_REFCNT.HOLD, PWR_REFCNT.ALWAYS, PWR_REFCNT.INUSE, PWR_REFCNT.TRANS]⟩,
  ⟨"PWR_REFLOG", 0x30040, 0x0, 1, 128, .strided,
    [PWR_REFLOG.TS, PWR_REFLOG.DOMAIN, PWR_REFLOG.ACTION, PWR_REFLOG.REFUSER, PWR_REFLOG.SOURCE, PWR_REFLOG.VALID]⟩]

/-- The registers of block VMON (R632). -/
def registersVMON : List Register := [
  ⟨"VMON_STAT", 0x40000, 0x0, 1, 64, .strided,
    [VMON_STAT.BELOW]⟩,
  ⟨"VMON_CFG", 0x40008, 0x0, 1, 64, .strided,
    [VMON_CFG.HYST]⟩,
  ⟨"VMON_LEVEL", 0x40100, 0x8, 7, 64, .strided,
    [VMON_LEVEL.WARN, VMON_LEVEL.RESET, VMON_LEVEL.EXCUR]⟩]

/-- The registers of block LNK (R632). -/
def registersLNK : List Register := [
  ⟨"LNK_PORTCFG", 0x50000, 0x100, 4, 32, .strided,
    [LNK_PORTCFG.BIF, LNK_PORTCFG.MAXRATE, LNK_PORTCFG.MLD, LNK_PORTCFG.LOPT_ALLOW]⟩,
  ⟨"LNK_LSTAT", 0x50400, 0x40, 8, 32, .strided,
    [LNK_LSTAT.UP, LNK_LSTAT.RATE, LNK_LSTAT.WIDTH, LNK_LSTAT.FLIT, LNK_LSTAT.DEGRADED, LNK_LSTAT.IDE_MEM, LNK_LSTAT.IDE_IO, LNK_LSTAT.DOWNCNT]⟩,
  ⟨"LNK_IDECTL", 0x50404, 0x40, 8, 32, .strided,
    [LNK_IDECTL.REQUIRE]⟩,
  ⟨"LNK_LASTDOWN", 0x50408, 0x40, 8, 64, .strided,
    [LNK_LASTDOWN.READS_DISC, LNK_LASTDOWN.WR_COMMIT, LNK_LASTDOWN.WR_DROP, LNK_LASTDOWN.CAUSE]⟩,
  ⟨"LNK_LASTDOWN_TS", 0x50410, 0x40, 8, 64, .strided,
    [LNK_LASTDOWN_TS.TS]⟩]

/-- The registers of block RTR (R632). -/
def registersRTR : List Register := [
  ⟨"RTR_DEADLINE", 0x60000, 0x0, 1, 32, .strided,
    [RTR_DEADLINE.TIME]⟩,
  ⟨"RTR_DLLOG", 0x60100, 0x10, 8, 128, .strided,
    [RTR_DLLOG.TS, RTR_DLLOG.DPALINE, RTR_DLLOG.LINK, RTR_DLLOG.LD, RTR_DLLOG.OPCLASS, RTR_DLLOG.CAUSE, RTR_DLLOG.VALID]⟩,
  ⟨"RTR_DENYLOG", 0x60180, 0x0, 1, 128, .strided,
    [RTR_DENYLOG.TS, RTR_DENYLOG.DPALINE, RTR_DENYLOG.LINK, RTR_DENYLOG.LD, RTR_DENYLOG.OPCLASS, RTR_DENYLOG.CAUSE, RTR_DENYLOG.VALID]⟩]

/-- The registers of block MAP (R632). -/
def registersMAP : List Register := [
  ⟨"MAP_CLAIMSEL", 0x70000, bank, 2, 32, .selector,
    [MAP_CLAIMSEL.CLAIM]⟩,
  ⟨"MAP_CLAIMBASE", 0x70008, bank, 8192, 32, .selected 0x70000,
    [MAP_CLAIMBASE.BASE]⟩,
  ⟨"MAP_CLAIMSIZE", 0x70010, bank, 8192, 32, .selected 0x70000,
    [MAP_CLAIMSIZE.SIZE]⟩,
  ⟨"MAP_CLAIMATTR", 0x70018, bank, 8192, 32, .selected 0x70000,
    [MAP_CLAIMATTR.COMMIT, MAP_CLAIMATTR.TYPE, MAP_CLAIMATTR.FLOOR, MAP_CLAIMATTR.SHARED, MAP_CLAIMATTR.SEALED, MAP_CLAIMATTR.SEAL_DENSE, MAP_CLAIMATTR.PIN_ALLOWED, MAP_CLAIMATTR.SNAPSHOT_ALLOWED, MAP_CLAIMATTR.SLICE]⟩,
  ⟨"MAP_CLAIMGRANT0", 0x70020, bank, 8192, 64, .selected 0x70000,
    [MAP_CLAIMGRANT0.GRANTS]⟩,
  ⟨"MAP_CLAIMGRANT1", 0x70028, bank, 8192, 64, .selected 0x70000,
    [MAP_CLAIMGRANT1.GRANTS]⟩,
  ⟨"MAP_CLAIMSTAT", 0x70030, bank, 8192, 32, .selected 0x70000,
    [MAP_CLAIMSTAT.RELEASING, MAP_CLAIMSTAT.SEAL_READY]⟩,
  ⟨"MAP_CHECK", 0x70038, 0x0, 1, 32, .strided,
    [MAP_CHECK.CODE]⟩,
  ⟨"MAP_CLAIMUSED", 0x70040, bank, 8192, 64, .selected 0x70000,
    [MAP_CLAIMUSED.BYTES]⟩,
  ⟨"MAP_DPACAP", 0x70100, 0x0, 1, 32, .strided,
    [MAP_DPACAP.CAP]⟩,
  ⟨"MAP_SQUALL", 0x70108, 0x0, 1, 32, .strided,
    [MAP_SQUALL.PCT]⟩,
  ⟨"MAP_STORMCFG", 0x7010C, 0x0, 1, 32, .strided,
    [MAP_STORMCFG.PCT]⟩,
  ⟨"MAP_CAPINSTALLED", 0x70200, 0x0, 1, 64, .strided,
    [MAP_CAPINSTALLED.BYTES]⟩,
  ⟨"MAP_CAPUSABLE", 0x70208, 0x0, 1, 64, .strided,
    [MAP_CAPUSABLE.BYTES]⟩,
  ⟨"MAP_CAPCHARGED", 0x70210, 0x0, 1, 64, .strided,
    [MAP_CAPCHARGED.BYTES]⟩,
  ⟨"MAP_CAPSHAREDFREE", 0x70218, 0x0, 1, 64, .strided,
    [MAP_CAPSHAREDFREE.BYTES]⟩,
  ⟨"MAP_CAPSTORMSIZE", 0x70220, 0x0, 1, 64, .strided,
    [MAP_CAPSTORMSIZE.BYTES]⟩,
  ⟨"MAP_CAPSTORMFREE", 0x70228, 0x0, 1, 64, .strided,
    [MAP_CAPSTORMFREE.BYTES]⟩,
  ⟨"MAP_CAPMOVE", 0x70230, 0x0, 1, 64, .strided,
    [MAP_CAPMOVE.BYTES]⟩,
  ⟨"MAP_ERRCNT", 0x70280, 0x0, 1, 64, .strided,
    [MAP_ERRCNT.REPAIRED, MAP_ERRCNT.LOST, MAP_ERRCNT.INCOH, MAP_ERRCNT.DROPS]⟩,
  ⟨"MAP_ERRCNT2", 0x70288, 0x0, 1, 64, .strided,
    [MAP_ERRCNT2.LOSTWR]⟩,
  ⟨"MAP_FLOG", 0x70300, 0x10, 8, 128, .strided,
    [MAP_FLOG.TS, MAP_FLOG.DPN, MAP_FLOG.LINE, MAP_FLOG.KIND, MAP_FLOG.COPY, MAP_FLOG.VALID]⟩]

/-- The registers of block CIR (R632). -/
def registersCIR : List Register := [
  ⟨"CIR_PINCFG", 0x80000, 0x0, 1, 64, .strided,
    [CIR_PINCFG.LIMIT, CIR_PINCFG.DRIFTMAX]⟩,
  ⟨"CIR_SLICESEL", 0x80008, bank, 2, 64, .selector,
    [CIR_SLICESEL.SLICE]⟩,
  ⟨"CIR_PINQUOTA", 0x80010, bank, 4096, 64, .selected 0x80008,
    [CIR_PINQUOTA.QUOTA, CIR_PINQUOTA.USED]⟩,
  ⟨"CIR_PINTOTAL", 0x80018, 0x0, 1, 64, .strided,
    [CIR_PINTOTAL.PINNED, CIR_PINTOTAL.DRIFT]⟩,
  ⟨"CIR_HOLDCFG", 0x80020, 0x0, 1, 64, .strided,
    [CIR_HOLDCFG.LIMIT, CIR_HOLDCFG.HELD]⟩,
  ⟨"CIR_FLUSH", 0x80028, 0x0, 1, 64, .strided,
    [CIR_FLUSH.START, CIR_FLUSH.INVAL, CIR_FLUSH.SCOPE, CIR_FLUSH.CLAIM, CIR_FLUSH.LEFTHELD]⟩,
  ⟨"CIR_SWEEP", 0x80030, 0x0, 1, 64, .strided,
    [CIR_SWEEP.START, CIR_SWEEP.CAUSE, CIR_SWEEP.CORR, CIR_SWEEP.UNCORR]⟩,
  ⟨"CIR_ERRCNT", 0x80040, 0x0, 1, 64, .strided,
    [CIR_ERRCNT.CE, CIR_ERRCNT.UE, CIR_ERRCNT.SALV, CIR_ERRCNT.SALVLOST]⟩,
  ⟨"CIR_ERRCNT2", 0x80048, 0x0, 1, 64, .strided,
    [CIR_ERRCNT2.HOLDDROP, CIR_ERRCNT2.TAGCE, CIR_ERRCNT2.RETIRED]⟩,
  ⟨"CIR_SALVSTAT", 0x80050, 0x0, 1, 64, .strided,
    [CIR_SALVSTAT.VALID]⟩,
  ⟨"CIR_FUSESTAT", 0x80058, 0x0, 1, 64, .strided,
    [CIR_FUSESTAT.ROWS_USED, CIR_FUSESTAT.ROWS_TOTAL, CIR_FUSESTAT.COLS_USED, CIR_FUSESTAT.COLS_TOTAL]⟩]

/-- The registers of block PLC (R632). -/
def registersPLC : List Register := [
  ⟨"PLC_EPOCH", 0x90000, 0x0, 1, 64, .strided,
    [PLC_EPOCH.LEN, PLC_EPOCH.NUM]⟩,
  ⟨"PLC_HEATCFG", 0x90008, 0x0, 1, 64, .strided,
    [PLC_HEATCFG.RD, PLC_HEATCFG.WR, PLC_HEATCFG.NFETCH, PLC_HEATCFG.MIRWR]⟩,
  ⟨"PLC_THRESH", 0x90010, 0x0, 1, 64, .strided,
    [PLC_THRESH.PROMOTE_T, PLC_THRESH.DEMOTE_T, PLC_THRESH.PIN_T, PLC_THRESH.AMP_MAX]⟩,
  ⟨"PLC_BUDGET", 0x90018, 0x0, 1, 64, .strided,
    [PLC_BUDGET.PROMOTE_MAX, PLC_BUDGET.DEMOTE_MAX, PLC_BUDGET.COMPACT_MAX]⟩,
  ⟨"PLC_MOVECFG", 0x90020, 0x0, 1, 64, .strided,
    [PLC_MOVECFG.MAXPASS, PLC_MOVECFG.SWITCHMAX, PLC_MOVECFG.SWITCHTRY, PLC_MOVECFG.MINGAIN, PLC_MOVECFG.PROMOTE_EN, PLC_MOVECFG.DEMOTE_EN, PLC_MOVECFG.COMPACT_EN, PLC_MOVECFG.PIN_EN]⟩,
  ⟨"PLC_SCANCFG", 0x90028, 0x0, 1, 64, .strided,
    [PLC_SCANCFG.RATE, PLC_SCANCFG.FRAG_T]⟩,
  ⟨"PLC_APPLY", 0x90040, 0x0, 1, 64, .strided,
    [PLC_APPLY.APPLY, PLC_APPLY.CHECK]⟩,
  ⟨"PLC_CLAIMSEL", 0x90048, bank, 2, 64, .selector,
    [PLC_CLAIMSEL.CLAIM]⟩,
  ⟨"PLC_CLAIMPOL", 0x90050, bank, 8192, 64, .selected 0x90048,
    [PLC_CLAIMPOL.MODE]⟩,
  ⟨"PLC_STATUS", 0x90058, 0x0, 1, 64, .strided,
    [PLC_STATUS.MOVES, PLC_STATUS.PAUSED, PLC_STATUS.FALLBACK, PLC_STATUS.SCANNING, PLC_STATUS.SCANPASS]⟩,
  ⟨"PLC_EPOCHREP0", 0x90060, 0x0, 1, 64, .strided,
    [PLC_EPOCHREP0.PROMOTED, PLC_EPOCHREP0.DEMOTED, PLC_EPOCHREP0.COMPACTED, PLC_EPOCHREP0.ABORTED]⟩,
  ⟨"PLC_EPOCHREP1", 0x90068, 0x0, 1, 64, .strided,
    [PLC_EPOCHREP1.DEFERRED, PLC_EPOCHREP1.INCOMP, PLC_EPOCHREP1.SWITCH_MAX, PLC_EPOCHREP1.AMP]⟩,
  ⟨"PLC_EPOCHREP2", 0x90070, 0x0, 1, 64, .strided,
    [PLC_EPOCHREP2.EPOCH, PLC_EPOCHREP2.CARRIED]⟩,
  ⟨"PLC_ERRCNT", 0x90080, 0x0, 1, 64, .strided,
    [PLC_ERRCNT.MOVEUE, PLC_ERRCNT.SWCANCEL, PLC_ERRCNT.QOVF, PLC_ERRCNT.HANG]⟩]

/-- The registers of block NMB (R632). -/
def registersNMB : List Register := [
  ⟨"NMB_PIPECFG", 0xA0000, 0x0, 1, 64, .strided,
    [NMB_PIPECFG.HOSTRES]⟩,
  ⟨"NMB_PIPESTAT", 0xA0008, 0x0, 1, 64, .strided,
    [NMB_PIPESTAT.CMP, NMB_PIPESTAT.DCMP]⟩,
  ⟨"NMB_HEAPCFG", 0xA0010, 0x0, 1, 64, .strided,
    [NMB_HEAPCFG.URGENT]⟩,
  ⟨"NMB_HEAPSEG", 0xA0018, 0x0, 1, 64, .strided,
    [NMB_HEAPSEG.SEGS, NMB_HEAPSEG.OPEN]⟩,
  ⟨"NMB_HEAPLIVE", 0xA0020, 0x0, 1, 64, .strided,
    [NMB_HEAPLIVE.GRANULES]⟩,
  ⟨"NMB_HEAPRESIDUE", 0xA0028, 0x0, 1, 64, .strided,
    [NMB_HEAPRESIDUE.GRANULES]⟩,
  ⟨"NMB_ERRCNT", 0xA0040, 0x0, 1, 64, .strided,
    [NMB_ERRCNT.BAD, NMB_ERRCNT.RETRY, NMB_ERRCNT.ENCMIS, NMB_ERRCNT.HEAPWAIT]⟩,
  ⟨"NMB_ERRLOG", 0xA0050, 0x0, 1, 128, .strided,
    [NMB_ERRLOG.TS, NMB_ERRLOG.DPN, NMB_ERRLOG.BLOCK, NMB_ERRLOG.KIND, NMB_ERRLOG.RETRYOK, NMB_ERRLOG.COUNT, NMB_ERRLOG.VALID]⟩]

/-- The registers of block SNP (R632). -/
def registersSNP : List Register := [
  ⟨"SNP_SLOTSEL", 0xB0000, bank, 2, 64, .selector,
    [SNP_SLOTSEL.SLOT]⟩,
  ⟨"SNP_ARM", 0xB0008, bank, 256, 64, .selected 0xB0000,
    [SNP_ARM.ARM, SNP_ARM.TARGET, SNP_ARM.CLAIM]⟩,
  ⟨"SNP_STATUS", 0xB0018, bank, 256, 64, .selected 0xB0000,
    [SNP_STATUS.STATE, SNP_STATUS.PAUSED, SNP_STATUS.ABORTCAUSE, SNP_STATUS.CHECK, SNP_STATUS.PEER, SNP_STATUS.CURSOR]⟩,
  ⟨"SNP_CUTTS", 0xB0020, bank, 256, 64, .selected 0xB0000,
    [SNP_CUTTS.CUTTS]⟩,
  ⟨"SNP_USE", 0xB0028, bank, 256, 64, .selected 0xB0000,
    [SNP_USE.USED, SNP_USE.PEAK]⟩,
  ⟨"SNP_COUNT", 0xB0030, bank, 256, 64, .selected 0xB0000,
    [SNP_COUNT.CAPTURES, SNP_COUNT.HOLDMAX]⟩,
  ⟨"SNP_BYTES", 0xB0038, bank, 256, 64, .selected 0xB0000,
    [SNP_BYTES.BYTES]⟩,
  ⟨"SNP_STREAMID", 0xB0040, bank, 256, 64, .selected 0xB0000,
    [SNP_STREAMID.STREAMID]⟩,
  ⟨"SNP_RESERVE", 0xB0010, bank, 256, 64, .selected 0xB0000,
    [SNP_RESERVE.SIZE, SNP_RESERVE.STAGEMAX]⟩,
  ⟨"SNP_ERRCNT", 0xB0100, 0x0, 1, 64, .strided,
    [SNP_ERRCNT.ABORTS, SNP_ERRCNT.CAPPOISON, SNP_ERRCNT.IMPBAD, SNP_ERRCNT.DMAERR]⟩]

/-- The registers of block DMC (R632). -/
def registersDMC : List Register := [
  ⟨"DMC_CFG", 0xC0000, 0x0, 1, 64, .strided,
    [DMC_CFG.SPEED, DMC_CFG.EXCLUDE]⟩,
  ⟨"DMC_COMMIT", 0xC0008, 0x0, 1, 64, .strided,
    [DMC_COMMIT.COMMIT, DMC_COMMIT.CHECK]⟩,
  ⟨"DMC_METACFG", 0xC0010, 0x0, 1, 64, .strided,
    [DMC_METACFG.PRIMARY, DMC_METACFG.SECONDARY]⟩,
  ⟨"DMC_SCHED", 0xC0018, 0x0, 1, 64, .strided,
    [DMC_SCHED.WQ_LOW, DMC_SCHED.WQ_HIGH, DMC_SCHED.WQ_PANIC, DMC_SCHED.PANIC_WAIT, DMC_SCHED.AGEMAX]⟩,
  ⟨"DMC_PWR", 0xC0020, 0x0, 1, 64, .strided,
    [DMC_PWR.PDTIMER]⟩,
  ⟨"DMC_THERM", 0xC0028, 0x0, 1, 64, .strided,
    [DMC_THERM.THROTTLE, DMC_THERM.CRIT]⟩,
  ⟨"DMC_SPARECFG", 0xC0030, 0x0, 1, 64, .strided,
    [DMC_SPARECFG.RATE]⟩,
  ⟨"DMC_INITSTAT", 0xC0038, 0x0, 1, 64, .strided,
    [DMC_INITSTAT.DONE, DMC_INITSTAT.PCT]⟩,
  ⟨"DMC_CHCFG", 0xC0100, 0x40, 16, 64, .strided,
    [DMC_CHCFG.MODE, DMC_CHCFG.AORDER, DMC_CHCFG.REFMODE]⟩,
  ⟨"DMC_CHSTAT", 0xC0108, 0x40, 16, 64, .strided,
    [DMC_CHSTAT.POP, DMC_CHSTAT.TRAINED, DMC_CHSTAT.FROZEN, DMC_CHSTAT.FRZCAUSE, DMC_CHSTAT.KEPT, DMC_CHSTAT.SPARESTAT, DMC_CHSTAT.RETIRED, DMC_CHSTAT.RANKS, DMC_CHSTAT.THROTTLED, DMC_CHSTAT.STALEFULL, DMC_CHSTAT.RELEASING, DMC_CHSTAT.RELREFUSED, DMC_CHSTAT.SPARECUR]⟩,
  ⟨"DMC_FRZCTL", 0xC0110, 0x40, 16, 64, .strided,
    [DMC_FRZCTL.RELEASE]⟩,
  ⟨"DMC_SPARECTL", 0xC0118, 0x40, 16, 64, .strided,
    [DMC_SPARECTL.START, DMC_SPARECTL.RANK]⟩,
  ⟨"DMC_TEMP", 0xC0120, 0x40, 16, 64, .strided,
    [DMC_TEMP.DIMM0, DMC_TEMP.DIMM1]⟩,
  ⟨"DMC_TRAIN", 0xC0128, 0x40, 16, 64, .strided,
    [DMC_TRAIN.PHASE, DMC_TRAIN.FAIL, DMC_TRAIN.FAST, DMC_TRAIN.FAILRANK, DMC_TRAIN.DURATION]⟩,
  ⟨"DMC_ERRCNT", 0xC0130, 0x40, 16, 64, .strided,
    [DMC_ERRCNT.UE, DMC_ERRCNT.CAPAR, DMC_ERRCNT.FRZPOISON, DMC_ERRCNT.STALE]⟩]

/-- The registers of block MED (R632). -/
def registersMED : List Register := [
  ⟨"MED_CECFG", 0xD0000, 0x0, 1, 64, .strided,
    [MED_CECFG.ROWTHRESH, MED_CECFG.DEVROWS, MED_CECFG.ERASE_EN]⟩,
  ⟨"MED_CELOGSEL", 0xD0008, bank, 2, 64, .selector,
    [MED_CELOGSEL.INDEX]⟩,
  ⟨"MED_CELOG0", 0xD0010, bank, 32, 64, .selected 0xD0008,
    [MED_CELOG0.FIRST_TS]⟩,
  ⟨"MED_CELOG1", 0xD0018, bank, 32, 64, .selected 0xD0008,
    [MED_CELOG1.LAST_TS]⟩,
  ⟨"MED_CELOG2", 0xD0020, bank, 32, 64, .selected 0xD0008,
    [MED_CELOG2.CHANNEL, MED_CELOG2.SUBCH, MED_CELOG2.RANK, MED_CELOG2.BG, MED_CELOG2.BANK, MED_CELOG2.ROW, MED_CELOG2.DEVICE, MED_CELOG2.COUNT, MED_CELOG2.ROWFLAG, MED_CELOG2.VALID]⟩,
  ⟨"MED_CESTAT", 0xD0028, 0x0, 1, 64, .strided,
    [MED_CESTAT.VALID, MED_CESTAT.LOST]⟩,
  ⟨"MED_SCRUBCFG", 0xD0040, 0x0, 1, 64, .strided,
    [MED_SCRUBCFG.RATE]⟩,
  ⟨"MED_SCRUBCTL", 0xD0048, 0x0, 1, 64, .strided,
    [MED_SCRUBCTL.START, MED_SCRUBCTL.STOP, MED_SCRUBCTL.SCOPE, MED_SCRUBCTL.VERIFY, MED_SCRUBCTL.CHANNEL]⟩,
  ⟨"MED_SCRUBBASE", 0xD0050, 0x0, 1, 64, .strided,
    [MED_SCRUBBASE.ADDR]⟩,
  ⟨"MED_SCRUBLEN", 0xD0058, 0x0, 1, 64, .strided,
    [MED_SCRUBLEN.LEN]⟩,
  ⟨"MED_SCRUBCUR", 0xD0060, 0x0, 1, 64, .strided,
    [MED_SCRUBCUR.CURSOR]⟩,
  ⟨"MED_SCRUBSUM", 0xD0080, 0x8, 16, 64, .strided,
    [MED_SCRUBSUM.BYTES]⟩,
  ⟨"MED_ERASE", 0xD0100, 0x8, 16, 64, .strided,
    [MED_ERASE.MARKS]⟩,
  ⟨"MED_POISONSTAT", 0xD0180, 0x0, 1, 64, .strided,
    [MED_POISONSTAT.ENTRIES, MED_POISONSTAT.FULL, MED_POISONSTAT.OVERFLOW, MED_POISONSTAT.COARSE, MED_POISONSTAT.COARSEDROP]⟩,
  ⟨"MED_POISONOVTS", 0xD0188, 0x0, 1, 64, .strided,
    [MED_POISONOVTS.TS]⟩,
  ⟨"MED_PPRCTL", 0xD0200, 0x0, 1, 64, .strided,
    [MED_PPRCTL.START, MED_PPRCTL.CHANNEL, MED_PPRCTL.SUBCH, MED_PPRCTL.RANK, MED_PPRCTL.BG, MED_PPRCTL.BANK, MED_PPRCTL.ROW]⟩,
  ⟨"MED_PPRSTAT", 0xD0208, 0x0, 1, 64, .strided,
    [MED_PPRSTAT.BUSY, MED_PPRSTAT.RESULT, MED_PPRSTAT.POISONED]⟩,
  ⟨"MED_DIAGSEL", 0xD0300, bank, 2, 64, .selector,
    [MED_DIAGSEL.CHANNEL, MED_DIAGSEL.INDEX]⟩,
  ⟨"MED_DIAGDATA0", 0xD0308, 0x0, 1, 64, .strided,
    [MED_DIAGDATA0.DATA]⟩,
  ⟨"MED_DIAGDATA1", 0xD0310, 0x0, 1, 64, .strided,
    [MED_DIAGDATA1.DATA]⟩,
  ⟨"MED_DIAGINFO", 0xD0318, 0x0, 1, 64, .strided,
    [MED_DIAGINFO.VALID, MED_DIAGINFO.NCMD, MED_DIAGINFO.NUE]⟩,
  ⟨"MED_DIAGTS", 0xD0320, 0x0, 1, 64, .strided,
    [MED_DIAGTS.TS]⟩]

/-- The registers of block SEC (R632). -/
def registersSEC : List Register := [
  ⟨"SEC_VEILSTAT", 0xE0000, 0x0, 1, 64, .strided,
    [SEC_VEILSTAT.GEN, SEC_VEILSTAT.ROTATING, SEC_VEILSTAT.PCT, SEC_VEILSTAT.ROTCOUNT]⟩,
  ⟨"SEC_VEILCFG", 0xE0008, 0x0, 1, 64, .strided,
    [SEC_VEILCFG.ROTATE, SEC_VEILCFG.RATE]⟩,
  ⟨"SEC_KEYSEL", 0xE0010, bank, 2, 64, .selector,
    [SEC_KEYSEL.KEYID]⟩,
  ⟨"SEC_KEYSTAT", 0xE0018, bank, 1024, 64, .selected 0xE0010,
    [SEC_KEYSTAT.STATE, SEC_KEYSTAT.BREACHED, SEC_KEYSTAT.RECOVERY, SEC_KEYSTAT.REKEY, SEC_KEYSTAT.CLAIM, SEC_KEYSTAT.PAGES]⟩,
  ⟨"SEC_KEYALLOC", 0xE0020, bank, 1024, 64, .selected 0xE0010,
    [SEC_KEYALLOC.NEXT]⟩,
  ⟨"SEC_REGIONCTL", 0xE0028, 0x0, 1, 64, .strided,
    [SEC_REGIONCTL.ENABLE, SEC_REGIONCTL.CHECK, SEC_REGIONCTL.CLAIM]⟩,
  ⟨"SEC_ERRCNT", 0xE0030, 0x0, 1, 64, .strided,
    [SEC_ERRCNT.MACFAIL, SEC_ERRCNT.TREECE, SEC_ERRCNT.BREACH, SEC_ERRCNT.BREACHDROP]⟩,
  ⟨"SEC_BREACHSTAT", 0xE0038, 0x0, 1, 64, .strided,
    [SEC_BREACHSTAT.VALID]⟩,
  ⟨"SEC_BREACH", 0xE0100, 0x10, 64, 128, .strided,
    [SEC_BREACH.TS, SEC_BREACH.KEYID, SEC_BREACH.LEVEL, SEC_BREACH.INDEX, SEC_BREACH.CAUSE, SEC_BREACH.PROGRESS, SEC_BREACH.VALID]⟩]

/-- The registers of block HAL (R632). -/
def registersHAL : List Register := [
  ⟨"HAL_TIMING", 0xF0000, 0x0, 1, 64, .strided,
    [HAL_TIMING.TBI, HAL_TIMING.THOLD, HAL_TIMING.FREEWAYS]⟩,
  ⟨"HAL_HOSTSTAT", 0xF0008, 0x0, 1, 64, .strided,
    [HAL_HOSTSTAT.FENCED, HAL_HOSTSTAT.SWEEP, HAL_HOSTSTAT.REVOKING]⟩,
  ⟨"HAL_HOSTCTL", 0xF0010, 0x0, 1, 64, .strided,
    [HAL_HOSTCTL.UNFENCE, HAL_HOSTCTL.FENCE]⟩,
  ⟨"HAL_OCC", 0xF0018, 0x0, 1, 64, .strided,
    [HAL_OCC.ENTRIES, HAL_OCC.WAITQ, HAL_OCC.OPEN]⟩,
  ⟨"HAL_PEAK", 0xF0020, 0x0, 1, 64, .strided,
    [HAL_PEAK.WAITMAX, HAL_PEAK.BIMAX, HAL_PEAK.CLEAR]⟩,
  ⟨"HAL_ERRCNT", 0xF0040, 0x0, 1, 64, .strided,
    [HAL_ERRCNT.BITO, HAL_ERRCNT.LATERSP, HAL_ERRCNT.EXPIRED, HAL_ERRCNT.FENCEDREQ]⟩,
  ⟨"HAL_ERRCNT2", 0xF0048, 0x0, 1, 64, .strided,
    [HAL_ERRCNT2.DIRCE, HAL_ERRCNT2.DIRUE, HAL_ERRCNT2.WQFULL, HAL_ERRCNT2.PROTO]⟩,
  ⟨"HAL_TOLOG", 0xF0100, 0x10, 8, 128, .strided,
    [HAL_TOLOG.TS, HAL_TOLOG.DPALINE, HAL_TOLOG.HOLDER, HAL_TOLOG.REQLINK, HAL_TOLOG.STATE, HAL_TOLOG.POISONED, HAL_TOLOG.CAUSE, HAL_TOLOG.VALID]⟩]

/-- The registers of block QUE (R632). -/
def registersQUE : List Register := [
  ⟨"QUE_SEL", 0x100000, bank, 2, 64, .selector,
    [QUE_SEL.QID]⟩,
  ⟨"QUE_SQBASE", 0x100008, bank, 65536, 64, .selected 0x100000,
    [QUE_SQBASE.ADDR]⟩,
  ⟨"QUE_CQBASE", 0x100010, bank, 65536, 64, .selected 0x100000,
    [QUE_CQBASE.ADDR]⟩,
  ⟨"QUE_CFG", 0x100018, bank, 65536, 64, .selected 0x100000,
    [QUE_CFG.DEPTHLOG, QUE_CFG.LINK, QUE_CFG.VECTOR, QUE_CFG.INTEN]⟩,
  ⟨"QUE_CTL", 0x100020, bank, 65536, 64, .selected 0x100000,
    [QUE_CTL.ENABLE, QUE_CTL.RESIZE, QUE_CTL.CHECK]⟩,
  ⟨"QUE_STAT", 0x100028, bank, 65536, 64, .selected 0x100000,
    [QUE_STAT.STATE, QUE_STAT.ERRCAUSE, QUE_STAT.SQHEAD, QUE_STAT.CQTAIL, QUE_STAT.PHASE, QUE_STAT.RUNNING]⟩,
  ⟨"QUE_NEXTSQ", 0x100030, bank, 65536, 64, .selected 0x100000,
    [QUE_NEXTSQ.DEPTHLOG, QUE_NEXTSQ.ADDR]⟩,
  ⟨"QUE_NEXTCQ", 0x100038, bank, 65536, 64, .selected 0x100000,
    [QUE_NEXTCQ.ADDR]⟩,
  ⟨"QUE_ERRCNT", 0x100100, 0x0, 1, 64, .strided,
    [QUE_ERRCNT.DBERR, QUE_ERRCNT.DMAERR, QUE_ERRCNT.DBIGNORED, QUE_ERRCNT.LATEDROP]⟩]

/-- The registers of block SLC (R632). -/
def registersSLC : List Register := [
  ⟨"SLC_SEL", 0x110000, bank, 2, 64, .selector,
    [SLC_SEL.SLICE]⟩,
  ⟨"SLC_CFG", 0x110008, bank, 4096, 64, .selected 0x110000,
    [SLC_CFG.PASID, SLC_CFG.TEL_USER]⟩,
  ⟨"SLC_CTL", 0x110010, bank, 4096, 64, .selected 0x110000,
    [SLC_CTL.ENABLE, SLC_CTL.RESET, SLC_CTL.CHECK]⟩,
  ⟨"SLC_STAT", 0x110018, bank, 4096, 64, .selected 0x110000,
    [SLC_STAT.GEN, SLC_STAT.RESETTING, SLC_STAT.QUEUES]⟩,
  ⟨"SLC_LATE", 0x110020, bank, 4096, 64, .selected 0x110000,
    [SLC_LATE.DROPS, SLC_LATE.DBIGNORED]⟩,
  ⟨"SLC_DBSEL", 0x110040, bank, 2, 64, .selector,
    [SLC_DBSEL.PAGE]⟩,
  ⟨"SLC_DBOWN", 0x110048, bank, 1024, 64, .selected 0x110040,
    [SLC_DBOWN.ASSIGN, SLC_DBOWN.FREE, SLC_DBOWN.OWNED, SLC_DBOWN.CHECK, SLC_DBOWN.SLICE, SLC_DBOWN.OWNER]⟩]

/-- The registers of block QOS (R632). -/
def registersQOS : List Register := [
  ⟨"QOS_PROFILE", 0x120000, 0x0, 1, 64, .strided,
    [QOS_PROFILE.ENABLE, QOS_PROFILE.CHECK]⟩,
  ⟨"QOS_STATUS", 0x120008, 0x0, 1, 64, .strided,
    [QOS_STATUS.YIELDING, QOS_STATUS.PANIC]⟩,
  ⟨"QOS_BUCKET", 0x120100, 0x20, 15, 64, .strided,
    [QOS_BUCKET.RATE, QOS_BUCKET.BURST, QOS_BUCKET.YIELD]⟩,
  ⟨"QOS_URG", 0x120108, 0x20, 15, 64, .strided,
    [QOS_URG.U1, QOS_URG.U2, QOS_URG.U3, QOS_URG.TARGET]⟩,
  ⟨"QOS_STAT", 0x120110, 0x20, 15, 64, .strided,
    [QOS_STAT.URGENCY, QOS_STAT.PRIORITY, QOS_STAT.LEVEL, QOS_STAT.TOKENS, QOS_STAT.AGE, QOS_STAT.HELD]⟩,
  ⟨"QOS_CNT", 0x120118, 0x20, 15, 64, .strided,
    [QOS_CNT.GRANTED, QOS_CNT.EMPTY]⟩]

/-- The registers of block CON (R632). -/
def registersCON : List Register := [
  ⟨"CON_CTL", 0x130000, 0x0, 1, 64, .strided,
    [CON_CTL.LINKEN, CON_CTL.RETRAIN, CON_CTL.DOWN, CON_CTL.READD]⟩,
  ⟨"CON_CFG", 0x130008, 0x0, 1, 64, .strided,
    [CON_CFG.REPLAY_TO, CON_CFG.HBMISS, CON_CFG.SWAPTHR, CON_CFG.DROPTHR, CON_CFG.PKTWAIT]⟩,
  ⟨"CON_STAT", 0x130010, 0x0, 1, 64, .strided,
    [CON_STAT.STATE, CON_STAT.BUNDLES, CON_STAT.HBOK, CON_STAT.KEYPHASE, CON_STAT.REPLAYS, CON_STAT.RETRAINS, CON_STAT.UNACK, CON_STAT.RXSPARE, CON_STAT.TXSPARE, CON_STAT.DOWNCAUSE]⟩,
  ⟨"CON_ERRCNT", 0x130040, 0x0, 1, 64, .strided,
    [CON_ERRCNT.CRCFAIL, CON_ERRCNT.AUTH, CON_ERRCNT.REPLAYS, CON_ERRCNT.RETRAINS]⟩,
  ⟨"CON_ERRCNT2", 0x130048, 0x0, 1, 64, .strided,
    [CON_ERRCNT2.UNCORRCW, CON_ERRCNT2.SWAPS, CON_ERRCNT2.DROPS, CON_ERRCNT2.DOWNS]⟩,
  ⟨"CON_FECCORR", 0x130050, 0x0, 1, 64, .strided,
    [CON_FECCORR.CORRECTED]⟩,
  ⟨"CON_LASTDOWN_TS", 0x130058, 0x0, 1, 64, .strided,
    [CON_LASTDOWN_TS.TS]⟩]

/-- The registers of block PAR (R632). -/
def registersPAR : List Register := [
  ⟨"PAR_CTL", 0x140000, 0x0, 1, 64, .strided,
    [PAR_CTL.ENABLE, PAR_CTL.TAKEOVER, PAR_CTL.GIVEBACK, PAR_CTL.FENCE, PAR_CTL.DISCARD, PAR_CTL.FORCE, PAR_CTL.CHECK]⟩,
  ⟨"PAR_CFG", 0x140008, 0x0, 1, 64, .strided,
    [PAR_CFG.MODE, PAR_CFG.GRANLOG, PAR_CFG.PTIMEOUT, PAR_CFG.ASYNCWIN]⟩,
  ⟨"PAR_STAT", 0x140010, 0x0, 1, 64, .strided,
    [PAR_STAT.STATE, PAR_STAT.HOME, PAR_STAT.ROLE, PAR_STAT.FWD, PAR_STAT.PEERSTATE, PAR_STAT.PEERDIRTY, PAR_STAT.UNRESP, PAR_STAT.PEERCHECK]⟩,
  ⟨"PAR_EPOCH", 0x140018, 0x0, 1, 64, .strided,
    [PAR_EPOCH.CUR, PAR_EPOCH.PEER]⟩,
  ⟨"PAR_TAKEOVER", 0x140020, 0x0, 1, 64, .strided,
    [PAR_TAKEOVER.EPOCH]⟩,
  ⟨"PAR_JSTAT", 0x140028, 0x0, 1, 64, .strided,
    [PAR_JSTAT.ENTRIES, PAR_JSTAT.OLDEST]⟩,
  ⟨"PAR_RSSTAT", 0x140030, 0x0, 1, 64, .strided,
    [PAR_RSSTAT.OUTBITS, PAR_RSSTAT.COPYLEFT]⟩,
  ⟨"PAR_PEER", 0x140038, 0x0, 1, 64, .strided,
    [PAR_PEER.JOURNAL, PAR_PEER.OUTBITS]⟩,
  ⟨"PAR_ERRCNT", 0x140040, 0x0, 1, 64, .strided,
    [PAR_ERRCNT.ACKLATE, PAR_ERRCNT.PEERFIX, PAR_ERRCNT.PEERFAIL, PAR_ERRCNT.NOTHOME]⟩]

/-- The registers of block ENG (R632). -/
def registersENG : List Register := [
  ⟨"ENG_STAT", 0x150000, 0x0, 1, 64, .strided,
    [ENG_STAT.ZENITH_UP, ENG_STAT.HORIZON_UP, ENG_STAT.CORES, ENG_STAT.LOCKED, ENG_STAT.DEBUG_OPEN]⟩,
  ⟨"ENG_BOOTSTAT", 0x150008, 0x0, 1, 64, .strided,
    [ENG_BOOTSTAT.STAGE, ENG_BOOTSTAT.ZSLOT, ENG_BOOTSTAT.HSLOT, ENG_BOOTSTAT.CAUSE_A, ENG_BOOTSTAT.CAUSE_B]⟩,
  ⟨"ENG_SVN", 0x150010, 0x0, 1, 64, .strided,
    [ENG_SVN.ZFUSE, ENG_SVN.HFUSE, ENG_SVN.DFUSE, ENG_SVN.ZRUN, ENG_SVN.HRUN, ENG_SVN.DRUN]⟩,
  ⟨"ENG_HOLD", 0x150018, 0x0, 1, 64, .strided,
    [ENG_HOLD.DOMAINS]⟩,
  ⟨"ENG_WDOG", 0x150020, 0x0, 1, 64, .strided,
    [ENG_WDOG.PET, ENG_WDOG.TIMEOUT, ENG_WDOG.EXPIRED]⟩,
  ⟨"ENG_WINSEL", 0x150040, bank, 2, 64, .selector,
    [ENG_WINSEL.CORE, ENG_WINSEL.WIN]⟩,
  ⟨"ENG_S2BASE", 0x150048, bank, 368, 64, .selected 0x150040,
    [ENG_S2BASE.IPA]⟩,
  ⟨"ENG_S2SIZE", 0x150050, bank, 368, 64, .selected 0x150040,
    [ENG_S2SIZE.PAGES]⟩,
  ⟨"ENG_S2MAP", 0x150058, bank, 368, 64, .selected 0x150040,
    [ENG_S2MAP.EN, ENG_S2MAP.R, ENG_S2MAP.W, ENG_S2MAP.X, ENG_S2MAP.EPA]⟩,
  ⟨"ENG_TLBINV", 0x150080, 0x0, 1, 64, .strided,
    [ENG_TLBINV.CORES]⟩,
  ⟨"ENG_TLBARG", 0x150088, 0x0, 1, 64, .strided,
    [ENG_TLBARG.SCOPE, ENG_TLBARG.STAG, ENG_TLBARG.ADDR]⟩,
  ⟨"ENG_WALKLOG", 0x150100, 0x0, 1, 128, .strided,
    [ENG_WALKLOG.TS, ENG_WALKLOG.CORE, ENG_WALKLOG.KIND, ENG_WALKLOG.LEVEL, ENG_WALKLOG.FETCH, ENG_WALKLOG.ADDR, ENG_WALKLOG.VALID]⟩,
  ⟨"ENG_ERRCNT", 0x150110, 0x0, 1, 64, .strided,
    [ENG_ERRCNT.WALK, ENG_ERRCNT.S2, ENG_ERRCNT.HOLDREF, ENG_ERRCNT.MEMCE]⟩]

/-- The registers of block FLT (R632). -/
def registersFLT : List Register := [
  ⟨"FLT_STICKY", 0x160000, 0x8, 2, 64, .strided,
    [FLT_STICKY.SRC]⟩,
  ⟨"FLT_FIRST", 0x160010, 0x0, 1, 64, .strided,
    [FLT_FIRST.SOURCE, FLT_FIRST.VALID]⟩,
  ⟨"FLT_FIRSTTS", 0x160018, 0x0, 1, 64, .strided,
    [FLT_FIRSTTS.TS]⟩,
  ⟨"FLT_SRCSEL", 0x160020, bank, 2, 64, .selector,
    [FLT_SRCSEL.SOURCE]⟩,
  ⟨"FLT_SRCCFG", 0x160028, bank, 128, 64, .selected 0x160020,
    [FLT_SRCCFG.INT, FLT_SRCCFG.NMI, FLT_SRCCFG.BLKRST, FLT_SRCCFG.CHIPRST, FLT_SRCCFG.ERRN, FLT_SRCCFG.FIXED, FLT_SRCCFG.COUNT]⟩,
  ⟨"FLT_SRCTS", 0x160030, bank, 128, 64, .selected 0x160020,
    [FLT_SRCTS.TS]⟩,
  ⟨"FLT_INTCFG", 0x160040, 0x0, 1, 64, .strided,
    [FLT_INTCFG.LINK, FLT_INTCFG.VECTOR, FLT_INTCFG.EN, FLT_INTCFG.PENDING]⟩,
  ⟨"FLT_PINS", 0x160048, 0x0, 1, 64, .strided,
    [FLT_PINS.ERRN, FLT_PINS.HBEAT, FLT_PINS.HBCAUSE]⟩,
  ⟨"FLT_FIFO", 0x160060, 0x0, 1, 64, .strided,
    [FLT_FIFO.SOURCE, FLT_FIFO.VALID, FLT_FIFO.TS]⟩,
  ⟨"FLT_FIFOSTAT", 0x160068, 0x0, 1, 64, .strided,
    [FLT_FIFOSTAT.LEVEL, FLT_FIFOSTAT.LOST]⟩,
  ⟨"FLT_PRIOR", 0x160080, 0x8, 2, 64, .strided,
    [FLT_PRIOR.SRC]⟩]

/-- The registers of block TEL (R632). -/
def registersTEL : List Register := [
  ⟨"TEL_CTL", 0x800000, 0x0, 1, 64, .strided,
    [TEL_CTL.START, TEL_CTL.CLRALL, TEL_CTL.PERIOD]⟩,
  ⟨"TEL_SWEEPSTAT", 0x800008, 0x0, 1, 64, .strided,
    [TEL_SWEEPSTAT.SEQ, TEL_SWEEPSTAT.BUSY, TEL_SWEEPSTAT.SPAN, TEL_SWEEPSTAT.SKIPPED]⟩,
  ⟨"TEL_SWEEPTS", 0x800010, 0x0, 1, 64, .strided,
    [TEL_SWEEPTS.TS]⟩,
  ⟨"TEL_CNTSEL", 0x800020, bank, 2, 64, .selector,
    [TEL_CNTSEL.COUNTER]⟩,
  ⟨"TEL_CNTCFG", 0x800028, bank, 320, 64, .selected 0x800020,
    [TEL_CNTCFG.EVENT, TEL_CNTCFG.INDEX, TEL_CNTCFG.INDEX_ALL, TEL_CNTCFG.SLICE_EN, TEL_CNTCFG.SLICE, TEL_CNTCFG.CHAIN, TEL_CNTCFG.OVF_INT, TEL_CNTCFG.EN]⟩,
  ⟨"TEL_CNTVAL", 0x800030, bank, 320, 64, .selected 0x800020,
    [TEL_CNTVAL.VALUE]⟩,
  ⟨"TEL_OVF", 0x800040, 0x8, 5, 64, .strided,
    [TEL_OVF.BITS]⟩,
  ⟨"TEL_SNAP", 0x801000, 0x8, 320, 64, .strided,
    [TEL_SNAP.VALUE, TEL_SNAP.OVF]⟩,
  ⟨"TEL_SMPCFG", 0x800080, 0x0, 1, 64, .strided,
    [TEL_SMPCFG.EN, TEL_SMPCFG.MODE, TEL_SMPCFG.STOP, TEL_SMPCFG.RATE, TEL_SMPCFG.LINKMASK, TEL_SMPCFG.CLASSMASK, TEL_SMPCFG.SLICE_EN, TEL_SMPCFG.SLICE, TEL_SMPCFG.MINLAT]⟩,
  ⟨"TEL_SMPSTAT", 0x800088, 0x0, 1, 64, .strided,
    [TEL_SMPSTAT.WRIDX, TEL_SMPSTAT.FULL, TEL_SMPSTAT.NEXTSEQ]⟩,
  ⟨"TEL_SMPRD", 0x800090, 0x0, 1, 64, .strided,
    [TEL_SMPRD.RDIDX]⟩,
  ⟨"TEL_SMPDROP", 0x800098, 0x0, 1, 64, .strided,
    [TEL_SMPDROP.DROPS]⟩,
  ⟨"TEL_SLICESEL", 0x8000A0, bank, 2, 64, .selector,
    [TEL_SLICESEL.SLICE]⟩,
  ⟨"TEL_USERADDR", 0x8000A8, bank, 4096, 64, .selected 0x8000A0,
    [TEL_USERADDR.EN, TEL_USERADDR.LINK, TEL_USERADDR.ADDR]⟩,
  ⟨"TEL_ERRCNT", 0x8000B0, 0x0, 1, 64, .strided,
    [TEL_ERRCNT.USERDMA]⟩,
  ⟨"TEL_THERM", 0x800200, 0x8, 20, 64, .strided,
    [TEL_THERM.TEMP, TEL_THERM.VALID, TEL_THERM.FAILED]⟩,
  ⟨"TEL_THERMSTAT", 0x800300, 0x0, 1, 64, .strided,
    [TEL_THERMSTAT.HOTTEST, TEL_THERMSTAT.THROTTLE, TEL_THERMSTAT.NVALID, TEL_THERMSTAT.THROTTLES]⟩,
  ⟨"TEL_RAIL", 0x800340, 0x8, 7, 64, .strided,
    [TEL_RAIL.MV, TEL_RAIL.CURRENT, TEL_RAIL.POWER, TEL_RAIL.ISENSE]⟩,
  ⟨"TEL_MARGINSEL", 0x800380, bank, 2, 64, .selector,
    [TEL_MARGINSEL.GROUP, TEL_MARGINSEL.UNIT, TEL_MARGINSEL.LANE]⟩,
  ⟨"TEL_MARGIN", 0x800388, bank, 256, 64, .selected 0x800380,
    [TEL_MARGIN.HEIGHT, TEL_MARGIN.WIDTH, TEL_MARGIN.VALID, TEL_MARGIN.HELD]⟩]

/-- The register index of R632, every block. -/
def registerMap : List Register :=
  registersSYS ++ registersCLK ++ registersRST ++ registersPWR ++ registersVMON ++ registersLNK ++ registersRTR ++ registersMAP ++ registersCIR ++ registersPLC ++ registersNMB ++ registersSNP ++ registersDMC ++ registersMED ++ registersSEC ++ registersHAL ++ registersQUE ++ registersSLC ++ registersQOS ++ registersCON ++ registersPAR ++ registersENG ++ registersFLT ++ registersTEL

end Sys2Proof.Machine
end

