-- ==== Sys2Proof/Machine/State.lean ====
section
/-! DEFINITION. The state of the device as plain data: the vendor register file by field, and for each block what the
spec gives it beside its registers. State.reset is the device under cold reset, before power is good. -/

namespace Sys2Proof.Machine

/-- Why the machine stops with a fault. No command of this block ends in one: every error that the spec describes is
a state of the device, with its status and records set. -/
inductive Fault where
  deriving DecidableEq, Repr

/-- Why a command has no meaning. -/
inductive Refusal where
  /-- Raised by the dispatcher for a command that has no meaning in this model. Safe: nothing is claimed of it. -/
  | notModelled (mnemonic : String)
  deriving DecidableEq, Repr

/-! ### Host ports (02_host_ports.md) -/

/-- State of an IDE stream (R27, R29). -/
inductive IdeState where
  | idle | secure | insecure
  deriving DecidableEq, Repr

/-- The key sets of one direction of an IDE stream: active and pending (R27). Keys are named by number. -/
structure IdeKeys where
  active : Option Nat := none
  pending : Option Nat := none
  deriving DecidableEq, Repr

/-- One IDE stream (R27). -/
structure IdeStream where
  state : IdeState := .idle
  rx : IdeKeys := {}
  tx : IdeKeys := {}
  deriving DecidableEq, Repr

/-- Position of a host link (R18, R39, R43, R550). -/
inductive LinkState where
  | down | training | l0 | recovery | l1 | l11 | l12 | l2
  deriving DecidableEq, Repr

/-- What one host link holds beside its registers. -/
structure Link where
  state : LinkState := .down
  /-- The CXL.mem stream, the link stream and the two selective streams of CXL.io (R27). -/
  ideMem : IdeStream := {}
  ideIo : IdeStream := {}
  ideSel0 : IdeStream := {}
  ideSel1 : IdeStream := {}
  /-- Counted conditions that have no register field: refusals (R32), deadline expiries (R36), flit errors, replay
  rollovers and CXL.io errors (R43). -/
  refusals : Nat := 0
  expiries : Nat := 0
  flitErrors : Nat := 0
  rollovers : Nat := 0
  ioErrors : Nat := 0
  /-- Standard error bits: CXL RAS Receiver Overflow, Internal Error, IDE receive error; AER correctable and
  uncorrectable (R43). -/
  rasOverflow : Bool := false
  rasInternal : Bool := false
  rasIde : Bool := false
  aerCorrectable : Bool := false
  aerUncorrectable : Bool := false
  /-- CXL.mem credits stand at the value of a fresh link (R39 step 7). -/
  creditsFresh : Bool := false
  /-- A retrain that the host asked for (R18). -/
  retrain : Bool := false
  deriving DecidableEq, Repr

/-- One HDM decoder of an LD (R25, R26). -/
structure Decoder where
  committed : Bool := false
  base : Nat := 0
  size : Nat := 0
  dpaBase : Nat := 0
  ways : Nat := 1
  gran : Nat := 256
  hdmDb : Bool := false
  errorNotCommitted : Bool := false
  deriving DecidableEq, Repr

/-- One logical device: its link, its number on the link, its decoder allocation (R24, R25), and what its CCI
holds (R528, R529). -/
structure Ld where
  link : Nat
  number : Nat
  alloc : Nat
  deriving DecidableEq, Repr

/-- The stage at which an open request waits (R37); the code is the cause that RTR_DLLOG records. -/
inductive Stage where
  | walk | halo | mirror | wake | dram | counters | nimbus | capture | switch | room
  deriving DecidableEq, Repr

/-- The cause code of R37. A wait for physical room is recorded as 0xF (R664). -/
def Stage.code : Stage → Nat
  | .walk => 0 | .halo => 1 | .mirror => 2 | .wake => 3 | .dram => 4 | .counters => 5 | .nimbus => 6
  | .capture => 7 | .switch => 8 | .room => 15

/-- A host request that has passed the router and is not finished. -/
structure OpenReq where
  id : Nat
  link : Nat
  ld : Nat
  tag : Nat
  op : MemOp
  dpaLine : Nat
  claim : Nat
  data : Line
  mask : ByteMask
  poison : Bool
  hdmDb : Bool
  ts : Nat
  /-- The answer has gone, at the deadline (R36) or because the link went down (R39). -/
  answered : Bool
  /-- The request's own effect on memory has been applied (a write that waits for its mirror acknowledgement). -/
  applied : Bool
  stage : Stage
  /-- The grant that the home decided on (R326): 0 none, 1 Cmp-S, 2 Cmp-E. -/
  granted : Nat
  /-- It passed the home of a SHARED claim (R329). -/
  homed : Bool
  /-- Urgency of its link's master at slot decode (R389). -/
  urgency : Nat
  /-- Its map entry was walked; a back-invalidate or halo wait, or a switch, capture or wake held it (R604). -/
  missed : Bool
  biWait : Bool
  stalled : Bool
  /-- The sampler selected it (R602). -/
  sampled : Bool
  /-- The channel at whose read queue it waits (R231). -/
  chan : Nat := 0
  /-- Its ramp priority as last recomputed (R390). -/
  prio : Nat := 0
  /-- It is an Inject Poison command (R267). -/
  injected : Bool := false
  deriving DecidableEq, Repr

/-! ### Claims, capacity and the placement map (03_claims_and_placement_map.md) -/

/-- Page states of R69. -/
inductive PageState where
  | unbacked | stratus | nimbus | inFlight | lost
  deriving DecidableEq, Repr

/-- LOCATION of a map entry (R68): none, a Stratus frame, or a run of Nimbus granules with its four block counts. An
IN_FLIGHT entry carries its source form. -/
inductive Location where
  | nowhere
  | frame (mfn : Nat)
  | run (heap c0 c1 c2 c3 : Nat)
  deriving DecidableEq, Repr

/-- A map entry (R68), without its check byte. -/
structure MapEntry where
  state : PageState := .unbacked
  snap : Bool := false
  sealed : Bool := false
  keygen : Nat := 0
  keyid : Nat := 0
  claim : Nat := 0
  heat : Nat := 0
  version : Nat := 0
  hstamp : Nat := 0
  hint : Nat := 0
  loc : Location := .nowhere
  deriving DecidableEq, Repr

/-- One way of the map cache (R75). `leafless` marks a LOST entry that has no writable leaf (R74). -/
structure MapWay where
  dpn : Nat
  entry : MapEntry
  dirty : Bool := false
  leafless : Bool := false
  deriving DecidableEq, Repr

/-- What an allocation of R60 drew, by source. -/
structure Draw where
  resv : Nat := 0
  shared : Nat := 0
  storm : Nat := 0
  deriving DecidableEq, Repr

/-- The placement map: both copies of the leaves, by page, as stored words (R68); the map cache and the directory
cache with their pseudo-LRU bits (R74, R75); the audit cursors (R78); and the space accounts (R58, R60, R63). -/
structure PlacementMap where
  primary : Table Nat := []
  secondary : Table Nat := []
  cache : Table MapWay := []
  plru : Table Nat := []
  dirCache : Table Nat := []
  dirPlru : Table Nat := []
  auditSet : Nat := 0
  auditDirSet : Nat := 0
  /-- Bytes of each claim drawn from its reservation (R60). -/
  resvUsed : Table Nat := []
  sharedUsed : Nat := 0
  stormUsed : Nat := 0
  /-- Bytes that left the shared pool with each frozen channel (R64). -/
  frozenOut : Table Nat := []
  /-- CAP_SQUALL may be set again (R63). -/
  squallArmed : Bool := true
  /-- Pages whose LOST entry still charges its claim, with the bytes charged (R74). -/
  lostBytes : Table Nat := []
  /-- What was written to the RWL fields of a claim while it is releasing, by field (R6, R66): the release works on the old values. -/
  staged : Table Nat := []
  deriving DecidableEq, Repr

/-! ### Cirrus near-store (04_cirrus_near_store.md) -/

/-- Line states of R91; INVALID ways are not listed. -/
inductive LineState where
  | clean | dirty | partly
  deriving DecidableEq, Repr

/-- One way that holds a line (R91). The set and tag of R90 give back the line address, which is held whole. -/
structure Way where
  dpaLine : Nat
  state : LineState
  data : Line
  bvm : ByteMask := ByteMask.full
  pinned : Bool := false
  /-- Bit 12 for a drift pin, else the pinning slice (R91). -/
  pinSrc : Nat := 0
  held : Bool := false
  poison : Bool := false
  mirror : Bool := false
  deriving DecidableEq, Repr

/-- An entry of the writeback buffer (R97). -/
structure Writeback where
  dpaLine : Nat
  data : Line
  bvm : ByteMask
  poison : Bool
  mirror : Bool
  /-- It waits for physical room (R175, R664). -/
  waitsRoom : Bool := false
  deriving DecidableEq, Repr

/-- A salvage record (R101). -/
structure Salvage where
  data : Line
  mask : ByteMask
  ts : Nat
  dpaLine : Nat
  claim : Nat
  slice : Nat
  cause : Nat
  sealed : Bool
  keyid : Nat
  deriving DecidableEq, Repr

/-- A flush or sweep in progress (R113, R114). -/
structure Sweep where
  byGuard : Bool := false
  corrected : Nat := 0
  poisoned : Nat := 0
  deriving DecidableEq, Repr

/-- The near-store: ways by set × 16 + way, pseudo-LRU bits by set, the writeback buffer (oldest first), ways out of
service, correctable errors by way (R106), salvage records (R100); lines that a local cause has spoilt in this step and
that the partner's copy may restore, with the host bytes to overlay (R453). -/
structure Cirrus where
  ways : Table Way := []
  plru : Table Nat := []
  buffer : List Writeback := []
  retired : NSet := []
  retirePending : NSet := []
  ceCount : Table Nat := []
  salvage : Table Salvage := []
  /-- The arrays are powered and in use (R552, R555). -/
  on : Bool := true
  sweep : Option Sweep := none
  repair : List (Nat × Option (Line × ByteMask)) := []
  deriving DecidableEq, Repr

/-! ### Nimbus (06_nimbus_compression.md) -/

/-- States of a heap segment (R172). -/
inductive SegState where
  | moves | writebacks | full | compacting
  deriving DecidableEq, Repr

/-- One entry of the heap directory (R172); FREE segments are not listed. `moves` and `writebacks` are the two OPEN
uses of R173. -/
structure Segment where
  channel : Nat
  region : Nat
  fill : Nat
  live : Nat
  state : SegState
  /-- Its entry is being rebuilt (R172). -/
  rebuilding : Bool := false
  deriving DecidableEq, Repr

/-- A block fetched for decoding (R162, R178): the kind of its first failure, once it has failed, by code. -/
structure DecodeJob where
  dpn : Nat
  block : Nat
  failed : Option Nat
  /-- The request that waits for it, if one does. -/
  req : Option Nat
  deriving DecidableEq, Repr

/-- The heap directory by segment number and the decode jobs by number. -/
structure Nimbus where
  segments : Table Segment := []
  jobs : Table DecodeJob := []
  nextJob : Nat := 0
  urgent : Bool := false
  /-- Allocations that wait for physical room (R664). -/
  waiting : Nat := 0
  deriving DecidableEq, Repr

/-! ### DRAM channels (08_dram_channels.md) and media (09_media_integrity.md) -/

/-- Use of a 4 KiB frame (R225, R228). -/
inductive FrameUse where
  | page (dpn : Nat)
  | destination (dpn : Nat)
  | heap (segment : Nat)
  | capture (slot : Nat)
  | counters (keyid : Nat)
  deriving DecidableEq, Repr

/-- A write in a channel's write queue (R231), by internal line address; the line of the DPA space that it stores. -/
structure ChannelWrite where
  line : Nat
  data : Line
  poison : Bool
  dpaLine : Nat
  deriving DecidableEq, Repr

/-- A command record of the diagnosis buffer (R277). -/
structure DiagCmd where
  ts : Nat
  cmd : Nat
  subch : Nat
  rank : Nat
  bg : Nat
  bank : Nat
  addr : Nat
  outcome : Nat
  master : Nat
  panic : Bool
  wq : Nat
  rq : Nat
  deriving DecidableEq, Repr

/-- What a channel's diagnosis capture holds (R276). -/
structure DiagCapture where
  ts : Nat
  commands : List DiagCmd
  openRows : Table Nat
  ueLines : List Nat
  deriving DecidableEq, Repr

/-- One channel's state beside its registers. -/
structure Channel where
  dimms : List Dimm := []
  /-- Speed at which the channel trained (R248, code 0x64). -/
  trainedSpeed : Nat := 0
  selfRefresh : Bool := false
  /-- A DIMM above 85 °C: the refresh interval is halved (R235). -/
  hotRefresh : Bool := false
  /-- Refresh intervals postponed in panic, at most 4 (R233). -/
  refreshDebt : Nat := 0
  refreshes : Nat := 0
  panicRead : Bool := false
  panicWrite : Bool := false
  /-- Write drain under way (R232). -/
  draining : Bool := false
  writes : List ChannelWrite := []
  /-- Ranks in precharge power-down (R236). -/
  poweredDown : NSet := []
  /-- The last commands issued, newest first, at most 256, and open rows by bank (R276). -/
  recent : List DiagCmd := []
  openRows : Table Nat := []
  capture : Option DiagCapture := none
  /-- Stale units by number (R242), and the counters of the DRAM range (R249). -/
  stale : NSet := []
  /-- Lines with a UE recorded since the cause of the freeze (R276, R278). -/
  ueLines : List Nat := []
  releaseWaits : Bool := false
  /-- Lines of the failing rank that the sparing copy has passed (R245). -/
  sparePos : Nat := 0
  /-- A cause whose FREEZE entry this command still has to carry out (R239, R240): the FRZCAUSE code. -/
  freezeDue : Option Nat := none
  /-- Bytes of metadata held on this channel (R247). -/
  metaBytes : Nat := 0
  deriving DecidableEq, Repr

/-- Progress of background initialization (R230): regions done, and whether it runs. -/
structure InitProgress where
  running : Bool := false
  next : Nat := 0
  deriving DecidableEq, Repr

/-- DRAM: contents by internal byte address, lines stored poisoned (R258), frames in use, channels, the round-robin
positions of R228; the master whose access is at work, as command records name it (R277). -/
structure Dram where
  mem : List Host.Cell := []
  poisoned : NSet := []
  frames : Table FrameUse := []
  channels : Table Channel := []
  rrPlain : Nat := 0
  rrSpare : Nat := 0
  init : InitProgress := {}
  master : Nat := 14
  deriving DecidableEq, Repr

/-- Sources of the CXL poison list (R262). -/
inductive PoisonSource where
  | external | injected | internal
  deriving DecidableEq, Repr

/-- An entry of the poison list (R263). -/
structure PoisonEntry where
  source : PoisonSource
  ts : Nat
  deriving DecidableEq, Repr

/-- Who asked for a scrub (R268). -/
inductive ScrubOwner where
  | registers
  | descriptor (queue index : Nat)
  | scanMedia (cci : Nat)
  | kamcon (cci : Nat)
  deriving DecidableEq, Repr

/-- A scrub context at work (R268–R270). -/
structure Scrub where
  owner : ScrubOwner
  logical : Bool
  verify : Bool
  channel : Nat
  start : Nat
  stop : Nat
  cursor : Nat
  startTs : Nat
  lines : Nat := 0
  skipped : Nat := 0
  ce : Nat := 0
  ue : Nat := 0
  poisoned : Nat := 0
  ueAddr : List Nat := []
  deriving DecidableEq, Repr

/-- A finished scrub's summary (R270): its STATUS code. -/
structure ScrubSummary where
  scrub : Scrub
  endTs : Nat
  status : Nat
  deriving DecidableEq, Repr

/-- A row named for repair (R273). -/
structure RepairRow where
  channel : Nat
  subch : Nat
  rank : Nat
  bg : Nat
  bank : Nat
  row : Nat
  serial : Nat
  deriving DecidableEq, Repr

/-- Media integrity: the poison list by line, pending entries by internal line (R264), blocks poisoned whole (R266),
scrub contexts and requests, the repair list, and the repair log with result and timestamp. -/
structure Media where
  poison : Table PoisonEntry := []
  pending : Table Nat := []
  coarse : NSet := []
  scrubs : Table Scrub := []
  scrubWait : List Scrub := []
  repairList : List RepairRow := []
  repairLog : List (RepairRow × Nat × Nat) := []
  policyOn : Bool := true
  policySpare : Bool := true
  policyQueue : Bool := true
  policyHours : Nat := 24
  policyWindow : Nat := 20
  policyChannel : Nat := 0
  policyRuns : Bool := false
  pprRow : Option RepairRow := none
  deriving DecidableEq, Repr

/-! ### Faults (20_faults_and_events.md) -/

/-- The fault collector beside its registers: the FIFO, oldest first (R569); a chip reset under way with its lowest
source (R574); block resets that a reaction asked for (R572); non-maskable interrupts to the stewards (R571). -/
structure Faults where
  fifo : List (Nat × Nat) := []
  chipReset : Option Nat := none
  blockResets : List (ResetBlock × Nat) := []
  nmi : Nat := 0
  deriving DecidableEq, Repr

/-! ### Halo directory (11_coherence_halo_directory.md) -/

/-- A directory entry that is not INVALID (R325): EXCLUSIVE or SHARED, its holders by link, and the grant time in 10 ns
units modulo 4,096. -/
structure DirEntry where
  line : Nat
  exclusive : Bool
  holders : NSet
  grantT : Nat := 0
  deriving DecidableEq, Repr

/-- What a back-invalidate serves (R330). -/
inductive BiWhy where
  | request (req : Nat)
  | victim (req : Nat)
  | background
  | revoke
  | release
  deriving DecidableEq, Repr

/-- A back-invalidate (R327, R334): BISnpInv or BISnpData, the LDs that have not answered, and the links that keep a
shared copy. -/
structure BackInv where
  line : Nat
  inv : Bool
  why : BiWhy
  reqLink : Nat
  start : Nat
  waits : List (Nat × Nat)
  stays : NSet := []
  deriving DecidableEq, Repr

/-- The directory by set × 16 + way, its pseudo-LRU bits and retired ways; open transactions and those that wait for a
tracker, oldest first; the wait queue and the requests held at the router (R330), each in arrival order, with the
parked ones marked; requests that the home has finished with and that are not yet served; back-invalidates whose
answer would be late; BIConflictAcks owed after a request's completion (R328); unfences that wait for a sweep
(R336); grants of claims before a change whose sweep still runs (R323). -/
structure Halo where
  dir : Table DirEntry := []
  plru : Table Nat := []
  retired : NSet := []
  trackers : List BackInv := []
  untracked : List BackInv := []
  waitQ : List (Nat × Bool) := []
  atRouter : List Nat := []
  ready : List Nat := []
  late : List (Nat × Nat) := []
  acks : List (Nat × Nat × Nat × Nat) := []
  unfenceLater : NSet := []
  oldGrants : Table (Nat × Nat) := []
  deriving DecidableEq, Repr

/-! ### Contrail (14_contrail_link.md) -/

/-- CTRL messages (R412, R413, R460). -/
inductive CtrlMsg where
  | mirack (jseq : Nat)
  | params (p : PeerParams)
  | sliceMap (piece : Nat) (owners : Bool) (slices : NSet)
  | claimDef (claim base size attr : Nat)
  | claimRel (claim : Nat)
  | result (op code : Nat)
  | stripeDone (stripe : Nat)
  | stripeAck (stripe : Nat)
  | unback (dpn count : Nat)
  | fetch (line : Nat)
  | pstat (outbits journal epoch : Nat)
  | giveback (epoch : Nat)
  | rxOpen (op slot slice size claim streamId : Nat)
  | rxResult (op slot code : Nat)
  | rxClose (op slot cause : Nat)
  | sealEn (op claim : Nat)
  | sealRes (op code : Nat)
  | refetch (op claim level index : Nat)
  | refDone (op lines : Nat)
  | xkey (keyRef slot key : Nat)
  | xkeyAck (keyRef status : Nat)
  | keyRenew (phase direction : Nat)
  | keyRenewAck (phase direction : Nat)
  deriving DecidableEq, Repr

/-- Packets (R412). -/
inductive Packet where
  | mw (jseq : Nat) (lines : List MirrorLine)
  | rsw (lines : List MirrorLine)
  | stream (slot offset : Nat) (bytes : List Byte)
  | ctrl (m : CtrlMsg)
  | keyx
  | ack (ackSeq : Nat) (nak : Bool)
  | hb (ts state epoch : Nat)
  | lane (bundle lane action : Nat)
  deriving DecidableEq, Repr

/-- The link beside its registers: unacknowledged packets with their SEQ, packets that wait for a SEQ, both SEQ
counters, free credits by class and credits freed for the partner since the last head, the lines of the MW packet
that is still open, whether a NAK is outstanding (R418), keys installed, tag failures in a row (R426), receive keys
of the old phase; `replaying` says that a retrain came back to UP without acknowledgement progress since (R421). -/
structure Contrail where
  unacked : List (Nat × Packet) := []
  queue : List Packet := []
  txSeq : Nat := 0
  rxSeq : Nat := 0
  creditMW : Nat := 4096
  creditRS : Nat := 2048
  creditCT : Nat := 256
  freedMW : Nat := 0
  freedRS : Nat := 0
  freedCT : Nat := 0
  openMW : List MirrorLine := []
  openNum : Nat := 0
  nakSent : Bool := false
  accepted : Nat := 0
  keyed : Bool := false
  tagRun : Nat := 0
  oldRxKey : Bool := false
  rxPhase : Nat := 0
  renewing : Bool := false
  txCount : Nat := 0
  replaying : Option Nat := none
  retrainFails : Nat := 0
  trainStep : Nat := 0
  swapAsked : Table Nat := []
  readding : NSet := []
  /-- Bundles that the partner's codewords use (R409). -/
  rxMap : Nat := 7
  deriving DecidableEq, Repr

/-! ### The pair (15_redundant_pair.md) -/

/-- An entry of the mirror journal (R447), with the request that waits for its acknowledgement in sync mode. -/
structure JournalEntry where
  num : Nat
  line : Nat
  part : Bool
  ts : Nat
  req : Option Nat
  deriving DecidableEq, Repr

/-- An operation forwarded to the partner (R443), or a claim's definition sent in a join (R442). -/
inductive Forward where
  | commit (claim : Nat)
  | release (claim : Nat)
  | join (claim : Nat)
  deriving DecidableEq, Repr

/-- A claim operation that the partner forwarded: a commit with its definition, or a release (R443, R460). -/
structure ClaimOp where
  claim : Nat
  rel : Bool
  base : Nat := 0
  size : Nat := 0
  attr : Nat := 0
  deriving DecidableEq, Repr

/-- A fetch of a line from the partner (R453): the read that waits for it, and the salvaged host bytes to overlay. -/
structure Fetch where
  line : Nat
  req : Option Nat
  overlay : Option (Line × ByteMask)
  deriving DecidableEq, Repr

/-- The pair manager beside its registers: the journal in number order, the next journal number, the outbound bitmap
(R451), stripes sent and not acknowledged, fetches sent and waiting, the forwarded operations in order, the partner's parameters and
slice maps, whether an enable waits for them, the state to fall back to from JOINING, and the number of the last line
applied from the partner (R412). -/
structure Pair where
  journal : List JournalEntry := []
  nextNum : Nat := 0
  outbits : NSet := []
  sent : NSet := []
  fetches : List Fetch := []
  fetchQueue : List Fetch := []
  fwd : List Forward := []
  peer : Option PeerParams := none
  peerEnabled : NSet := []
  peerOwners : NSet := []
  mapsSeen : NSet := []
  enabling : Bool := false
  before : Nat := 0
  lastApplied : Nat := 0
  discarding : Bool := false
  joinDefs : Nat := 0
  /-- Lines of MW packets have been received whose MIRACK has not been sent (R447). -/
  mirackDue : Bool := false
  /-- 100 µs have passed without MIRACK progress (R449). -/
  stalled : Bool := false
  /-- A PSTAT has arrived since the member entered RESYNC (R451). -/
  peerCounted : Bool := false
  /-- When the partner's parameters arrived (R440). -/
  peerAt : Nat := 0
  /-- The partner's operations that wait for this member's own, which goes first (R443). -/
  deferred : List ClaimOp := []
  deriving DecidableEq, Repr

/-! ### Veil and seal (10_veil_and_seal.md) -/

/-- A counter tree leaf (R298): the major and the minors that are not 0. -/
structure SealLeaf where
  major : Nat := 0
  minors : Table Nat := []
  deriving DecidableEq, Repr

/-- The tree of a KeyID (R297–R301): leaves by page of the claim; the counter of each entry in its parent, by
level × 2^32 + index (0: never written); entries in the counter cache, and the dirty ones; the bytes that the tree is
charged, and what of the charge was drawn from the shared pool (R307, R308). -/
structure SealTree where
  leaves : Table SealLeaf := []
  counters : Table Nat := []
  cached : NSet := []
  dirty : NSet := []
  bytes : Nat := 0
  shared : Nat := 0
  deriving DecidableEq, Repr

/-- Why a rewrite tracker runs (R291, R303, R308). -/
inductive RewriteWhy where
  | rotation | reencryption | rekey
  deriving DecidableEq, Repr

/-- A rewrite tracker (R292): the page, its old protection state and the done mask. -/
structure RewriteTracker where
  dpn : Nat
  why : RewriteWhy
  oldGen : Nat
  oldKey : Nat
  oldLeaf : SealLeaf
  newGen : Nat
  newKey : Nat
  done : NSet := []
  deriving DecidableEq, Repr

/-- An export key that Zenith created (R208, R545): its slot, the slice, the key, whether it was fetched, and whether it was
dropped while its slot was live, which goes on with it. -/
structure ExportKey where
  slot : Nat
  slice : Nat
  key : Nat
  fetched : Bool := false
  dropped : Bool := false
  deriving DecidableEq, Repr

/-- Protection beside its registers: the veil keys of generations 0 and 1 and of the metadata (R289); trees by KeyID, trackers in use and waiting pages, the rotation's cursor and pages
it comes back to, the KeyID that a re-key moves to by the one it leaves, whether generation keys are held, the KeyIDs
whose retirement drain runs, whether the random number generator failed; seal enables that
wait for the partner, by operation; recoveries of whole claims that run, by KeyID, with the REFDONE messages to come; the export keys created and loaded, by
reference. -/
structure Protection where
  trees : Table SealTree := []
  trackers : List RewriteTracker := []
  waiting : List RewriteTracker := []
  sweepAt : Nat := 0
  comeBack : NSet := []
  swept : Bool := false
  veil : List Nat := []
  rekeyTo : Table Nat := []
  oldKeyHeld : Bool := false
  rngFailed : Bool := false
  enabling : Table Nat := []
  whole : Table (Nat × Nat) := []
  created : Table ExportKey := []
  loaded : Table Nat := []
  nextRef : Nat := 1
  deriving DecidableEq, Repr

/-! ### Snapshots (07_snapshots_and_export.md) -/

/-- A page's contents as captured (R195): the lines of its frame, or its four blocks as stored with their counts; the
lines that could not be verified; the DIRTY and PARTIAL lines copied from Cirrus. -/
structure PageCopy where
  frame : List Line := []
  blocks : List (Nat × List Byte) := []
  bad : NSet := []
  overlay : List (Nat × Line × ByteMask × Bool) := []
  deriving DecidableEq, Repr

/-- A change held by a capture or by the cursor's read of its page (R194, R195). -/
inductive HeldChange where
  | request (req : Nat)
  | mirror (l : MirrorLine) (resync : Bool)
  | descriptor (queue index : Nat)
  | update (dpn : Nat)
  | engine (l : MirrorLine)
  | port (core : Nat)
  deriving DecidableEq, Repr

/-- A SNAP_EXPORT queued on a slot (R199): its descriptor, buffer, link mask, and bytes written into it. -/
structure ExportBuffer where
  queue : Nat
  index : Nat
  addr : Nat
  len : Nat
  mask : Nat
  filled : Nat := 0
  deriving DecidableEq, Repr

/-- A slot beside its registers: captures by page index; pages whose capture waits for a tracker or runs, with the held
changes; stream bytes not yet delivered (for SHADOW and receive slots: the whole stream), the running CRC, the record
count; queued buffers; the read-out position of a pass; the export key. -/
structure Slot where
  captures : Table PageCopy := []
  captureSize : Table Nat := []
  held : Table (List HeldChange) := []
  /-- When the first of the changes held on a page arrived (R195). -/
  since : Table Nat := []
  noTracker : List Nat := []
  stream : List Byte := []
  base : Nat := 0
  crc : Nat := 0xFFFFFFFF
  records : Nat := 0
  ended : Bool := false
  buffers : List ExportBuffer := []
  pass : Option Nat := none
  keyRef : Option Nat := none
  receive : Bool := false
  slice : Nat := 0
  waitPartner : Bool := false
  releasing : Bool := false
  /-- The RXOPEN operation of a receive slot (R413). -/
  op : Nat := 0
  /-- Ends of the records that have not left yet, by page and stream offset; CRC and record count of what has left. -/
  recordEnds : List (Nat × Nat) := []
  crcOut : Nat := 0xFFFFFFFF
  recordsOut : Nat := 0
  deriving DecidableEq, Repr

/-- An IMPORT in progress (R212): its source slot, or none for a host buffer of `len` bytes; what the stream's header
says; the bytes read and their running CRC, the last page and the record count. -/
structure ImportJob where
  queue : Nat
  index : Nat
  claim : Nat
  offset : Nat
  src : Option Nat
  len : Nat
  pages : Nat
  sealedStream : Bool
  keyRef : Nat
  streamId : Nat
  last : Option Nat := none
  records : Nat := 0
  crc : Nat
  bytes : Nat
  waitsRoom : Bool := false
  imported : Nat := 0
  skipped : Nat := 0
  partly : Bool := false
  deriving DecidableEq, Repr

/-- Snapshot unit: slots by number, capture trackers in use, claims whose warm-reset marks are being cleared (R210). -/
structure Snapshots where
  slots : Table Slot := []
  tracking : List (Nat × Nat) := []
  clearing : NSet := []
  imports : List ImportJob := []
  nextStream : Nat := 0
  /-- Held changes that a capture or an abort has released and that are not yet applied. -/
  released : List HeldChange := []
  deriving DecidableEq, Repr

/-! ### Placement (05_placement_and_migration.md) -/

/-- Kinds of move (R139): STRATUS to NIMBUS, NIMBUS to STRATUS, NIMBUS to a new heap location. -/
inductive MoveKind where
  | demote | promote | compact
  deriving DecidableEq, Repr

/-- A move chosen and not yet started (R132, R137): the epoch at whose end it was chosen, or the descriptor that asks for
it (queue, index). -/
structure Chosen where
  dpn : Nat
  kind : MoveKind
  epoch : Nat
  explicit : Option (Nat × Nat) := none
  deriving DecidableEq, Repr

/-- A move tracker (R139): the source and the full-size destination, the granules that each block of a NIMBUS destination
takes, the dirty mask, passes and switch attempts, and the shadow leaf of a sealed
page (R303). -/
structure Move where
  dpn : Nat
  kind : MoveKind
  epoch : Nat
  explicit : Option (Nat × Nat)
  src : Location
  dest : Location
  counts : List Nat := [16, 16, 16, 16]
  dirty : NSet := []
  copied : Bool := false
  passes : Nat := 0
  tries : Nat := 0
  switching : Bool := false
  holdStart : Nat := 0
  leaf : Option SealLeaf := none
  deriving DecidableEq, Repr

/-- Counts of an epoch's report (R147). -/
structure EpochCounts where
  selected : Nat := 0
  promoted : Nat := 0
  demoted : Nat := 0
  compacted : Nat := 0
  aborted : Nat := 0
  deferred : Nat := 0
  incomp : Nat := 0
  switchMax : Nat := 0
  carried : Nat := 0
  deriving DecidableEq, Repr

/-- Placement beside its registers: the active policy block by field (R146), whether an apply waits for the boundary,
the candidate banks in use and those handed over (pages with their heat; pages), chosen and running moves, the
incompressible filter oldest first with the epoch of entry (R138), block fetches and useful lines of the epoch and the
filled lines not yet touched (R127), the amplification of the last epoch, the counts of the report in work and of the
next one, the cold scan's next page, missed selections in a row, and whether drift programs run. -/
structure Placement where
  active : Table Nat := []
  applying : Bool := false
  promo : List (Nat × Nat) := []
  demo : List Nat := []
  promoOld : List (Nat × Nat) := []
  demoOld : List Nat := []
  chosen : List Chosen := []
  moves : List Move := []
  filter : List (Nat × Nat) := []
  fetches : Nat := 0
  useful : Nat := 0
  extra : NSet := []
  amp : Nat := 0x100
  ampOld : Nat := 0x100
  report : EpochCounts := {}
  nextReport : EpochCounts := {}
  scanAt : Nat := 0
  selecting : Bool := false
  missed : Nat := 0
  drift : Bool := false
  qovfNoted : Bool := false
  deriving DecidableEq, Repr

/-! ### Queues (12_queues_and_slices.md) -/

/-- A fetched descriptor (R357, R362): its queue and SQ index, the order of fetch, the slice and generation it is tagged
with (R372), its fields, its progress, and its status once it is finished, with its number in the order of finishing.
`waits` holds the fetch numbers that a FENCE waits for, and `acks` the journal numbers that a writing opcode waits for
(R364). -/
structure Desc where
  queue : Nat
  index : Nat
  seq : Nat
  slice : Nat
  gen : Nat
  sqHead : Nat
  op : Nat
  flags : Nat
  cid : Nat
  addr0 : Nat
  addr1 : Nat
  len : Nat
  arg0 : Nat
  arg1 : Nat
  arg2 : Nat
  start : Nat
  cursor : Nat := 0
  result : Nat := 0
  part : Bool := false
  statuses : List Nat := []
  waits : NSet := []
  acks : NSet := []
  status : Option Nat := none
  order : Nat := 0
  deriving DecidableEq, Repr

/-- The queue manager beside its registers: descriptors at work, in fetch order; the last SQ_TAIL and CQ_HEAD written by
queue; slices being removed; the next fetch number and the next number in the order of finishing. -/
structure Queues where
  descs : List Desc := []
  sqTail : Table Nat := []
  cqHead : Table Nat := []
  removing : NSet := []
  nextSeq : Nat := 0
  nextDone : Nat := 0
  deriving DecidableEq, Repr

/-! ### Regulator (13_bandwidth_regulation.md) and sampler (21_counters_and_telemetry.md) -/

/-- The regulator beside its registers: the active profile by field (R396), whether an enable waits for the boundary,
commands of HOST masters that wait at their port for a token (R388), and whether a HOST master has reached urgency 2
since the last boundary (R392). -/
structure Qos where
  active : Table Nat := []
  applying : Bool := false
  port : List (Nat × Instr) := []
  urgent : Bool := false
  deriving DecidableEq, Repr

/-- A sample record (R604). -/
structure Sample where
  ts : Nat
  dpaLine : Nat
  opClass : Nat
  hdmDb : Bool
  link : Nat
  ld : Nat
  slice : Nat
  outcome : Nat
  mapMiss : Bool
  sealed : Bool
  bi : Bool
  stall : Bool
  latency : Nat
  urgency : Nat
  cause : Nat
  seq : Nat
  deriving DecidableEq, Repr

/-- The sampling buffer by record number; the count of eligible requests (R602); the time of the last record; records
held since RDIDX. -/
structure Sampler where
  records : Table Sample := []
  eligible : Nat := 0
  lastAt : Option Nat := none
  held : Nat := 0
  deriving DecidableEq, Repr

/-! ### Engines (16_engines_and_worlds.md) -/

/-- Levels of a core (R469): U, S and H. -/
inductive Level where
  | user | supervisor | hypervisor
  deriving DecidableEq, Repr

/-- Why an instruction of a core did not complete: an exception at S (illegal instruction, translation fault at a table
level, walk fault of a kind at a level, stage-1 permission), a trap or an entry to H (stage-2 fault with its IPA and cause,
an H-only operation at S, interrupt, non-maskable interrupt), or a data abort with its cause (R471, R474, R475, R482, R483,
R491). -/
inductive CoreStop where
  | illegal
  | translation (level : Nat)
  | walk (kind level : Nat)
  | permission
  | stage2 (ipa cause : Nat)
  | hOnly
  | interrupt
  | nmi
  | abort (cause : Nat)
  deriving DecidableEq, Repr

/-- A TLB entry (R477): space tag, first page of the VA, the IPA and the EPA in units of 4 KiB, the rights of stage 1 and of
stage 2, USR, and whether it covers 64 KiB. -/
structure TlbEntry where
  stag : Nat
  va : Nat
  ipa : Nat
  epa : Nat
  rd : Bool
  wr : Bool
  ex : Bool
  usr : Bool
  rd2 : Bool
  wr2 : Bool
  ex2 : Bool
  big : Bool
  deriving DecidableEq, Repr

/-- What an asynchronous entry to H saves (R483). -/
structure SavedCore where
  pc : Nat
  level : Level
  regs : Table Nat
  flags : Nat
  deriving DecidableEq, Repr

/-- A core (R468–R483): its level, whether it is halted, the address of its next instruction, its general registers and
flags, the PC and level that a world call saved, the save area, its control registers by number, its TLBs (newest entry
first), why it was last stopped, the line that its last read of the DPA window returned; `zenith` says that its
map update was issued at H (R480). -/
structure Core where
  level : Level := .supervisor
  halted : Bool := false
  pc : Nat := 0
  regs : Table Nat := []
  flags : Nat := 0
  call : Option (Nat × Level) := none
  saved : Option SavedCore := none
  ctl : Table Nat := []
  itlb : List TlbEntry := []
  dtlb : List TlbEntry := []
  ltlb : List TlbEntry := []
  stop : Option CoreStop := none
  line : Line := 0
  zenith : Bool := false
  deriving DecidableEq, Repr

/-- The engines beside their registers: cores 0–45 and, as 46, the steward pair; the general part of engine SRAM in 8-byte
words by EPA / 8. -/
structure Engines where
  cores : Table Core := []
  sram : Table Nat := []
  deriving DecidableEq, Repr

/-! ### Clocks, reset and start-up (17_clocks_reset_startup.md) -/

/-- An image in flash (R540): whether it verifies, its SVN, its RELEASE and its length. -/
structure FwImage where
  valid : Bool := false
  svn : Nat := 0
  release : Nat := 0
  length : Nat := 0
  deriving DecidableEq, Repr

/-- What the board and the start-up sequence have brought about: ports whose PERSTp_N is deasserted, and ports whose SerDes
PLL is locked (R500, R509). -/
structure Chip where
  perstOff : NSet := []
  hostPll : NSet := []
  /-- Stored DRAM training results by channel: DIMM serial numbers and speed (R238). -/
  training : Table (List Nat × Nat) := []
  /-- Rows repaired by channel since the cold reset, and channels whose training waits for that (R273). -/
  repaired : Table Nat := []
  repairing : NSet := []
  /-- The AUTOCOMMIT flag of the boot record in use (R507). -/
  autocommit : Bool := false
  /-- RELEASE of the Zenith and Horizon images that run (R489). -/
  zenith : Nat := 0
  horizon : Nat := 0
  /-- Zenith has petted its watchdog since the cold reset; the steward cores are halted (R578). -/
  petted : Bool := false
  stewardHalt : Bool := false
  /-- The images in flash: Zenith, Horizon and the drift set of slot A, then those of slot B (R506, R540). -/
  flash : List FwImage := List.replicate 6 {}
  /-- The part's fuses, and the two copies of the flash configuration area
  (R507). -/
  fuses : Fuses := {}
  copy0 : Option ConfigCopy := none
  copy1 : Option ConfigCopy := none
  /-- Straps as latched (R646), SRIS by port, and the applied values of the items of R512. -/
  straps : Straps := {}
  sris : List Bool := []
  cal : List Int := []
  /-- The cold start runs: power-good since the last cold reset, and the device is not held in reset. -/
  powered : Bool := false
  /-- THERMTRIP_N is asserted (R513). -/
  tripped : Bool := false
  /-- WAKE_N is asserted (R553). -/
  wakeN : Bool := false
  selfTest : Bool := false
  /-- Both Horizon slots failed: Zenith runs alone (R488). -/
  zenithOnly : Bool := false
  /-- SHA-384 measurements of what was loaded, in order (R488). -/
  measured : List Nat := []
  /-- The instruction in the JTAG port (R647). -/
  jtag : JtagOp := .idcode
  /-- The warm reset step reached, 0 outside a warm reset, and the retained set as it was saved (R514). -/
  warm : Nat := 0
  retained : Table Nat := []
  deriving DecidableEq, Repr

/-! ### Power (19_power_states.md) -/

/-- Power management beside its registers: gate and off requests accepted and not yet in effect, by domain (R556); the NIGHT
entry step reached and the exit step reached, 0 outside them (R552, R554); links whose activity is held during NIGHT; the
PLLs that were locked at entry (root, DRAM, host, Contrail); when the present state, and the guard, began. -/
structure Power where
  gates : Table Nat := []
  night : Nat := 0
  leaving : Nat := 0
  heldLinks : NSet := []
  plls : List Nat := []
  since : Nat := 0
  guardSince : Nat := 0
  deriving DecidableEq, Repr

/-! ### Telemetry (21_counters_and_telemetry.md) -/

/-- Telemetry beside its registers: the sweep that runs, with the timestamp of its first capture and the captured counters and
overflow bits (R599); when each slice last got a copy (R601); the rail samples of the last 1 ms, newest first, and the
energy that does not yet make a whole mJ, in units of 0.1 nJ (R607); when throttling began. -/
structure Telemetry where
  sweep : Option (Nat × List (Nat × Bool)) := none
  copied : Table Nat := []
  rails : Table (List (Nat × Nat)) := []
  energy : Table Nat := []
  since : Nat := 0
  deriving DecidableEq, Repr

/-! ### Mailbox (18_mailbox_and_kamcon.md) -/

/-- The background commands (R541). -/
inductive BgOp where
  | scanMedia | sanitize | secureErase | transferFw | configWrite | scrubRange | pairDiscard
  deriving DecidableEq, Repr

/-- A background command at work: what it has done of what it has to do (R541); the flash area that it writes: 0 and 1 the slots, 2
the configuration area; what it is to write there. -/
structure Background where
  op : BgOp
  part : Nat := 0
  total : Nat := 0
  area : Option Nat := none
  package : Option Package := none
  config : Option ConfigCopy := none
  deriving DecidableEq, Repr

/-- CXL event records (R579). -/
inductive EventKind where
  | generalMedia | dram | memoryModule | sparing | vendor | capacity
  deriving DecidableEq, Repr

/-- An event record as a log holds it (R579–R582): its handle, its kind, the source of a vendor record or the channel, the count, the
raw device timestamp, the DPA line where it carries one, the component byte or event type, and the log words. -/
structure EventRec where
  handle : Nat := 0
  kind : EventKind
  source : Nat := 0
  count : Nat := 0
  ts : Nat := 0
  line : Option Nat := none
  what : Nat := 0
  detail : List Nat := []
  deriving DecidableEq, Repr

/-- An event log (R529): its records, oldest first; the records lost to overflow, with the timestamps of the first and the
last. -/
structure EventLog where
  records : List EventRec := []
  lost : Nat := 0
  firstLost : Nat := 0
  lastLost : Nat := 0
  deriving DecidableEq, Repr

/-- One CCI: its background command, the last one with its return code, the last scrub's summary and the lines that the
last media scan found (R271, R538); the exponent of its response message limit (R528); its interrupt policy and logs,
in the order Informational, Warning, Failure, Fatal, Dynamic Capacity; the alert thresholds set for temperature, in °C, and for
corrected errors (R529). -/
structure Cci where
  background : Option Background := none
  last : Option (BgOp × Nat) := none
  summary : Option ScrubSummary := none
  ueList : List Nat := []
  limit : Nat := 12
  policy : List Nat := [0, 0, 0, 0, 0]
  logs : Table EventLog := []
  overTemp : Option Int := none
  underTemp : Option Int := none
  ceAlert : Option Nat := none
  deriving DecidableEq, Repr

/-- What a Kamcon command that has started waits for before it answers (R535, R537, R538, R540). -/
inductive KamWait where
  | commit (claim : Nat)
  | release (claim : Nat)
  | sliceReset (slice : Nat)
  | arm (slot : Nat)
  | repair
  | block (block index : Nat)
  | pair
  deriving DecidableEq, Repr

/-- The command interfaces by number: the LD index for the mailbox of an LD, 64 + n for the FM-owned LD of link n, 256 and 257
for the two on MCTP (R527). The Kamcon command that waits for its result, and the ones behind it with their CCI, where
`true` means that the command has been answered by the time limit (R528, R534). Keys bound to slices (R544); slices with
a request that still runs, by claim (R543). Dynamic capacity regions, extents offered and extents held, by LD, as base and length
in bytes. For event records: lines and
pending lines that have one, with the timestamp of their entry plus 1, expiries recorded and when, by link; when a source last had a vendor record and what it left
out, as count and first timestamp; sources that a warm reset left to be recorded, and whether a fault reset is; health
status; Horizon's own log in flash, of reasons and summaries (R24, R272). -/
structure Mailbox where
  ccis : Table Cci := []
  waiting : Option (Nat × KamWait) := none
  queue : List (Nat × Bool × Instr) := []
  bindings : Table (List Byte) := []
  running : Table Nat := []
  regions : Table (List (Nat × Nat)) := []
  offers : Table (List (Nat × Nat)) := []
  extents : Table (List (Nat × Nat)) := []
  nextHandle : Nat := 1
  told : Table Nat := []
  toldPending : Table Nat := []
  expiries : Table (Nat × Nat) := []
  vendorAt : Table Nat := []
  vendorHeld : Table (Nat × Nat) := []
  afterWarm : NSet := []
  priorDue : Bool := false
  maintenance : Bool := false
  degraded : Bool := false
  horizonLog : List (Nat × Nat) := []
  deriving DecidableEq, Repr

/-! ### What the device sends -/

/-- A message that leaves the device, newest first in State.out. -/
inductive Output where
  /-- A CXL.mem read answer with its data, its poison mark and DevLoad (R23, R32, R36). -/
  | memData (link ld tag : Nat) (data : Line) (poison : Bool) (granted : Nat) (devLoad : Nat)
  /-- A CXL.mem completion without data. -/
  | memDone (link ld tag : Nat) (devLoad : Nat)
  /-- An MSI-X message (R351, R571). -/
  | msix (link vector : Nat)
  /-- BISnpInv or BISnpData to an LD, and BIConflictAck (R326, R328). -/
  | biSnp (link ld dpaLine : Nat) (inv : Bool)
  | biConflictAck (link ld dpaLine : Nat)
  /-- A Contrail packet, with its SEQ where it is sequenced, and the SEQ it acknowledges (R411). -/
  | contrail (seq : Option Nat) (ackSeq : Nat) (p : Packet)
  /-- A CXL.io memory write of bytes to host memory, tagged with a slice's PASID (R199, R356, R601). -/
  | dmaWrite (link slice addr : Nat) (data : List Byte)
  /-- A zero-length read on a link (R199). -/
  | zeroRead (link : Nat)
  /-- The answer to a command on a CCI: its return code, and its payload: the bytes of a Kamcon answer (R533); for a standard command
  the values that the spec names, in its order (R529). -/
  | reply (cci code : Nat) (payload : List Nat)
  /-- The end of a background command is signalled on its CCI, with its return code (R541). -/
  | background (cci code : Nat)
  /-- An event log of a CCI has a new record, and its policy asks for an interrupt (R529). -/
  | notice (cci log : Nat)
  /-- The answer to a Zenith request inside its session: ZRCODE, STATUS, CHECK and the bytes of its body (R543); or SPDM ERROR. -/
  | zenith (code status check : Nat) (body : List Byte)
  | spdmError
  /-- What the JTAG port shifts out under the instruction that acts: the IDCODE, or the bit of BYPASS (R647). -/
  | jtag (acts : JtagOp) (data : Nat)
  /-- A DOE request is answered Busy (R509). -/
  | doeBusy (link ld : Nat)
  /-- What a read of a register returns (R588). -/
  | regData (value : Nat)
  deriving DecidableEq, Repr

/-! ### The whole -/

/-- The device. `regs` holds the register fields that differ from their reset value, by `Fld.key`; the other fields hold
what the spec gives the blocks beside their registers; `time` is the running clock in CLK_SLOW cycles, and the device
timestamp is `time` and `stampBase` (R501). Model's own: `free`, the number of free values drawn so far;
`out`, the messages sent, newest first; `pending`, the commands that wait, first in first out. -/
structure State where
  regs : Table Nat := []
  time : Nat := 0
  stampBase : Nat := 0
  links : Table Link := []
  lds : Table Ld := []
  decoders : Table Decoder := []
  reqs : List OpenReq := []
  nextReq : Nat := 0
  map : PlacementMap := {}
  cir : Cirrus := {}
  nmb : Nimbus := {}
  dram : Dram := {}
  med : Media := {}
  flt : Faults := {}
  hal : Halo := {}
  con : Contrail := {}
  pair : Pair := {}
  sec : Protection := {}
  snp : Snapshots := {}
  plc : Placement := {}
  que : Queues := {}
  qos : Qos := {}
  smp : Sampler := {}
  tel : Telemetry := {}
  eng : Engines := {}
  pow : Power := {}
  chip : Chip := {}
  mbx : Mailbox := {}
  free : Nat := 0
  out : List Output := []
  pending : List Instr := []
  deriving DecidableEq, Repr

/-- The device under cold reset. -/
def State.reset : State := {}

end Sys2Proof.Machine
end

