-- ==== Sys2Proof/Machine/Ops.lean ====
section
/-! DEFINITION. The named operations on the state that every block uses: reading and writing register fields, counting,
links, sending a message, drawing a free value. -/

namespace Sys2Proof.Machine

/-! ### Register fields -/

/-- The device timestamp at a moment of the running clock: the clock counts on, and Set Timestamp moves the timestamp
against it (R501, R530). -/
def State.stampOf (s : State) (clock : Nat) : Nat := (clock + s.stampBase) % 2 ^ 64

/-- The device timestamp. -/
def State.stamp (s : State) : Nat := s.stampOf s.time

/-- Copy `i` of a field. -/
def State.rdAt (s : State) (f : Fld) (i : Nat) : Nat := s.regs.get (f.resetAt i) (f.key i)

/-- A field of a register that has one copy. -/
def State.rd (s : State) (f : Fld) : Nat := s.rdAt f 0

/-- A one-bit field as a Boolean. -/
def State.onAt (s : State) (f : Fld) (i : Nat) : Bool := s.rdAt f i == 1

/-- A one-bit field of a register that has one copy. -/
def State.on (s : State) (f : Fld) : Bool := s.onAt f 0

/-- The state in which copy `i` of a field holds the low bits of `v`. -/
def State.wrAt (s : State) (f : Fld) (i v : Nat) : State :=
  { s with regs := s.regs.set (f.resetAt i) (f.key i) (v % 2 ^ f.width) }

/-- The same for a register that has one copy. -/
def State.wr (s : State) (f : Fld) (v : Nat) : State := s.wrAt f 0 v

/-- Set a one-bit field to a Boolean. -/
def State.putAt (s : State) (f : Fld) (i : Nat) (b : Bool) : State := s.wrAt f i (flag b)

/-- Set a one-bit field of a register that has one copy. -/
def State.put (s : State) (f : Fld) (b : Bool) : State := s.wr f (flag b)

/-- Add to a counter field that saturates at its largest value. -/
def State.addAt (s : State) (f : Fld) (i n : Nat) : State := s.wrAt f i (min (s.rdAt f i + n) (2 ^ f.width - 1))

/-- Add one to a saturating counter field. -/
def State.incAt (s : State) (f : Fld) (i : Nat) : State := s.addAt f i 1

/-- Add one to a saturating counter field of a register that has one copy. -/
def State.inc (s : State) (f : Fld) : State := s.incAt f 0

/-- Subtract from a level field, not below zero. -/
def State.subAt (s : State) (f : Fld) (i n : Nat) : State := s.wrAt f i (s.rdAt f i - n)

/-- The copies of a field that hold `v`, among those listed in the register file. -/
def State.copiesWith (s : State) (f : Fld) (v : Nat) : List Nat :=
  (s.regs.filter fun e =>
    e.2 == v && e.1 % 64 == f.lo && decide (f.addr ≤ e.1 / 64) && (e.1 / 64 - f.addr) % f.step == 0).map
      fun e => (e.1 / 64 - f.addr) / f.step

/-- Every field of a block's window returns to its reset value, except the fields listed by key. -/
def State.resetWindow (s : State) (base size : Nat) (keep : Nat → Bool) : State :=
  { s with regs := s.regs.filter fun e =>
      !(decide (base ≤ e.1 / 64 % bank) && decide (e.1 / 64 % bank < base + size)) || keep e.1 }

/-! ### Free values and messages -/

/-- Draw a free value. -/
def State.draw (s : State) : Nat × State := (Config.freeNat s.free, { s with free := s.free + 1 })

/-- Send a message. -/
def State.send (s : State) (o : Output) : State := { s with out := o :: s.out }

/-! ### Links -/

/-- What link `n` holds. -/
def State.link (s : State) (n : Nat) : Link := s.links.get {} n

/-- Replace what link `n` holds. -/
def State.setLink (s : State) (n : Nat) (l : Link) : State := { s with links := s.links.set {} n l }

/-- The link is in L0. -/
def State.inL0 (s : State) (n : Nat) : Bool := (s.link n).state == .l0

end Sys2Proof.Machine
end

