-- ==== Sys2Proof/Machine/Flags.lean ====
section
/-! DEFINITION. The fault flags: sticky bits, first and last events, counts, the fault FIFO, pins and interrupts, and the reactions
that a source's event brings about. -/

namespace Sys2Proof.Machine

/-! ### Faults: capture and reactions (R568–R574, R577) -/

/-- Sources that are reserved (R576). -/
def reservedSource (src : Nat) : Bool := src == 31 || src == 39 || src == 87 || decide (116 ≤ src)

/-- The sticky bit of a source (R568). -/
def State.sticky (s : State) (src : Nat) : Bool := bit (s.rdAt FLT_STICKY.SRC (src / 64)) (src % 64)

/-- Set or clear the sticky bit of a source. -/
def State.setSticky (s : State) (src : Nat) (b : Bool) : State :=
  s.wrAt FLT_STICKY.SRC (src / 64) (setBit (s.rdAt FLT_STICKY.SRC (src / 64)) (src % 64) b)

/-- Some sticky bit whose ERRN reaction is selected is set (R577). -/
def State.errnDue (s : State) : Bool :=
  (List.range 116).any fun src => s.sticky src && s.onAt FLT_SRCCFG.ERRN src

/-- ERR_N follows the sticky bits, and stays asserted during the remaining time of a chip reset (R574, R577). -/
def State.driveErrn (s : State) : State := s.put FLT_PINS.ERRN (s.errnDue || s.flt.chipReset.isSome)

/-- Send the INT message, or hold it (R571). -/
def State.interrupt (s : State) : State :=
  if s.on FLT_INTCFG.EN && s.inL0 (s.rd FLT_INTCFG.LINK) then
    s.send (.msix (s.rd FLT_INTCFG.LINK) (s.rd FLT_INTCFG.VECTOR))
  else s.put FLT_INTCFG.PENDING true

/-- A held INT goes out once the link is in L0 with EN at 1 (R571). -/
def State.releaseInterrupt (s : State) : State :=
  if s.on FLT_INTCFG.PENDING && s.on FLT_INTCFG.EN && s.inL0 (s.rd FLT_INTCFG.LINK) then
    (s.put FLT_INTCFG.PENDING false).send (.msix (s.rd FLT_INTCFG.LINK) (s.rd FLT_INTCFG.VECTOR))
  else s

/-- The block reset that a source's BLKRST asks for (R572); `core` is the core named in the event. -/
def blockOf (src core : Nat) : Option (ResetBlock × Nat) :=
  if 8 ≤ src ∧ src ≤ 23 then some (.link, (src - 8) / 2)
  else if 44 ≤ src ∧ src ≤ 47 then some (.codec, 0)
  else if 96 ≤ src ∧ src ≤ 99 then some (.contrail, 0)
  else if src = 105 ∨ src = 108 ∨ src = 111 then some (.core, core)
  else if 112 ≤ src ∧ src ≤ 115 then some (.telemetry, 0)
  else none

/-- Record the event: COUNT, last timestamp, first event, FIFO and sticky bit (R568, R569). -/
def State.capture (s : State) (src : Nat) : State :=
  let s := (s.incAt FLT_SRCCFG.COUNT src).wrAt FLT_SRCTS.TS src s.stamp
  let s := if s.on FLT_FIRST.VALID then s
    else ((s.put FLT_FIRST.VALID true).wr FLT_FIRST.SOURCE src).wr FLT_FIRSTTS.TS s.stamp
  let s := if s.flt.fifo.length < 1024 then
      { s with flt := { s.flt with fifo := s.flt.fifo ++ [(src, s.stamp)] } }
    else s.inc FLT_FIFOSTAT.LOST
  let s := s.wr FLT_FIFOSTAT.LEVEL s.flt.fifo.length
  s.setSticky src true

/-- HBEAT stops at its level, and HBCAUSE records why (R578, R587): 1 no PET since the cold reset, 2 watchdog expired,
3 stewards halted, 4 CHIPRST pending. A cause already recorded stays until HBEAT toggles again (DESIGN CHOICE). -/
def State.heartStop (s : State) (cause : Nat) : State :=
  if s.rd FLT_PINS.HBCAUSE = 0 then s.wr FLT_PINS.HBCAUSE cause else s

/-- The conditions under which HBEAT toggles hold (R578). -/
def State.heartGood (s : State) : Bool :=
  s.chip.petted && !s.on ENG_WDOG.EXPIRED && !s.chip.stewardHalt && s.flt.chipReset.isNone

/-- A CHIPRST event: HBEAT stops, the sticky vector is kept, and the reset waits for its time (R574). -/
def State.chipReset (s : State) (src : Nat) : State :=
  let low := match s.flt.chipReset with
    | some old => min old src
    | none => src
  let s := ((s.wrAt FLT_PRIOR.SRC 0 (s.rdAt FLT_STICKY.SRC 0)).wrAt FLT_PRIOR.SRC 1 (s.rdAt FLT_STICKY.SRC 1))
  { s with flt := { s.flt with chipReset := some low } }.heartStop 4

/-- The reactions that act on a rising sticky bit: INT, NMI and ERRN (R571). -/
def State.reactRising (s : State) (src : Nat) : State :=
  let s := if s.onAt FLT_SRCCFG.INT src then s.interrupt else s
  let s := if s.onAt FLT_SRCCFG.NMI src then { s with flt := { s.flt with nmi := s.flt.nmi + 1 } } else s
  s.driveErrn

/-- The reactions that act on every event: BLKRST and CHIPRST (R571, R572). A BLKRST is dropped in a warm reset, and merges
with one that the block is in already (R517, R572). -/
def State.reactAlways (s : State) (src core : Nat) : State :=
  let s := if s.onAt FLT_SRCCFG.BLKRST src then
      match blockOf src core with
      | some b =>
        if s.on RST_CTL.WARM || s.flt.blockResets.contains b then s
        else { s with flt := { s.flt with blockResets := s.flt.blockResets ++ [b] } }
      | none => s.interrupt
    else s
  if s.onAt FLT_SRCCFG.CHIPRST src then (s.chipReset src).driveErrn else s

/-- A fault source fires; `core` is the engine core concerned, where one is. -/
def State.raiseFor (s : State) (src core : Nat) : State :=
  let rising := !s.sticky src
  let s := s.capture src
  let s := if rising then s.reactRising src else s
  s.reactAlways src core

/-- A fault source fires. -/
def State.raise (s : State) (src : Nat) : State := s.raiseFor src 0

end Sys2Proof.Machine
end

