-- ==== Sys2Proof/Machine/Events.lean ====
section
/-! DEFINITION. Event counters (R590–R597): the event numbers of R591 (where a chapter names two counts in one
phrase, such as hits and misses, each is an event: DEDUCED) and how an occurrence reaches its counters. Fault
source numbers of the blocks (R576) that more than one file uses. -/

namespace Sys2Proof.Machine

/-! ### Event numbers (R591) -/

-- power and thermal, from 0x001 and from 0x020
def Ev.stateEntries : Nat := 0x001
def Ev.stateTime : Nat := 0x002
def Ev.wakes : Nat := 0x003
def Ev.domRefusals : Nat := 0x004
def Ev.guardTime : Nat := 0x005
def Ev.throttleTime : Nat := 0x020
def Ev.sensorDiscards : Nat := 0x021
def Ev.railEnergy : Nat := 0x022
-- host ports and router
def Ev.reads : Nat := 0x040
def Ev.fullWrites : Nat := 0x041
def Ev.partialWrites : Nat := 0x042
def Ev.refusals : Nat := 0x043
def Ev.expiries : Nat := 0x044
def Ev.readLatency : Nat := 0x045
def Ev.writeLatency : Nat := 0x046
def Ev.linkDowns : Nat := 0x047
def Ev.flitsReplayed : Nat := 0x048
-- map and claims
def Ev.mapHits : Nat := 0x080
def Ev.mapMisses : Nat := 0x081
def Ev.secondaryWalks : Nat := 0x082
def Ev.audits : Nat := 0x083
def Ev.allocations : Nat := 0x084
def Ev.allocFailures : Nat := 0x085
-- Cirrus
def Ev.cirHits : Nat := 0x0C0
def Ev.cirMisses : Nat := 0x0C1
def Ev.mergeReads : Nat := 0x0C2
def Ev.cleanEvictions : Nat := 0x0C3
def Ev.writebacks : Nat := 0x0C4
def Ev.bufferHits : Nat := 0x0C5
def Ev.bufferWaits : Nat := 0x0C6
def Ev.bytesCorrected : Nat := 0x0C7
-- placement
def Ev.promotions : Nat := 0x100
def Ev.demotions : Nat := 0x101
def Ev.compactions : Nat := 0x102
def Ev.moveAborts : Nat := 0x103
def Ev.switchCancels : Nat := 0x104
def Ev.switchHold : Nat := 0x105
def Ev.blockFetches : Nat := 0x106
def Ev.usefulFills : Nat := 0x107
def Ev.candidates : Nat := 0x108
def Ev.candidatesLost : Nat := 0x109
def Ev.coldLeaves : Nat := 0x10A
def Ev.driftPins : Nat := 0x10B
-- codec
def Ev.compressed : Nat := 0x140
def Ev.storedRaw : Nat := 0x141
def Ev.decompressed : Nat := 0x142
def Ev.codecBytesIn : Nat := 0x143
def Ev.codecBytesOut : Nat := 0x144
def Ev.decodeRetries : Nat := 0x145
def Ev.relocations : Nat := 0x146
def Ev.heapWaits : Nat := 0x147
-- snapshot
def Ev.captures : Nat := 0x180
def Ev.captureHold : Nat := 0x181
def Ev.pageRecords : Nat := 0x182
def Ev.streamUnits : Nat := 0x183
def Ev.importRecords : Nat := 0x184
-- DRAM, from 0x1C0, and media, from 0x200
def Ev.dramReads : Nat := 0x1C0
def Ev.dramWrites : Nat := 0x1C1
def Ev.rowHits : Nat := 0x1C2
def Ev.writeDrains : Nat := 0x1C3
def Ev.panics : Nat := 0x1C4
def Ev.postponements : Nat := 0x1C5
def Ev.powerDowns : Nat := 0x1C6
def Ev.frzPoison : Nat := 0x1C7
def Ev.corrections : Nat := 0x200
def Ev.markCorrections : Nat := 0x201
def Ev.ues : Nat := 0x202
def Ev.correctiveDrops : Nat := 0x203
def Ev.scrubLines : Nat := 0x204
def Ev.poisonAdds : Nat := 0x205
def Ev.poisonRemovals : Nat := 0x206
def Ev.coarsePoisons : Nat := 0x207
-- protection
def Ev.sealedReads : Nat := 0x240
def Ev.sealedWritebacks : Nat := 0x241
def Ev.tagFailures : Nat := 0x242
def Ev.counterHits : Nat := 0x243
def Ev.counterMisses : Nat := 0x244
def Ev.reencryptions : Nat := 0x245
def Ev.rewritePages : Nat := 0x246
def Ev.rotationPages : Nat := 0x247
-- coherence
def Ev.halRequests : Nat := 0x280
def Ev.bisnpInv : Nat := 0x281
def Ev.bisnpData : Nat := 0x282
def Ev.biConflicts : Nat := 0x283
def Ev.biTime : Nat := 0x284
def Ev.holdWaits : Nat := 0x285
def Ev.halVictims : Nat := 0x286
def Ev.halBackground : Nat := 0x287
def Ev.halParked : Nat := 0x288
def Ev.halFenced : Nat := 0x289
-- queues
def Ev.descFetched : Nat := 0x2C0
def Ev.descCompleted : Nat := 0x2C1
def Ev.completionsLate : Nat := 0x2C2
def Ev.doorbells : Nat := 0x2C3
def Ev.doorbellsIgnored : Nat := 0x2C4
def Ev.descLatency : Nat := 0x2C5
-- regulator
def Ev.unitsGranted : Nat := 0x300
def Ev.bucketEmpty : Nat := 0x301
def Ev.yieldWindows : Nat := 0x302
def Ev.panicHeld : Nat := 0x303
def Ev.oldestAge : Nat := 0x304
-- Contrail, from 0x340, and the pair, from 0x380
def Ev.codewords : Nat := 0x340
def Ev.conCorrected : Nat := 0x341
def Ev.conUncorrectable : Nat := 0x342
def Ev.conPackets : Nat := 0x343
def Ev.conReplays : Nat := 0x344
def Ev.conNaks : Nat := 0x345
def Ev.creditStalls : Nat := 0x346
def Ev.windowStalls : Nat := 0x347
def Ev.conIdles : Nat := 0x348
def Ev.linesMirrored : Nat := 0x380
def Ev.mirLatency : Nat := 0x381
def Ev.journalLevel : Nat := 0x382
def Ev.lateAcks : Nat := 0x383
def Ev.stripesResynced : Nat := 0x384
def Ev.linesFetched : Nat := 0x385
def Ev.notHome : Nat := 0x386
-- engines
def Ev.worldCalls : Nat := 0x3C0
def Ev.asyncEntries : Nat := 0x3C1
def Ev.tlbMisses : Nat := 0x3C2
def Ev.walks : Nat := 0x3C3
def Ev.translationFaults : Nat := 0x3C4
def Ev.walkFaults : Nat := 0x3C5
def Ev.stage2Faults : Nat := 0x3C6
def Ev.invalidations : Nat := 0x3C7
def Ev.holdRefusals : Nat := 0x3C8
-- telemetry
def Ev.slowCycles : Nat := 0x3E0
def Ev.sweeps : Nat := 0x3E1
def Ev.samples : Nat := 0x3E2
def Ev.sampleDrops : Nat := 0x3E3
def Ev.tenantCopies : Nat := 0x3E4

/-! ### Fault sources of R576 that the host ports and telemetry own -/

def srcHostLink (n : Nat) : Nat := 8 + 2 * n
def srcHostErr (n : Nat) : Nat := 9 + 2 * n
def srcThermThrottle : Nat := 112
def srcThermSensor : Nat := 113
def srcCntOvf : Nat := 114
def srcSampleFull : Nat := 115

/-! ### Counting -/

/-- Largest value of a counter (R590). -/
def counterMax : Nat := 2 ^ 48 - 1

/-- Counter `c` takes the carries of the counter below it (R595). -/
def State.takesCarries (s : State) (c : Nat) : Bool := c % 8 != 0 && s.onAt TEL_CNTCFG.CHAIN (c - 1)

/-- Set the overflow bit of a counter; its rising edge interrupts where OVF_INT is 1 (R596). -/
def State.overflow (s : State) (c : Nat) : State :=
  let old := s.rdAt TEL_OVF.BITS (c / 64)
  let s' := s.wrAt TEL_OVF.BITS (c / 64) (setBit old (c % 64) true)
  if !bit old (c % 64) && s.onAt TEL_CNTCFG.OVF_INT c then s'.raise srcCntOvf else s'

/-- Add to a counter: carry along its chain, or saturate (R595, R596). `fuel` bounds the chain by the counters of a
bank. -/
def State.addCounter (s : State) (c n : Nat) : Nat → State
  | 0 => s
  | fuel + 1 =>
    let v := s.rdAt TEL_CNTVAL.VALUE c + n
    if v ≤ counterMax then s.wrAt TEL_CNTVAL.VALUE c v
    else if c % 8 != 7 && s.onAt TEL_CNTCFG.CHAIN c then
      (s.wrAt TEL_CNTVAL.VALUE c (v % 2 ^ 48)).addCounter (c + 1) 1 fuel
    else (s.wrAt TEL_CNTVAL.VALUE c counterMax).overflow c

/-- The ranges of events that a counter bank counts (R590, R591): its first and last event number; none for a bank that
counts any. -/
def bankRange (b : Nat) : Option (Nat × Nat) :=
  if b = 0 then some (0x000, 0x03F)
  else if b ≤ 4 then some (0x040, 0x07F)
  else if b ≤ 6 then some (0x080, 0x0BF)
  else if b ≤ 10 then some (0x0C0, 0x0FF)
  else if b ≤ 12 then some (0x100, 0x13F)
  else if b ≤ 14 then some (0x140, 0x17F)
  else if b = 15 then some (0x180, 0x1BF)
  else if b ≤ 23 then some (0x1C0, 0x23F)
  else if b ≤ 25 then some (0x240, 0x27F)
  else if b ≤ 27 then some (0x280, 0x2BF)
  else if b ≤ 29 then some (0x2C0, 0x2FF)
  else if b ≤ 31 then some (0x300, 0x33F)
  else if b ≤ 34 then some (0x340, 0x3BF)
  else if b ≤ 36 then some (0x3C0, 0x3DF)
  else if b = 37 then some (0x3E0, 0x3FF)
  else none

/-- An event number lies in the ranges of a bank (R590). -/
def bankCounts (b ev : Nat) : Bool :=
  match bankRange b with
  | none => true
  | some (first, last) => decide (first ≤ ev && ev ≤ last)

/-- The index restriction of a bank (R590): banks 1–4 take the links of one port, banks 16–23 two channels. The poison
list is one list for the device: its additions and removals have no channel and meet the restriction of any of those
banks (DESIGN CHOICE). -/
def bankIndex (b ev idx : Nat) : Bool :=
  if 1 ≤ b && b ≤ 4 then idx / 2 == b - 1
  else if 16 ≤ b && b ≤ 23 then ev == Ev.poisonAdds || ev == Ev.poisonRemovals || idx / 2 == b - 16
  else true

/-- An occurrence of an event with this index and slice reaches a counter (R590, R592, R593, R595). Event 0 is NONE
(R591). -/
def State.counterMatches (s : State) (c ev idx : Nat) (slice : Option Nat) : Bool :=
  !s.takesCarries c && s.rdAt TEL_CNTCFG.EVENT c == ev && ev != 0 && bankCounts (c / 8) ev && bankIndex (c / 8) ev idx &&
  (s.onAt TEL_CNTCFG.INDEX_ALL c || s.rdAt TEL_CNTCFG.INDEX c == idx) &&
  (!s.onAt TEL_CNTCFG.SLICE_EN c || slice == some (s.rdAt TEL_CNTCFG.SLICE c))

/-- An occurrence of an event: `n` is added to every counter that it reaches (R592–R596). -/
def State.occur (s : State) (ev idx n : Nat) (slice : Option Nat) : State :=
  ((s.copiesWith TEL_CNTCFG.EN 1).filter fun c => s.counterMatches c ev idx slice).foldl
    (fun s c => s.addCounter c n 8) s

/-- One occurrence that no slice caused. -/
def State.event (s : State) (ev idx : Nat) : State := s.occur ev idx 1 none

/-- One occurrence on a claim: attributed to the slice that owns it (R593). -/
def State.claimEvent (s : State) (ev idx claim : Nat) : State :=
  s.occur ev idx 1 (some (s.rdAt MAP_CLAIMATTR.SLICE claim))

end Sys2Proof.Machine
end

