-- ==== Sys2Proof/Machine/Dram.lean ====
section
/-! DEFINITION. The DRAM channels (08_dram_channels.md): DIMM geometry, address orders, frames, stored contents and the
write queues. -/

namespace Sys2Proof.Machine

/-! ### Geometry (R221, R224–R227) -/

/-- A row of the table of R221. Speeds are in MT/s; 0 where the population is not supported. -/
structure DimmRow where
  mrdimm : Bool
  gib : Nat
  x8 : Bool
  ranks : Nat
  rowBits : Nat
  colBits : Nat
  max1 : Nat
  max2 : Nat
  deriving DecidableEq, Repr

/-- The table of R221, in its order. -/
def dimmRows : List DimmRow := [
  ⟨false, 16, true, 1, 16, 6, 0, 6400⟩, ⟨false, 32, true, 2, 16, 6, 8800, 6400⟩,
  ⟨false, 32, false, 1, 16, 7, 0, 6400⟩, ⟨false, 64, false, 2, 16, 7, 8800, 6400⟩,
  ⟨false, 128, false, 2, 17, 7, 8800, 6400⟩, ⟨false, 256, false, 2, 18, 7, 8800, 6400⟩,
  ⟨false, 512, false, 4, 18, 7, 8000, 6400⟩, ⟨true, 64, false, 2, 16, 7, 12800, 0⟩,
  ⟨true, 128, false, 2, 17, 7, 12800, 0⟩, ⟨true, 256, false, 2, 18, 7, 12800, 0⟩]

/-- The speed bins that DMC_CFG.SPEED 1 to 7 selects, in MT/s (R250). -/
def speedBin (code : Nat) : Nat := [0, 4800, 5600, 6400, 7200, 8000, 8800, 12800].getD code 0

/-- What channel `c` holds beside its registers. -/
def State.chan (s : State) (c : Nat) : Channel := s.dram.channels.get {} c

/-- Replace what channel `c` holds. -/
def State.setChan (s : State) (c : Nat) (x : Channel) : State :=
  { s with dram := { s.dram with channels := s.dram.channels.set {} c x } }

/-- Geometry of a channel: DIMM row, DIMMs, ranks, whether it is in SPARE mode, and the address order. -/
structure Geometry where
  dimm : DimmRow
  dimms : Nat
  ranks : Nat
  spare : Bool
  order : Nat
  deriving DecidableEq, Repr

/-- The geometry of channel `c`, when its first DIMM is one of R221 (R224, R248). -/
def State.geometry (s : State) (c : Nat) : Option Geometry :=
  match (s.chan c).dimms with
  | [] => none
  | d :: ds =>
    match d.row.bind (dimmRows[·]?) with
    | none => none
    | some r =>
      some { dimm := r, dimms := ds.length + 1, ranks := r.ranks * (ds.length + 1)
             spare := s.onAt DMC_CHCFG.MODE c, order := s.rdAt DMC_CHCFG.AORDER c }

/-- Fields of a media address (R226). -/
inductive MediaField where
  | col | sub | bg | bank | rank | row
  deriving DecidableEq, Repr

/-- Bits `n` down from a field, lowest first. -/
def fieldBits (f : MediaField) (lo n : Nat) : List (MediaField × Nat) := (List.range n).map fun i => (f, lo + i)

/-- The fields that CLA bits 6, 7, … carry in the largest geometry, by address order (R226). -/
def orderBits (order : Nat) : List (MediaField × Nat) :=
  let spread := fieldBits .sub 0 1 ++ fieldBits .bg 0 3 ++ fieldBits .col 0 2 ++ fieldBits .bank 0 2 ++ fieldBits .col 2 5
  if order = 0 then
    fieldBits .col 0 7 ++ fieldBits .sub 0 1 ++ fieldBits .bg 0 3 ++ fieldBits .bank 0 2 ++ fieldBits .rank 0 3 ++
      fieldBits .row 0 18
  else if order = 2 then spread ++ fieldBits .row 0 18 ++ fieldBits .rank 0 3
  else spread ++ fieldBits .rank 0 3 ++ fieldBits .row 0 18

/-- The bit of a field exists in this geometry (R227). -/
def Geometry.hasBit (g : Geometry) (b : MediaField × Nat) : Bool :=
  match b.1 with
  | .col => decide (b.2 < g.dimm.colBits)
  | .rank => decide (2 ^ b.2 < g.ranks)
  | .row => decide (b.2 < g.dimm.rowBits)
  | _ => true

/-- The fields that CLA bits 6, 7, … carry in this geometry: absent bits are closed up (R227). -/
def Geometry.bits (g : Geometry) : List (MediaField × Nat) := (orderBits g.order).filter g.hasBit

/-- Value of a field of a line number of a channel, before the hash of order 3. -/
def pickField (f : MediaField) : List (MediaField × Nat) → Nat → Nat
  | [], _ => 0
  | (f', i) :: bs, line => (if f' = f ∧ line % 2 = 1 then 2 ^ i else 0) + pickField f bs (line / 2)

/-- A media address (R226). -/
structure MediaAddr where
  col : Nat
  sub : Nat
  bg : Nat
  bank : Nat
  rank : Nat
  row : Nat
  deriving DecidableEq, Repr

/-- The media address of a line number (CLA / 64) of a channel (R226, R227). -/
def Geometry.decode (g : Geometry) (line : Nat) : MediaAddr :=
  let row := pickField .row g.bits line
  let bg := pickField .bg g.bits line
  let bank := pickField .bank g.bits line
  { col := pickField .col g.bits line, sub := pickField .sub g.bits line, rank := pickField .rank g.bits line, row := row
    bg := if g.order = 3 then Nat.xor bg (row % 8) else bg
    bank := if g.order = 3 then Nat.xor bank (row / 8 % 4) else bank }

/-- Bytes of one rank. -/
def Geometry.rankBytes (g : Geometry) : Nat := 2 ^ (12 + g.dimm.rowBits + g.dimm.colBits)

/-- Bytes of the channel's CLA space. -/
def Geometry.bytes (g : Geometry) : Nat := g.ranks * g.rankBytes

/-- A frame (CLA / 4096) is a usable address: inside the channel and not in the spare rank (R224, R227). -/
def Geometry.frameOk (g : Geometry) (f : Nat) : Bool :=
  decide (f * 4096 < g.bytes) && !(g.spare && (g.decode (f * 64)).rank == g.ranks - 1)

/-- Frames in which the rank field keeps one value: 2 to the number of CLA bits from bit 12 below the rank field. -/
def Geometry.rankRun (g : Geometry) : Nat := 2 ^ ((g.bits.takeWhile fun b => !(b.1 == .rank)).length - 6)

/-- The frame itself when it is usable, else the first one after the hole of the spare rank (R227). -/
def Geometry.nextUsable (g : Geometry) (f : Nat) : Nat := if g.frameOk f then f else (f / g.rankRun + 1) * g.rankRun

/-- Usable frames of the channel. -/
def Geometry.frames (g : Geometry) : Nat := (if g.spare then (g.ranks - 1) * g.rankBytes else g.bytes) / 4096

/-- Channel and frame number of an MFN (R225). -/
def mfnChannel (mfn : Nat) : Nat := mfn / 2 ^ 28
def mfnFrame (mfn : Nat) : Nat := mfn % 2 ^ 28

/-- Channel of an internal line address (R225). -/
def lineChannel (line : Nat) : Nat := line / 2 ^ 34 % 16

/-- An MFN names a frame of a channel's usable capacity (R73). -/
def State.mfnOk (s : State) (mfn : Nat) : Bool :=
  match s.geometry (mfnChannel mfn) with
  | some g => decide (mfn < 2 ^ 32) && g.frameOk (mfnFrame mfn)
  | none => false

/-- The media address of an internal line address. -/
def State.mediaAddr (s : State) (line : Nat) : MediaAddr :=
  match s.geometry (lineChannel line) with
  | some g => g.decode (line % 2 ^ 34)
  | none => ⟨0, 0, 0, 0, 0, 0⟩

/-! ### Channel condition -/

/-- The channel is in FREEZE (R240). -/
def State.frozen (s : State) (c : Nat) : Bool := s.onAt DMC_CHSTAT.FROZEN c

/-- The channel answers reads and takes writebacks: not in FREEZE, or releasing (R243 step 1). -/
def State.serving (s : State) (c : Nat) : Bool := !s.frozen c || s.onAt DMC_CHSTAT.RELEASING c

/-- The channel is populated; a channel that was excluded at the cold reset counts as empty (R238, R248). -/
def State.populated (s : State) (c : Nat) : Bool := s.onAt DMC_CHSTAT.POP c

/-- SPARE-mode channels in service for metadata (R247). -/
def State.spareMode (s : State) (c : Nat) : Bool := s.onAt DMC_CHCFG.MODE c

/-! ### Frames (R228, R229) -/

/-- Frames that a use takes. -/
def FrameUse.size : FrameUse → Nat
  | .heap _ => 512
  | _ => 1

/-- The uses that lie on channel `c`, by frame number of the channel. -/
def State.usesOn (s : State) (c : Nat) : List (Nat × Nat) :=
  (s.dram.frames.filter fun e => mfnChannel e.1 == c).map fun e => (mfnFrame e.1, e.2.size)

/-- Frames in use on channel `c`, the metadata held there included. -/
def State.framesUsed (s : State) (c : Nat) : Nat :=
  ((s.usesOn c).map Prod.snd).sum + ceilDiv (s.chan c).metaBytes 4096

/-- Free frames of channel `c`. -/
def State.framesFree (s : State) (c : Nat) : Nat :=
  match s.geometry c with
  | some g => if s.populated c then g.frames - s.framesUsed c else 0
  | none => 0

/-- The first usable frame from `cand` on that no use covers; the uses rise. -/
def firstFree (g : Geometry) : List (Nat × Nat) → Nat → Nat
  | [], cand => cand
  | (f, n) :: us, cand =>
    if f + n ≤ cand then firstFree g us cand
    else if f ≤ cand then firstFree g us (g.nextUsable (f + n))
    else cand

/-- The first 2 MiB region from `cand` on that no use touches; the uses rise. -/
def firstRegion : List (Nat × Nat) → Nat → Nat
  | [], cand => cand
  | (f, n) :: us, cand =>
    if f + n ≤ cand * 512 then firstRegion us cand
    else if f < (cand + 1) * 512 then firstRegion us ((f + n + 511) / 512)
    else cand

/-- Every frame of a region is usable. -/
def Geometry.regionOk (g : Geometry) (r : Nat) : Bool :=
  (List.range 512).all fun i => g.frameOk (r * 512 + i)

/-- Channels from `start` on, round robin. -/
def fromChannel (start : Nat) : List Nat := (List.range 16).map fun i => (start + i) % 16

/-- A frame may be taken on the channel: it is not in FREEZE and has a free frame (R228, R243). -/
def State.hasFrame (s : State) (c : Nat) : Bool := !s.frozen c && decide (0 < s.framesFree c)

/-- The channel that gives the next Stratus frame (R228). -/
def State.frameChannel (s : State) : Option Nat :=
  match (fromChannel s.dram.rrPlain).find? fun c => !s.spareMode c && s.hasFrame c with
  | some c => some c
  | none => (fromChannel s.dram.rrSpare).find? fun c => s.spareMode c && s.hasFrame c

/-- First byte of a frame's internal address (R225). -/
def mfnBase (mfn : Nat) : Nat := mfn * 4096

/-- Canonical form of memory: addresses rise strictly, and no cell lists the zero that an unlisted address reads as. -/
def Memory.wf (mem : List Host.Cell) : Bool := Table.wf mem 0

/-- Memory without the cells of a range: it then reads as an unlisted address does. -/
def clearCells (mem : List Host.Cell) (lo n : Nat) : List Host.Cell :=
  mem.filter fun e => !(decide (lo ≤ e.1) && decide (e.1 < lo + n))

/-- Drop the members of a set that lie in a range. -/
def NSet.clear (t : NSet) (lo n : Nat) : NSet := t.filter fun k => !(decide (lo ≤ k) && decide (k < lo + n))

/-- Drop the entries of a table that lie in a range. -/
def Table.clear {α : Type} (t : Table α) (lo n : Nat) : Table α :=
  t.filter fun e => !(decide (lo ≤ e.1) && decide (e.1 < lo + n))

/-- Zero fill of a range of lines: they read zero, hold no poison pattern, and no queued write or pending entry of
theirs is left (R229, R264). -/
def State.zeroLines (s : State) (line n : Nat) : State :=
  let c := lineChannel line
  let ch := s.chan c
  let s := s.setChan c { ch with writes := ch.writes.filter fun w => !(decide (line ≤ w.line) && decide (w.line < line + n)) }
  { s with
    dram := { s.dram with mem := clearCells s.dram.mem (line * 64) (n * 64), poisoned := s.dram.poisoned.clear line n }
    med := { s.med with pending := s.med.pending.clear line n } }

/-- Take a zero-filled frame (R228, R229). -/
def State.takeFrame (s : State) (use : FrameUse) : Option (Nat × State) :=
  match s.frameChannel with
  | none => none
  | some c =>
    match s.geometry c with
    | none => none
    | some g =>
      let f := firstFree g (s.usesOn c) (g.nextUsable 0)
      if g.frameOk f then
        let mfn := c * 2 ^ 28 + f
        let d := if s.spareMode c then { s.dram with rrSpare := (c + 1) % 16 } else { s.dram with rrPlain := (c + 1) % 16 }
        some (mfn, { s with dram := { d with frames := s.dram.frames.put mfn use } }.zeroLines (mfn * 64) 64)
      else none

/-- Return a frame or region. -/
def State.giveFrame (s : State) (mfn : Nat) : State :=
  { s with dram := { s.dram with frames := s.dram.frames.erase mfn } }

/-! ### Stored contents and the write queue (R231, R232) -/

/-- One byte of DRAM. A byte that nothing has written reads zero (R229, R230; DESIGN CHOICE before initialization). -/
def State.memByte (s : State) (a : Nat) : Byte := Table.get s.dram.mem 0 a

/-- Write one byte of DRAM. -/
def State.setByte (s : State) (a : Nat) (b : Byte) : State :=
  { s with dram := { s.dram with mem := Table.set s.dram.mem 0 a b } }

/-- The line stored in the array at an internal line address. -/
def State.storedLine (s : State) (line : Nat) : Line :=
  Line.ofBytes ((List.range 64).map fun i => s.memByte (line * 64 + i))

/-- Write the bytes of a list from an address on. -/
def State.setBytes (s : State) (a : Nat) : List Byte → State
  | [] => s
  | b :: bs => (s.setByte a b).setBytes (a + 1) bs

/-- Write a line into the array, with or without the poison pattern (R258). A full-line write removes a pending entry
(R264). -/
def State.storeLine (s : State) (line : Nat) (l : Line) (poison : Bool) : State :=
  let s := s.setBytes (line * 64) l.bytes
  { s with
    dram := { s.dram with poisoned := if poison then s.dram.poisoned.add line else s.dram.poisoned.remove line }
    med := { s.med with pending := s.med.pending.erase line } }

/-- The queued write of a line, if there is one (R231). -/
def State.queuedWrite (s : State) (line : Nat) : Option ChannelWrite :=
  (s.chan (lineChannel line)).writes.find? fun w => w.line == line

/-- What a read of a line returns: the queued data, else the array (R231). -/
def State.mediaLine (s : State) (line : Nat) : Line :=
  match s.queuedWrite line with
  | some w => w.data
  | none => s.storedLine line

/-- A read of the line meets the poison pattern (R258). -/
def State.mediaPoisoned (s : State) (line : Nat) : Bool :=
  match s.queuedWrite line with
  | some w => w.poison
  | none => s.dram.poisoned.has line

/-! ### Commands as the diagnosis buffer records them (R276, R277) -/

/-- CMD codes of R277. -/
def cmdAct : Nat := 0
def cmdRd : Nat := 1
def cmdWr : Nat := 2
def cmdPre : Nat := 3
def cmdRefAb : Nat := 5
def cmdRefSb : Nat := 6
def cmdPde : Nat := 9
def cmdPdx : Nat := 10
def cmdSre : Nat := 11
def cmdSrx : Nat := 12

/-- The channel is in panic (R233). -/
def Channel.panic (x : Channel) : Bool := x.panicRead || x.panicWrite

/-- Put a command into a channel's record: the last 256 stay. -/
def State.recordCmd (s : State) (c cmd : Nat) (a : MediaAddr) (addr outcome master : Nat) : State :=
  let ch := s.chan c
  let rq := (s.reqs.filter fun r => r.stage == .dram && r.chan == c).length
  let d : DiagCmd := { ts := s.stamp % 2 ^ 32, cmd := cmd, subch := a.sub, rank := a.rank, bg := a.bg, bank := a.bank
                       addr := addr, outcome := outcome, master := master, panic := ch.panic
                       wq := ch.writes.length, rq := rq }
  s.setChan c { ch with recent := (d :: ch.recent).take 256 }

/-- Number of a bank within its channel (R277). -/
def MediaAddr.bankKey (a : MediaAddr) : Nat := 64 * a.rank + 32 * a.sub + 4 * a.bg + a.bank

/-- Issue a column command for a line: a rank in power-down leaves it (R236), and the bank's row is opened first. -/
def State.issue (s : State) (line cmd outcome : Nat) : State :=
  let c := lineChannel line
  let a := s.mediaAddr line
  let ch := s.chan c
  let s := if ch.poweredDown.has a.rank then
      (s.setChan c { ch with poweredDown := ch.poweredDown.remove a.rank }).recordCmd c cmdPdx a 0 0 15
    else s
  let m := s.dram.master
  let opened := ch.openRows.find a.bankKey
  let s := if opened = some a.row then s.event Ev.rowHits c
    else
      let s := if opened.isSome then s.recordCmd c cmdPre a 0 0 m else s
      let s := s.recordCmd c cmdAct a a.row 0 m
      s.setChan c { s.chan c with openRows := (s.chan c).openRows.put a.bankKey a.row }
  s.recordCmd c cmd a a.col outcome m

/-- Issue the oldest `n` queued writes of a channel. -/
def State.drain (s : State) (c : Nat) : Nat → State
  | 0 => s
  | n + 1 =>
    match (s.chan c).writes with
    | [] => s
    | w :: ws =>
      (((s.setChan c { s.chan c with writes := ws }).storeLine w.line w.data w.poison).issue w.line cmdWr 0).drain c n

/-- Entries at which a drain ends (R232, R233). -/
def State.drainEnd (s : State) (c : Nat) : Nat :=
  if (s.chan c).panic then s.rd DMC_SCHED.WQ_HIGH - 16 else s.rd DMC_SCHED.WQ_LOW

/-- Put a line write into its channel's write queue: it replaces a queued write to the line in its place (R231); at
WQ_HIGH the queue drains (R232). -/
def State.queueWrite (s : State) (line : Nat) (l : Line) (poison : Bool) (dpaLine : Nat) : State :=
  let c := lineChannel line
  let ch := s.chan c
  let w : ChannelWrite := ⟨line, l, poison, dpaLine⟩
  let ws := if (s.queuedWrite line).isSome then ch.writes.map fun x => if x.line = line then w else x
    else ch.writes ++ [w]
  let s := (s.setChan c { ch with writes := ws }).event Ev.dramWrites c
  if s.rd DMC_SCHED.WQ_HIGH ≤ ws.length then (s.event Ev.writeDrains c).drain c (ws.length - s.drainEnd c) else s

end Sys2Proof.Machine
end

