-- ==== Sys2Proof/Machine/Regulator.lean ====
section
/-! DEFINITION. Shared operations of the bandwidth regulator (13_bandwidth_regulation.md) and of the request sampler
(R602–R604). -/

namespace Sys2Proof.Machine

/-! ### Masters (R385) -/

def masterDrift : Nat := 8
def masterMirrorIn : Nat := 9
def masterMirrorOut : Nat := 10
def masterResync : Nat := 11
def masterSnapx : Nat := 12
def masterScrub : Nat := 13
def masterService : Nat := 14

/-- Buffer capacity of a master. -/
def bufferCapacity (m : Nat) : Nat := if m < 8 then 1024 else 2048

/-- The background masters. -/
def background (m : Nat) : Bool := m == masterDrift || (decide (masterResync ≤ m) && decide (m ≤ masterService))

/-- Value of a staged field in the active profile (R396). -/
def State.profile (s : State) (f : Fld) (m : Nat) : Nat := s.qos.active.get (f.resetAt m) (f.key m)

/-- Fields of the profile. -/
def profileFields : List Fld :=
  [QOS_BUCKET.RATE, QOS_BUCKET.BURST, QOS_BUCKET.YIELD, QOS_URG.U1, QOS_URG.U2, QOS_URG.U3, QOS_URG.TARGET]

/-- Urgency that a buffer level gives (R389). -/
def State.levelUrgency (s : State) (m level : Nat) : Nat :=
  let at16 := fun f => decide (s.profile f m * bufferCapacity m ≤ 16 * level)
  if at16 QOS_URG.U3 then 3 else if at16 QOS_URG.U2 then 2 else if at16 QOS_URG.U1 then 1 else 0

/-- Buffer level of a HOST master: its requests from decode until answer (R389). -/
def State.hostLevel (s : State) (link : Nat) : Nat := (s.reqs.filter fun r => r.link == link && !r.answered).length

/-- LEVEL and URGENCY of a HOST master follow its requests; urgency 2 asks for yield (R389, R392). -/
def State.hostStatus (s : State) (link : Nat) : State :=
  let u := s.levelUrgency link (s.hostLevel link)
  let s := (s.wrAt QOS_STAT.LEVEL link (s.hostLevel link)).wrAt QOS_STAT.URGENCY link u
  if 2 ≤ u then { s with qos := { s.qos with urgent := true } } else s

/-- Urgency of a master, as DevLoad reports it (R23). -/
def State.urgency (s : State) (m : Nat) : Nat := s.rdAt QOS_STAT.URGENCY m

/-- The bucket of a master has a token, or is not consulted (R387). -/
def State.hasToken (s : State) (m : Nat) : Bool :=
  s.profile QOS_BUCKET.RATE m == 0 || decide (0 < s.rdAt QOS_STAT.TOKENS m)

/-- Units of a master are granted (R386, R387). A background master whose bucket is empty waits at its port; the model
leaves that wait out (timing). -/
def State.takeUnits (s : State) (m n : Nat) : State :=
  let s := (s.wrAt QOS_CNT.GRANTED m (s.rdAt QOS_CNT.GRANTED m + n)).occur Ev.unitsGranted m n none
  let s := { s with dram := { s.dram with master := m } }
  if s.profile QOS_BUCKET.RATE m = 0 then s else s.subAt QOS_STAT.TOKENS m n

/-- Units of a background master for a channel in panic are held (R394). -/
def State.panicHolds (s : State) (m c : Nat) : Bool := background m && bit (s.rd QOS_STATUS.PANIC) c

/-- Units of a master are held by panic. -/
def State.holdUnits (s : State) (m n : Nat) : State := (s.putAt QOS_STAT.HELD m true).occur Ev.panicHeld m n none

/-- Panic of a channel as the regulator sees it (R394); with the last one gone no unit is held. -/
def State.showPanic (s : State) (c : Nat) (b : Bool) : State :=
  let s := s.wr QOS_STATUS.PANIC (setBit (s.rd QOS_STATUS.PANIC) c b)
  if s.rd QOS_STATUS.PANIC = 0 then (List.range 15).foldl (fun s m => s.putAt QOS_STAT.HELD m false) s else s

/-! ### The sampler (R602, R603) -/

/-- Records of the buffer. -/
def sampleCount : Nat := 8192

/-- A request passes the sampler's filters (R602). -/
def State.sampleEligible (s : State) (x : Sample) : Bool :=
  s.on TEL_SMPCFG.EN && bit (s.rd TEL_SMPCFG.LINKMASK) x.link && bit (s.rd TEL_SMPCFG.CLASSMASK) x.opClass &&
  (!s.on TEL_SMPCFG.SLICE_EN || x.slice == s.rd TEL_SMPCFG.SLICE) && decide (s.rd TEL_SMPCFG.MINLAT ≤ x.latency)

/-- An eligible request is selected: every 2^RATE-th, or where the random choice, which is an operand of its command, says
so (R602). -/
def State.sampleChosen (s : State) (drawn : Bool) : Bool :=
  if s.on TEL_SMPCFG.MODE then s.smp.eligible % 2 ^ s.rd TEL_SMPCFG.RATE == 0 else drawn

/-- Write a selected record: at most one in 4 ns, none while FULL is 1 (R602, R603). The rising edge of FULL interrupts. -/
def State.writeSample (s : State) (x : Sample) : State :=
  let early := match s.smp.lastAt with
    | some t => decide (s.time ≤ t + 1)
    | none => false
  if early || s.on TEL_SMPSTAT.FULL then (s.inc TEL_SMPDROP.DROPS).event Ev.sampleDrops 0
  else
    let k := s.rd TEL_SMPSTAT.WRIDX
    let q := s.rd TEL_SMPSTAT.NEXTSEQ
    let held := min (s.smp.held + 1) sampleCount
    let s := { s with smp := { s.smp with records := s.smp.records.put k { x with seq := q }, lastAt := some s.time
                                          held := held } }
    let s := ((s.wr TEL_SMPSTAT.WRIDX ((k + 1) % sampleCount)).wr TEL_SMPSTAT.NEXTSEQ (q + 1)).event Ev.samples 0
    if s.on TEL_SMPCFG.STOP && held == sampleCount then (s.put TEL_SMPSTAT.FULL true).raise srcSampleFull else s

/-- The sampler examines an answer (R602). -/
def State.sample (s : State) (x : Sample) (drawn : Bool) : State :=
  if s.sampleEligible x then
    let s := { s with smp := { s.smp with eligible := s.smp.eligible + 1 } }
    if s.sampleChosen drawn then s.writeSample x else s
  else s

end Sys2Proof.Machine
end

