-- ==== Sys2Proof/Machine/Media.lean ====
section
/-! DEFINITION. Media integrity on the read path (09_media_integrity.md): the poison list, corrections and their log, device
marks, and what an uncorrectable error starts. -/

namespace Sys2Proof.Machine

/-! ### The poison list (R262–R266) -/

/-- Entries of the poison list (R263). -/
def poisonCapacity : Nat := 1048576

/-- Entries held, pending ones included (R264, R285). -/
def State.poisonEntries (s : State) : Nat := s.med.poison.length + s.med.pending.length

/-- MED_POISONSTAT follows the list; OVERFLOW lasts until the list is empty (R266, R285). -/
def State.poisonStatus (s : State) : State :=
  let n := s.poisonEntries
  let s := (s.wr MED_POISONSTAT.ENTRIES n).put MED_POISONSTAT.FULL (decide (poisonCapacity ≤ n))
  if n = 0 then s.put MED_POISONSTAT.OVERFLOW false else s

/-- The line is in the poison list. -/
def State.listed (s : State) (dpaLine : Nat) : Bool := (s.med.poison.find dpaLine).isSome

/-- A line is poisoned while no entry is free (R266). -/
def State.poisonOverflow (s : State) : State :=
  if s.on MED_POISONSTAT.OVERFLOW then s
  else (s.put MED_POISONSTAT.OVERFLOW true).wr MED_POISONOVTS.TS s.stamp

/-- Where a line that must be poisoned without a free entry is written poisoned (R266): its own stored line, or the
first granule of its Nimbus block. -/
inductive PoisonPlace where
  | stored (line : Nat)
  | block (granule : Nat)
  | nowhere
  deriving DecidableEq, Repr

/-- Enter a line in the poison list, or fall back as R266 states. A listed line gets no second entry (R263). -/
def State.poisonLine (s : State) (dpaLine : Nat) (src : PoisonSource) (place : PoisonPlace) : State :=
  if s.listed dpaLine then s
  else if s.poisonEntries < poisonCapacity then
    ({ s with med := { s.med with poison := s.med.poison.put dpaLine ⟨src, s.stamp⟩ } }.poisonStatus).event Ev.poisonAdds 0
  else
    let s := s.poisonOverflow
    match place with
    | .stored line => { s with dram := { s.dram with poisoned := s.dram.poisoned.add line } }
    | .block g =>
      ({ s with dram := { s.dram with poisoned := s.dram.poisoned.add g }
                med := { s.med with coarse := s.med.coarse.add g } }).inc MED_POISONSTAT.COARSE |>.event Ev.coarsePoisons (lineChannel g)
    | .nowhere => s

/-- Enter a pending entry for an internal line (R264). -/
def State.poisonPending (s : State) (line : Nat) : State :=
  if (s.med.pending.find line).isSome then s
  else if s.poisonEntries < poisonCapacity then
    { s with med := { s.med with pending := s.med.pending.put line s.stamp } }.poisonStatus
  else s.poisonOverflow

/-- Remove a line's entry (R265). -/
def State.unpoison (s : State) (dpaLine : Nat) : State :=
  if s.listed dpaLine then
    ({ s with med := { s.med with poison := s.med.poison.erase dpaLine } }.poisonStatus).event Ev.poisonRemovals 0
  else s

/-- Remove the entries of a range of lines (R265). -/
def State.unpoisonRange (s : State) (dpaLine n : Nat) : State :=
  let kept := s.med.poison.clear dpaLine n
  ({ s with med := { s.med with poison := kept } }.poisonStatus).occur Ev.poisonRemovals 0
    (s.med.poison.length - kept.length) none

/-- A read through the map that meets the poison pattern of a pending entry makes it an ordinary entry (R264). -/
def State.settlePending (s : State) (line dpaLine : Nat) : State :=
  match s.med.pending.find line with
  | none => s
  | some ts =>
    { s with med := { s.med with pending := s.med.pending.erase line
                                 poison := s.med.poison.put dpaLine ⟨.internal, ts⟩ } }.poisonStatus

/-! ### Corrections (R259–R261) -/

/-- The marked device of a rank and subchannel, 15 for none (R284). -/
def State.mark (s : State) (c rank sub : Nat) : Nat := bits (s.rdAt MED_ERASE.MARKS c) (8 * rank + 4 * sub) 4

/-- Mark a device as failed (R259, R284). -/
def State.setMark (s : State) (c rank sub dev : Nat) : State :=
  let old := s.rdAt MED_ERASE.MARKS c
  let at_ := 2 ^ (8 * rank + 4 * sub)
  s.wrAt MED_ERASE.MARKS c (old - s.mark c rank sub * at_ + dev * at_)

/-- Entry `k` of the log has this key (R261). -/
def State.ceKey (s : State) (k c : Nat) (a : MediaAddr) (dev : Nat) : Bool :=
  s.onAt MED_CELOG2.VALID k && s.rdAt MED_CELOG2.CHANNEL k == c && s.rdAt MED_CELOG2.SUBCH k == a.sub &&
  s.rdAt MED_CELOG2.RANK k == a.rank && s.rdAt MED_CELOG2.BG k == a.bg && s.rdAt MED_CELOG2.BANK k == a.bank &&
  s.rdAt MED_CELOG2.ROW k == a.row && s.rdAt MED_CELOG2.DEVICE k == dev

/-- The entry that a new key takes: a free one, else the one with the lowest COUNT and the oldest LAST_TS among those
without ROWFLAG (R261). -/
def State.ceVictim (s : State) : Option Nat :=
  match (List.range 32).find? fun k => !s.onAt MED_CELOG2.VALID k with
  | some k => some k
  | none =>
    ((List.range 32).filter fun k => !s.onAt MED_CELOG2.ROWFLAG k).foldl (fun best k =>
      match best with
      | none => some k
      | some b =>
        if s.rdAt MED_CELOG2.COUNT k < s.rdAt MED_CELOG2.COUNT b ∨
            (s.rdAt MED_CELOG2.COUNT k = s.rdAt MED_CELOG2.COUNT b ∧
              s.rdAt MED_CELOG1.LAST_TS k < s.rdAt MED_CELOG1.LAST_TS b) then some k else some b) none

/-- ROWFLAG is set when COUNT reaches ROWTHRESH (R261). -/
def State.flagRow (s : State) (k : Nat) : State :=
  if s.rd MED_CECFG.ROWTHRESH ≤ s.rdAt MED_CELOG2.COUNT k then s.putAt MED_CELOG2.ROWFLAG k true else s

/-- Enter a correction in the log (R261). -/
def State.logCorrection (s : State) (c : Nat) (a : MediaAddr) (dev : Nat) : State :=
  match (List.range 32).find? fun k => s.ceKey k c a dev with
  | some k => ((s.incAt MED_CELOG2.COUNT k).wrAt MED_CELOG1.LAST_TS k s.stamp).flagRow k
  | none =>
    match s.ceVictim with
    | none => s.inc MED_CESTAT.LOST
    | some k =>
      let s := (s.wrAt MED_CELOG0.FIRST_TS k s.stamp).wrAt MED_CELOG1.LAST_TS k s.stamp
      let s := ((s.wrAt MED_CELOG2.CHANNEL k c).wrAt MED_CELOG2.SUBCH k a.sub).wrAt MED_CELOG2.RANK k a.rank
      let s := ((s.wrAt MED_CELOG2.BG k a.bg).wrAt MED_CELOG2.BANK k a.bank).wrAt MED_CELOG2.ROW k a.row
      let s := ((s.wrAt MED_CELOG2.DEVICE k dev).wrAt MED_CELOG2.COUNT k 1).putAt MED_CELOG2.ROWFLAG k false
      (s.putAt MED_CELOG2.VALID k true).flagRow k

/-- Different rows logged for a channel, subchannel, rank and device (R259). -/
def State.rowsLogged (s : State) (c sub rank dev : Nat) : Nat :=
  (((List.range 32).filter fun k =>
    s.onAt MED_CELOG2.VALID k && s.rdAt MED_CELOG2.CHANNEL k == c && s.rdAt MED_CELOG2.SUBCH k == sub &&
    s.rdAt MED_CELOG2.RANK k == rank && s.rdAt MED_CELOG2.DEVICE k == dev).map fun k =>
      (s.rdAt MED_CELOG2.BG k, s.rdAt MED_CELOG2.BANK k, s.rdAt MED_CELOG2.ROW k)).eraseDups.length

/-- Mark a device once its rows reach DEVROWS, one device for each rank and subchannel, on x4 channels (R259). -/
def State.markDevice (s : State) (c : Nat) (a : MediaAddr) (dev : Nat) : State :=
  let x4 := match s.geometry c with
    | some g => !g.dimm.x8
    | none => false
  if x4 && s.on MED_CECFG.ERASE_EN && s.mark c a.rank a.sub == 15 &&
      decide (s.rd MED_CECFG.DEVROWS ≤ s.rowsLogged c a.sub a.rank dev) then s.setMark c a.rank a.sub dev
  else s

/-- A corrected read: the correction is logged, unless it is confined to a marked device (R259, R261). The corrective
write is a write of master SCRUB of the data that the line already holds; it is done with the read, so that no write to the line comes
between (R260; DESIGN CHOICE). -/
def State.corrected (s : State) (line dev : Nat) : State :=
  let c := lineChannel line
  let a := s.mediaAddr line
  let m := s.dram.master
  let s := ((s.takeUnits masterScrub 1).event Ev.dramWrites c).issue line cmdWr 0
  let s := { s with dram := { s.dram with master := m } }
  if s.mark c a.rank a.sub = dev then s.event Ev.markCorrections c
  else ((s.event Ev.corrections c).logCorrection c a dev).markDevice c a dev

/-! ### Uncorrectable errors (R239, R245) -/

/-- FRZCAUSE codes of R254. -/
def causeUE : Nat := 1
def causeCAPAR : Nat := 2
def causeTHERMAL : Nat := 3

/-- Rank of a freeze cause: CAPAR above UE above THERMAL (R663). -/
def causeRank (c : Nat) : Nat := if c = causeCAPAR then 3 else if c = causeUE then 2 else if c = causeTHERMAL then 1 else 0

/-- Note a cause for which FREEZE entry, or the rule for a further cause, is still to run in this step. -/
def State.noteFreeze (s : State) (c cause : Nat) : State :=
  let ch := s.chan c
  match ch.freezeDue with
  | some old => if causeRank old < causeRank cause then s.setChan c { ch with freezeDue := some cause } else s
  | none => s.setChan c { ch with freezeDue := some cause }

/-- SPARESTAT codes of R254. -/
def spareReady : Nat := 1
def spareCopying : Nat := 2
def spareUsed : Nat := 3

/-- Start sparing of a rank into the spare (R245). -/
def State.startSparing (s : State) (c rank : Nat) : State :=
  let s := s.setChan c { s.chan c with sparePos := 0 }
  ((s.wrAt DMC_CHSTAT.SPARESTAT c spareCopying).wrAt DMC_CHSTAT.RETIRED c rank).wrAt DMC_CHSTAT.SPARECUR c 0

/-- An uncorrectable error on a line that was not poisoned: counted, raised and recorded; it freezes a FREEZE-mode
channel and spares the rank of a SPARE-mode one whose spare is ready; on a running channel the line is written
poisoned (R239, R245, R246, R258). -/
def State.ueFound (s : State) (line : Nat) : State :=
  let c := lineChannel line
  let s := ((s.incAt DMC_ERRCNT.UE c).event Ev.ues c).raise (48 + 2 * c)
  let ch := s.chan c
  let frozen := s.onAt DMC_CHSTAT.FROZEN c
  let lines := if (frozen || !s.spareMode c) && decide (ch.ueLines.length < 16) then ch.ueLines ++ [line] else ch.ueLines
  let capture := if frozen then ch.capture.map fun x => { x with ueLines := lines } else ch.capture
  let s := s.setChan c { ch with ueLines := lines, capture := capture }
  if s.spareMode c then
    let s := { s with dram := { s.dram with poisoned := s.dram.poisoned.add line } }
    if s.rdAt DMC_CHSTAT.SPARESTAT c = spareReady then s.startSparing c (s.mediaAddr line).rank else s
  else s.noteFreeze c causeUE

/-- The fault source of a tag failure (R314). -/
def srcMacFail : Nat := 80

/-- A tag mismatch on a clean decode (R296). -/
def State.macFail (s : State) : State := ((s.inc SEC_ERRCNT.MACFAIL).event Ev.tagFailures 0).raise srcMacFail

/-- What a read of a stored line gives. -/
inductive Got where
  | data (l : Line)
  | poison
  | bad
  deriving DecidableEq, Repr

/-- Read a stored line, given what its ECC check finds (R231, R257, R258, R260, R261, R239). `known` says that its line is
already in the poison list: its UE is counted only. -/
def State.readMedia (s : State) (line : Nat) (find : Ecc) (known : Bool) : Got × State :=
  match s.queuedWrite line with
  | some w => (if w.poison then .poison else .data w.data, s)
  | none =>
    let outcome := if s.dram.poisoned.has line then 3 else match find with
      | .clean => 0
      | .corrected _ => 1
      | .uncorrectable => 2
    let s := (s.event Ev.dramReads (lineChannel line)).issue line cmdRd outcome
    if s.dram.poisoned.has line then (.poison, s)
    else match find with
      | .clean => (.data (s.storedLine line), s)
      | .corrected d => (.data (s.storedLine line), s.corrected line d)
      | .uncorrectable =>
        if known then (.bad, s.incAt DMC_ERRCNT.UE (lineChannel line)) else (.bad, s.ueFound line)

end Sys2Proof.Machine
end

