-- ==== Sys2Proof/Machine/Claims.lean ====
section
/-! DEFINITION. Claims, capacity and the placement map (03_claims_and_placement_map.md): the shared operations. -/

namespace Sys2Proof.Machine

/-! ### Claims (R50–R53) -/

/-- Base and size of a claim in bytes (R81). -/
def State.claimBase (s : State) (c : Nat) : Nat := s.rdAt MAP_CLAIMBASE.BASE c * 2 ^ 28
def State.claimSize (s : State) (c : Nat) : Nat := 2 ^ 28 * s.rdAt MAP_CLAIMSIZE.SIZE c

/-- Claims whose COMMIT is 1, and those that are releasing (R65, R66). -/
def State.committed (s : State) : List Nat := s.copiesWith MAP_CLAIMATTR.COMMIT 1
def State.releasing (s : State) : List Nat := s.copiesWith MAP_CLAIMSTAT.RELEASING 1

/-- The DPA lies in the claim. -/
def State.inClaim (s : State) (c dpa : Nat) : Bool :=
  decide (s.claimBase c ≤ dpa) && decide (dpa < s.claimBase c + s.claimSize c)

/-- The committed claim that contains a DPA. -/
def State.claimOf (s : State) (dpa : Nat) : Option Nat := s.committed.find? fun c => s.inClaim c dpa

/-- The router takes the claim as committed: a sealed one only once its seal region is enabled (R54). -/
def State.claimServes (s : State) (c : Nat) : Bool :=
  s.onAt MAP_CLAIMATTR.COMMIT c && (!s.onAt MAP_CLAIMATTR.SEALED c || s.onAt MAP_CLAIMSTAT.SEAL_READY c)

/-- Grants are NONE, READ or READ_WRITE (R31, R83). -/
def grantNone : Nat := 0
def grantRead : Nat := 1
def grantWrite : Nat := 2

/-- The grant of a claim to an LD index (R53, R83). -/
def State.grant (s : State) (c ld : Nat) : Nat :=
  if ld < 32 then bits (s.rdAt MAP_CLAIMGRANT0.GRANTS c) (2 * ld) 2
  else bits (s.rdAt MAP_CLAIMGRANT1.GRANTS c) (2 * (ld - 32)) 2

/-- The LD with this number on a link: its LD index (R53). -/
def State.ldIndex (s : State) (link number : Nat) : Option Nat :=
  (s.lds.find? fun e => e.2.link == link && e.2.number == number).map Prod.fst

/-- An LD index exists. -/
def State.ldExists (s : State) (ld : Nat) : Bool := (s.lds.find ld).isSome

/-- Grants in two register values break a rule of R83: a reserved value, a grant to a nonexistent LD, or a SHARED
claim granting LDs on more than 8 links. -/
def State.grantsBad (s : State) (g0 g1 : Nat) (shared : Bool) : Bool :=
  let g := fun ld => if ld < 32 then bits g0 (2 * ld) 2 else bits g1 (2 * (ld - 32)) 2
  let links := (((List.range 64).filter fun ld => g ld != 0).filterMap fun ld =>
    (s.lds.find ld).map fun x => x.link).eraseDups
  (List.range 64).any (fun ld => g ld == 3 || (g ld != 0 && !s.ldExists ld)) || (shared && decide (8 < links.length))

/-! ### Capacity (R55–R58, R60, R63) -/

/-- Round up to a multiple of 2 MiB. -/
def up2M (b : Nat) : Nat := 2 ^ 21 * ceilDiv b (2 ^ 21)

/-- Round down to a whole GiB. -/
def downGiB (b : Nat) : Nat := 2 ^ 30 * (b / 2 ^ 30)

/-- Reservation of a claim (R56). -/
def State.reservation (s : State) (c : Nat) : Nat := up2M (s.claimSize c * s.rdAt MAP_CLAIMATTR.FLOOR c / 8)

/-- Metadata charge of a claim (R56): size / 128, and size / 56 more for a sealed one. -/
def State.metadataCharge (s : State) (c : Nat) : Nat :=
  if s.onAt MAP_CLAIMATTR.SEALED c then up2M (ceilDiv (s.claimSize c * 184) 7168) else up2M (s.claimSize c / 128)

/-- The whole charge of a claim. -/
def State.claimCharge (s : State) (c : Nat) : Nat := s.reservation c + s.metadataCharge c

/-- MAP_DPACAP in bytes (R85). -/
def State.dpaCap (s : State) : Nat := s.rd MAP_DPACAP.CAP * 2 ^ 28

/-- Installed capacity and the capacity of spare ranks, over populated channels (R55, R224). -/
def State.installed (s : State) : Nat :=
  ((List.range 16).map fun c =>
    match s.geometry c with
    | some g => if s.populated c then g.bytes else 0
    | none => 0).sum
def State.spareBytes (s : State) : Nat :=
  ((List.range 16).map fun c =>
    match s.geometry c with
    | some g => if s.populated c && g.spare then g.rankBytes else 0
    | none => 0).sum

/-- Usable capacity by the formula of R55, as installed less the terms, or 0 where the terms exceed it. -/
def State.usableNow (s : State) : Nat :=
  s.installed - s.spareBytes - 2 * s.dpaCap / 262144 - 2 ^ 30 - 4 * 2 ^ 30

/-- Storm reserve for a usable capacity (R57). -/
def State.stormFor (s : State) (usable : Nat) : Nat := downGiB (usable * s.rd MAP_STORMCFG.PCT / 100)

/-- Free space of the shared pool: what admission has not charged, less the draws and what frozen channels took away
(R58, R60, R64). -/
def State.sharedFree (s : State) : Nat :=
  s.rd MAP_CAPUSABLE.BYTES - s.rd MAP_CAPSTORMSIZE.BYTES - s.rd MAP_CAPCHARGED.BYTES - s.map.sharedUsed -
    (s.map.frozenOut.map Prod.snd).sum

/-- Free space of the storm reserve. -/
def State.stormFree (s : State) : Nat := s.rd MAP_CAPSTORMSIZE.BYTES - s.map.stormUsed

/-- The Squall level (R63). -/
def State.squallLevel (s : State) : Nat := downGiB (s.rd MAP_CAPUSABLE.BYTES * s.rd MAP_SQUALL.PCT / 100)

/-- Fault sources 24–30 (R79). -/
def srcMapRepair : Nat := 24
def srcMapLost : Nat := 25
def srcMapIncoherent : Nat := 26
def srcMapCachePar : Nat := 27
def srcCapSquall : Nat := 28
def srcCapStorm : Nat := 29
def srcCapDrop : Nat := 30

/-- The readouts follow the accounts; CAP_SQUALL is set when free shared capacity falls below the Squall level, and
re-arms 1% of usable capacity above it (R63, R86). -/
def State.accounts (s : State) : State :=
  let s := (s.wr MAP_CAPSHAREDFREE.BYTES s.sharedFree).wr MAP_CAPSTORMFREE.BYTES s.stormFree
  if s.rd MAP_CAPUSABLE.BYTES = 0 then s
  else if s.map.squallArmed then
    if s.sharedFree < s.squallLevel then
      ({ s with map := { s.map with squallArmed := false } }).raise srcCapSquall
    else s
  else if s.squallLevel + s.rd MAP_CAPUSABLE.BYTES / 100 < s.sharedFree then
    { s with map := { s.map with squallArmed := true } }
  else s

/-- Bytes a claim has drawn from its reservation. -/
def State.resvUsed (s : State) (c : Nat) : Nat := s.map.resvUsed.get 0 c

/-- A frozen channel holds part of the space that reservations counted on: what is reserved and not yet drawn exceeds
the free frames of the channels in service (R60, R64; DEDUCED). -/
def State.frozenShortfall (s : State) : Bool :=
  (List.range 16).any (fun c => s.frozen c) &&
  decide (((List.range 16).map fun c => if s.frozen c then 0 else s.framesFree c * 4096).sum <
    (s.committed.map fun c => s.reservation c - s.resvUsed c).sum)

/-- Draw space for a claim in the order of R60; none where every source fails. -/
def State.drawSpace (s : State) (c bytes : Nat) : Option State :=
  let short := s.frozenShortfall
  let used := s.rdAt MAP_CLAIMUSED.BYTES c
  let take := fun (s : State) => (s.wrAt MAP_CLAIMUSED.BYTES c (used + bytes)).accounts
  if s.resvUsed c + bytes ≤ s.reservation c && !short then
    some (take { s with map := { s.map with resvUsed := s.map.resvUsed.set 0 c (s.resvUsed c + bytes) } })
  else if bytes ≤ s.sharedFree then
    some (take { s with map := { s.map with sharedUsed := s.map.sharedUsed + bytes } })
  else if (s.onAt MAP_CLAIMATTR.TYPE c || short) && decide (bytes ≤ s.stormFree) then
    let first := s.map.stormUsed == 0
    let s := { s with map := { s.map with stormUsed := s.map.stormUsed + bytes } }
    some (take (if first then s.raise srcCapStorm else s))
  else none

/-- Return space of a claim: what it drew beyond its reservation goes first to the storm reserve and then to the shared
pool, the rest to its reservation (R60). -/
def State.returnSpace (s : State) (c bytes : Nat) : State :=
  let used := s.rdAt MAP_CLAIMUSED.BYTES c
  let beyond := min bytes (used - s.resvUsed c)
  let storm := min beyond s.map.stormUsed
  let shared := min (beyond - storm) s.map.sharedUsed
  let s := { s with map := { s.map with
    stormUsed := s.map.stormUsed - storm, sharedUsed := s.map.sharedUsed - shared
    resvUsed := s.map.resvUsed.set 0 c (s.resvUsed c - (bytes - beyond)) } }
  (s.wrAt MAP_CLAIMUSED.BYTES c (used - bytes)).accounts

/-! ### The map entry (R68, R69) -/

/-- CRC-8 with polynomial x^8 + x^2 + x + 1, most significant bit first (R68). -/
def crc8Byte (crc : Nat) : Nat → Nat
  | 0 => crc
  | n + 1 => crc8Byte ((if crc.testBit 7 then Nat.xor (crc * 2) 7 else crc * 2) % 256) n
def crc8 (bytes : List Byte) : Nat := bytes.foldl (fun crc b => crc8Byte (Nat.xor crc b.toNat) 8) 0

/-- STATE codes (R69). -/
def PageState.code : PageState → Nat
  | .unbacked => 0 | .stratus => 1 | .nimbus => 2 | .inFlight => 3 | .lost => 4
def PageState.ofCode : Nat → Option PageState
  | 0 => some .unbacked | 1 => some .stratus | 2 => some .nimbus | 3 => some .inFlight | 4 => some .lost
  | _ => none

/-- LOCATION as bits [127:64] of the entry (R68). -/
def MapEntry.locationWord (e : MapEntry) : Nat :=
  match e.loc with
  | .nowhere => 0
  | .frame mfn => mfn
  | .run heap c0 c1 c2 c3 =>
    heap + c0 * 2 ^ 38 + c1 * 2 ^ 43 + c2 * 2 ^ 48 + c3 * 2 ^ 53 + (if e.state = .inFlight then 2 ^ 63 else 0)

/-- Bits [55:0] of the entry (R68). -/
def MapEntry.lowWord (e : MapEntry) : Nat :=
  e.state.code + flag e.snap * 2 ^ 4 + flag e.sealed * 2 ^ 5 + e.keygen * 2 ^ 6 + e.keyid * 2 ^ 7 + e.claim * 2 ^ 17 +
    e.heat * 2 ^ 30 + e.version * 2 ^ 38 + e.hstamp * 2 ^ 46 + e.hint * 2 ^ 54

/-- ECHK: CRC-8 over bytes 0–6 and 8–15 (R68). -/
def entryCheck (low loc : Nat) : Nat := crc8 (toBytes low 7 ++ toBytes loc 8)

/-- The 128-bit word of an entry (R68). -/
def MapEntry.encode (e : MapEntry) : Nat :=
  e.lowWord + entryCheck e.lowWord e.locationWord * 2 ^ 56 + e.locationWord * 2 ^ 64

/-- LOCATION for a state, when its reserved bits are 0 (R68, R73). -/
def decodeLocation (st : PageState) (w : Nat) : Option Location :=
  let run := fun (w : Nat) =>
    if w / 2 ^ 58 = 0 then some (Location.run (bits w 0 38) (bits w 38 5) (bits w 43 5) (bits w 48 5) (bits w 53 5)) else none
  let frame := fun (w : Nat) => if w / 2 ^ 32 = 0 then some (Location.frame w) else none
  match st with
  | .unbacked | .lost => if w = 0 then some .nowhere else none
  | .stratus => frame w
  | .nimbus => run w
  | .inFlight => if w.testBit 63 then run (w - 2 ^ 63) else frame w

/-- The entry that a stored word spells; none where ECHK, STATE or a reserved bit is wrong (R68, R73). -/
def MapEntry.decode (w : Nat) : Option MapEntry :=
  let low := bits w 0 56
  let loc := bits w 64 64
  if bits w 56 8 ≠ entryCheck low loc then none
  else
    match PageState.ofCode (bits low 0 4) with
    | none => none
    | some st =>
      (decodeLocation st loc).map fun l =>
        { state := st, snap := bit low 4, sealed := bit low 5, keygen := bits low 6 1, keyid := bits low 7 10
          claim := bits low 17 13, heat := bits low 30 8, version := bits low 38 8, hstamp := bits low 46 8
          hint := bits low 54 2, loc := l }

/-- The entry of a page that nothing has written: UNBACKED, of the claim that contains it (R65; DEDUCED). -/
def freshEntry (c : Nat) : MapEntry := { claim := c }

/-- Total granules of a run (R68). -/
def Location.granules : Location → Nat
  | .run _ c0 c1 c2 c3 => c0 + c1 + c2 + c3
  | _ => 0

/-- Bytes a page is charged for its location (R60). -/
def Location.bytes : Location → Nat
  | .nowhere => 0
  | .frame _ => 4096
  | l => l.granules * 64

/-- Count and first granule of block `b` of a run (R68). -/
def Location.blockCount (l : Location) (b : Nat) : Nat :=
  match l with
  | .run _ c0 c1 c2 c3 => [c0, c1, c2, c3].getD b 0
  | _ => 0
def Location.blockStart (l : Location) (b : Nat) : Nat :=
  match l with
  | .run h c0 c1 c2 c3 => h + ([c0, c1, c2, c3].take b).sum
  | _ => 0

/-- A location is one that a walk accepts (R73, R171): a usable frame, or a run with counts of 1–16 inside the filled
part of a segment in use. -/
def State.locationOk (s : State) (l : Location) : Bool :=
  match l with
  | .nowhere => true
  | .frame mfn => s.mfnOk mfn
  | .run h c0 c1 c2 c3 =>
    [c0, c1, c2, c3].all (fun c => decide (1 ≤ c) && decide (c ≤ 16)) &&
    match s.nmb.segments.find (h / 32768) with
    | none => false
    | some g => decide (h % 32768 + c0 + c1 + c2 + c3 ≤ g.fill)

/-- Channel that holds a location (R225, R172). -/
def State.locationChannel (s : State) (l : Location) : Option Nat :=
  match l with
  | .nowhere => none
  | .frame mfn => some (mfnChannel mfn)
  | .run h _ _ _ _ => (s.nmb.segments.find (h / 32768)).map fun g => g.channel

/-- Internal line address of a heap granule (R171, R172, R225). -/
def State.granuleLine (s : State) (h : Nat) : Nat :=
  match s.nmb.segments.find (h / 32768) with
  | some g => g.channel * 2 ^ 34 + g.region * 32768 + h % 32768
  | none => 0

/-! ### The two copies (R71–R74) -/

/-- Which copy of the map. -/
inductive Copy where
  | primary | secondary
  deriving DecidableEq, Repr

/-- Channel of a copy (R247). -/
def State.copyChannel (s : State) : Copy → Nat
  | .primary => s.rd DMC_METACFG.PRIMARY
  | .secondary => s.rd DMC_METACFG.SECONDARY

/-- Stored word of a page's entry in a copy. -/
def State.leafWord (s : State) (k : Copy) (dpn c : Nat) : Nat :=
  match k with
  | .primary => s.map.primary.get (freshEntry c).encode dpn
  | .secondary => s.map.secondary.get (freshEntry c).encode dpn

/-- Write a page's entry in one copy. On a frozen channel the unit is recorded as stale and nothing is written (R242). -/
def State.writeLeaf (s : State) (k : Copy) (dpn : Nat) (e : MapEntry) : State :=
  let c := s.copyChannel k
  if s.frozen c then
    let ch := s.chan c
    if ch.stale.has (dpn / 512) then s
    else if ch.stale.length < 4096 then
      (s.setChan c { ch with stale := ch.stale.add (dpn / 512) }).incAt DMC_ERRCNT.STALE c
    else s.putAt DMC_CHSTAT.STALEFULL c true
  else
    match k with
    | .primary => { s with map := { s.map with primary := s.map.primary.put dpn e.encode } }
    | .secondary => { s with map := { s.map with secondary := s.map.secondary.put dpn e.encode } }

/-- Write a page's entry to both copies, the secondary first (R76). -/
def State.writeCopies (s : State) (dpn : Nat) (e : MapEntry) : State :=
  (s.writeLeaf .secondary dpn e).writeLeaf .primary dpn e

/-- Directory word of a 2 MiB range in a copy: VALID, and the leaf's address in the copy's metadata window (R71). -/
def State.dirWord (s : State) (k : Copy) (dir : Nat) : Nat :=
  let low := 1 + (s.copyChannel k * 2 ^ 40 + dir * 2 ^ 13) % 2 ^ 48
  low + crc8 (toBytes low 7) * 2 ^ 56

/-- How a directory entry read from a copy fails (R73). -/
inductive DirFault where
  | good | bad | pointer
  deriving DecidableEq, Repr

/-- Check a directory entry as it was read (R73): ECC, ECHK, VALID, and the pointer. -/
def State.checkDir (s : State) (k : Copy) (dir : Nat) (f : CopyFind) : DirFault :=
  match f with
  | .uncorrectable => .bad
  | .word flips =>
    let w := Nat.xor (s.dirWord k dir) flips
    if bits w 56 8 ≠ crc8 (toBytes w 7) then .bad
    else if !w.testBit 0 then .bad
    else if bits w 0 56 ≠ bits (s.dirWord k dir) 0 56 then .pointer
    else .good

/-- Check a leaf entry as it was read (R73): ECC, ECHK, STATE, CLAIM, reserved bits and location. -/
def State.checkLeaf (s : State) (k : Copy) (dpn c : Nat) (f : CopyFind) : Option MapEntry :=
  match f with
  | .uncorrectable => none
  | .word flips =>
    match MapEntry.decode (Nat.xor (s.leafWord k dpn c) flips) with
    | none => none
    | some e => if e.claim = c && s.locationOk e.loc then some e else none

/-! ### The map cache (R75) -/

/-- Set of a page (R75). -/
def mapSet (dpn : Nat) : Nat :=
  Nat.xor (Nat.xor (dpn % 65536) (dpn / 65536 % 65536)) (if dpn.testBit 32 then 0x8000 else 0)

/-- Tree pseudo-LRU over 16 leaves: bits 1–15 of the word are the nodes, node 1 the root; a 0 points to the lower half.
Make leaf `w` the most recently used: every node on its path points away from it (R75, R96; DEDUCED). -/
def plruTouch (t w : Nat) : Nat :=
  let t := setBit t 1 (!w.testBit 3)
  let t := setBit t (2 + w / 8) (!w.testBit 2)
  let t := setBit t (4 + w / 4) (!w.testBit 1)
  setBit t (8 + w / 2) (!w.testBit 0)

/-- Make leaf `w` the next victim: every node on its path points to it. -/
def plruAim (t w : Nat) : Nat :=
  let t := setBit t 1 (w.testBit 3)
  let t := setBit t (2 + w / 8) (w.testBit 2)
  let t := setBit t (4 + w / 4) (w.testBit 1)
  setBit t (8 + w / 2) (w.testBit 0)

/-- Some eligible leaf lies in `[lo, lo + n)`. -/
def plruAny (ok : Nat → Bool) (lo n : Nat) : Bool := (List.range n).any fun i => ok (lo + i)

/-- The victim: follow the nodes from the root, taking the other half where the one pointed to has no eligible leaf. -/
def plruVictim (t : Nat) (ok : Nat → Bool) : Option Nat :=
  let go := fun (node lo n : Nat) =>
    let upper := t.testBit node
    if upper then (if plruAny ok (lo + n) n then lo + n else lo) else (if plruAny ok lo n then lo else lo + n)
  if plruAny ok 0 16 then
    let a := go 1 0 8
    let b := go (2 + a / 8) a 4
    let c := go (4 + b / 4) b 2
    some (go (8 + c / 2) c 1)
  else none

/-- Way of the map cache that holds a page. -/
def State.mapWay (s : State) (dpn : Nat) : Option Nat :=
  ((List.range 16).map fun w => mapSet dpn * 16 + w).find? fun k =>
    match s.map.cache.find k with
    | some x => x.dpn == dpn
    | none => false

/-- Cached entry of a page. -/
def State.cached (s : State) (dpn : Nat) : Option MapEntry :=
  (s.mapWay dpn).bind fun k => (s.map.cache.find k).map fun x => x.entry

/-- Store into a way of the map cache. -/
def State.setMapWay (s : State) (k : Nat) (x : MapWay) : State :=
  { s with map := { s.map with cache := s.map.cache.put k x } }

/-- Mark a way of the map cache as most recently used. -/
def State.touchMap (s : State) (k : Nat) : State :=
  { s with map := { s.map with plru := s.map.plru.set 0 (k / 16) (plruTouch (s.map.plru.get 0 (k / 16)) (k % 16)) } }

/-- Evict a way: a dirty entry is written back whole to both copies (R75). -/
def State.evictMap (s : State) (k : Nat) : State :=
  match s.map.cache.find k with
  | none => s
  | some x =>
    let s := { s with map := { s.map with cache := s.map.cache.erase k } }
    if x.dirty then s.writeCopies x.dpn x.entry else s

/-- Install an entry, evicting the pseudo-LRU victim; entries of IN_FLIGHT pages and LOST entries without a writable
leaf are skipped (R75). -/
def State.installMap (s : State) (dpn : Nat) (e : MapEntry) (leafless : Bool) : State :=
  let set := mapSet dpn
  match s.mapWay dpn with
  | some k => (s.setMapWay k ⟨dpn, e, false, leafless⟩).touchMap k
  | none =>
    match (List.range 16).find? fun w => (s.map.cache.find (set * 16 + w)).isNone with
    | some w => (s.setMapWay (set * 16 + w) ⟨dpn, e, false, leafless⟩).touchMap (set * 16 + w)
    | none =>
      let ok := fun w => match s.map.cache.find (set * 16 + w) with
        | some x => !(x.entry.state == .inFlight) && !x.leafless
        | none => true
      match plruVictim (s.map.plru.get 0 set) ok with
      | none => s
      | some w =>
        let k := set * 16 + w
        ((s.evictMap k).setMapWay k ⟨dpn, e, false, leafless⟩).touchMap k

/-- Change the cached entry of a page without a change of R77: heat, hint and SNAP; the way becomes dirty (R75). -/
def State.touchEntry (s : State) (dpn : Nat) (g : MapEntry → MapEntry) : State :=
  match s.mapWay dpn with
  | none => s
  | some k =>
    match s.map.cache.find k with
    | none => s
    | some x => s.setMapWay k { x with entry := g x.entry, dirty := true }

/-- A page's entry as the device holds it: cached, else the primary copy as stored, else the secondary (R72). -/
def State.entry (s : State) (dpn : Nat) : MapEntry :=
  match s.cached dpn with
  | some e => e
  | none =>
    let c := (s.claimOf (dpn * 4096)).getD 0
    match MapEntry.decode (s.leafWord .primary dpn c) with
    | some e => e
    | none => (MapEntry.decode (s.leafWord .secondary dpn c)).getD (freshEntry c)

/-- Replace a page's entry everywhere: secondary copy, primary copy, cached entry (R76). -/
def State.replaceEntry (s : State) (dpn : Nat) (e : MapEntry) : State :=
  let s := s.writeCopies dpn e
  match s.mapWay dpn with
  | none => s
  | some k => s.setMapWay k ⟨dpn, e, false, false⟩

/-- An entry with VERSION incremented (R77). -/
def MapEntry.bump (e : MapEntry) : MapEntry := { e with version := (e.version + 1) % 256 }

/-! ### Records (R88) -/

/-- Kinds of MAP_FLOG. -/
def flogRepair : Nat := 0
def flogPtr : Nat := 1
def flogLost : Nat := 2
def flogIncoherent : Nat := 3
def flogDrop : Nat := 4

/-- Write a MAP_FLOG record into the first free entry, if one is free (R88). -/
def State.flog (s : State) (dpn line kind copy : Nat) : State :=
  match (List.range 8).find? fun k => !s.onAt MAP_FLOG.VALID k with
  | none => s
  | some k =>
    ((((((s.wrAt MAP_FLOG.TS k s.stamp).wrAt MAP_FLOG.DPN k dpn).wrAt MAP_FLOG.LINE k line).wrAt MAP_FLOG.KIND k kind).wrAt
      MAP_FLOG.COPY k copy).putAt MAP_FLOG.VALID k true)

/-- The trace of an allocation failure (R62): counted, logged, raised. -/
def State.dropTrace (s : State) (dpn line : Nat) : State :=
  ((s.inc MAP_ERRCNT.DROPS).flog dpn line flogDrop 0).raise srcCapDrop

end Sys2Proof.Machine
end

