-- ==== Sys2Proof/Machine/Codec.lean ====
section
/-! DEFINITION. The Nimbus block format (R157–R164), the heap (R171–R176) and reading a block's granules. -/

namespace Sys2Proof.Machine

/-! ### Check values -/

/-- CRC-32C, reflected polynomial (R160). -/
def crc32cByte (crc : Nat) : Nat → Nat
  | 0 => crc
  | n + 1 => crc32cByte (if crc % 2 = 1 then Nat.xor (crc / 2) 0x82F63B78 else crc / 2) n
def crc32c (bytes : List Byte) : Nat :=
  Nat.xor (bytes.foldl (fun crc b => crc32cByte (Nat.xor crc b.toNat) 8) 0xFFFFFFFF) 0xFFFFFFFF

/-! ### Decoding (R159, R162) -/

/-- Kinds of decode failure (R162). -/
inductive DecodeFault where
  | crc | header | overrun | length | offset | padding | media | pipe
  deriving DecidableEq, Repr

/-- The codes of R162. -/
def DecodeFault.code : DecodeFault → Nat
  | .crc => 0 | .header => 1 | .overrun => 2 | .length => 3 | .offset => 4 | .padding => 5 | .media => 6 | .pipe => 7

/-- Append `len` bytes to an output held newest first, each the byte `off` positions before it (R159). -/
def copyBack (out : List Byte) (off : Nat) : Nat → List Byte
  | 0 => out
  | n + 1 => copyBack (out.getD (off - 1) 0 :: out) off n

/-- Expand a token stream; the output is held newest first with its size. Every token takes at least one byte, so the
body's length is fuel enough (R159, R162). -/
def expandTokens : Nat → List Byte → List Byte → Nat → Except DecodeFault (List Byte)
  | _, [], out, size => if size = 1024 then .ok out else .error .length
  | 0, _ :: _, _, _ => .error .length
  | fuel + 1, t :: body, out, size =>
    let tag := t.toNat
    if tag < 0x40 then
      let len := tag + 1
      if body.length < len then .error .overrun
      else if 1024 < size + len then .error .length
      else expandTokens fuel (body.drop len) ((body.take len).reverse ++ out) (size + len)
    else if tag < 0x80 then
      let len := tag - 0x3F
      if 1024 < size + len then .error .length
      else expandTokens fuel body (List.replicate len 0 ++ out) (size + len)
    else
      let code := tag / 4 % 32
      let need := if code < 31 then 1 else 2
      if body.length < need then .error .overrun
      else
        let off := tag % 4 * 256 + (body.getD 0 0).toNat
        let len := if code = 31 then 35 + (body.getD 1 0).toNat else code + 4
        if off = 0 ∨ size < off then .error .offset
        else if 1024 < size + len then .error .length
        else expandTokens fuel (body.drop need) (copyBack out off len) (size + len)

/-- The block that a token stream spells (R159). -/
def expand (tokens : List Byte) : Except DecodeFault (List Byte) :=
  (expandTokens tokens.length tokens [] 0).map List.reverse

/-- Decode an image (R162). -/
def decodeImage (img : List Byte) (inHeap : Bool) : Except DecodeFault (List Byte) :=
  let n := img.length
  if n < 8 ∨ 1032 < n then .error .header
  else
    let h := ofBytes (img.take 4)
    let tlen := bits h 8 11
    let raw := bit h 4
    if bits h 0 4 ≠ 1 ∨ bits h 5 3 ≠ 0 ∨ bits h 19 13 ≠ 0 then .error .header
    else if n < 8 + tlen then .error .header
    else if raw && (inHeap || tlen != 1024) then .error .header
    else
      let body := (img.drop 4).take tlen
      match if raw then .ok body else expand body with
      | .error e => .error e
      | .ok out =>
        if ((img.drop (4 + tlen)).take (n - 8 - tlen)).any fun b => b != 0 then .error .padding
        else if crc32c out ≠ ofBytes (img.drop (n - 4)) then .error .crc
        else .ok out

/-! ### Forming images (R157, R158, R161, R163, R164) -/

/-- An image of `n` bytes with this body and these decompressed bytes (R157, R158). -/
def imageOf (raw : Bool) (body block : List Byte) (n : Nat) : List Byte :=
  toBytes (1 + flag raw * 16 + body.length * 256) 4 ++ body ++ List.replicate (n - 8 - body.length) 0 ++
    toBytes (crc32c block) 4

/-- A formed block: its granule count and the bytes of its granules. -/
structure FormedBlock where
  count : Nat
  bytes : List Byte
  deriving DecidableEq, Repr

/-- A block stored raw (R161). -/
def rawBlock (block : List Byte) : FormedBlock := ⟨16, block⟩

/-- Tokens that the checker accepts and that fit (R163, R164). -/
def goodTokens (block : List Byte) : Option (List Byte) :=
  let t := Config.compress block
  match expand t with
  | .ok b => if b = block ∧ t.length ≤ 952 then some t else none
  | .error _ => none

/-- Compress a block for the heap, or store it raw (R163). -/
def formBlock (block : List Byte) : FormedBlock :=
  match goodTokens block with
  | some t =>
    let n := ceilDiv (8 + t.length) 64
    ⟨n, imageOf false t block (n * 64)⟩
  | none => rawBlock block

/-- An image for a stream, as short as its body allows (R161, R165). -/
def streamImage (block : List Byte) : List Byte :=
  match goodTokens block with
  | some t => imageOf false t block (ceilDiv (8 + t.length) 8 * 8)
  | none => imageOf true block block 1032

/-- A block of compressed size `n` granules written into a place of `c` granules: its image is padded with zeros before
the check value (R176). -/
def padBlock (b : FormedBlock) (block : List Byte) (c : Nat) : List Byte :=
  if c = 16 then block
  else
    let tlen := bits (ofBytes (b.bytes.take 4)) 8 11
    imageOf false ((b.bytes.drop 4).take tlen) block (c * 64)

/-! ### Lines and bytes -/

/-- Cut bytes into lines. -/
def cutLines : Nat → List Byte → List Line
  | 0, _ => []
  | n + 1, bs => Line.ofBytes (bs.take 64) :: cutLines n (bs.drop 64)

/-- The bytes of lines in order. -/
def joinLines (ls : List Line) : List Byte := ls.flatMap Line.bytes

/-! ### The pipes (R181, R183) -/

/-- Some compress or decompress pipe is in service. -/
def State.canCompress (s : State) : Bool := s.rd NMB_PIPESTAT.CMP != 0
def State.canDecompress (s : State) : Bool := s.rd NMB_PIPESTAT.DCMP != 0

/-- Fault sources 44–47 (R182). -/
def srcBlockBad : Nat := 44
def srcNmbRetry : Nat := 45
def srcEncMismatch : Nat := 46
def srcPipeFail : Nat := 47

/-- NMB_ERRLOG takes the first event after VALID was cleared (R186). -/
def State.nmbLog (s : State) (dpn block kind count : Nat) (retryOk : Bool) : State :=
  if s.on NMB_ERRLOG.VALID then s
  else
    ((((((s.wr NMB_ERRLOG.TS s.stamp).wr NMB_ERRLOG.DPN dpn).wr NMB_ERRLOG.BLOCK block).wr NMB_ERRLOG.KIND kind).wr
      NMB_ERRLOG.COUNT count).put NMB_ERRLOG.RETRYOK retryOk).put NMB_ERRLOG.VALID true

/-- Form a block for storage. When the inline checker finds that the pipe's image differs, the block is stored raw with
the trace of R164; with no compress pipe in service it is stored raw (R181). -/
def State.compress (s : State) (dpn block : Nat) (data : List Byte) (mismatch : Bool) : FormedBlock × State :=
  if !s.canCompress then (rawBlock data, s)
  else if mismatch then
    (rawBlock data, ((s.inc NMB_ERRCNT.ENCMIS).nmbLog dpn block DecodeFault.pipe.code 16 false).raise srcEncMismatch)
  else
    let b := formBlock data
    let s := ((s.event Ev.compressed 0).occur Ev.codecBytesIn 0 1024 none).occur Ev.codecBytesOut 0 (b.count * 64) none
    (b, if b.count = 16 then s.event Ev.storedRaw 0 else s)

/-! ### The heap (R171–R176) -/

/-- The lowest segment number that is FREE, from `cand` on; the listed numbers rise. -/
def firstSegment : List Nat → Nat → Nat
  | [], cand => cand
  | k :: ks, cand => if k < cand then firstSegment ks cand else if k = cand then firstSegment ks (cand + 1) else cand

/-- The readouts of R184 follow the heap directory, and so does the urgency of compaction (R174, R664). -/
def State.heapStatus (s : State) : State :=
  let segs := s.nmb.segments.map Prod.snd
  let opens := segs.filter fun g => g.state == .moves || g.state == .writebacks
  let residue := ((segs.filter fun g => !(g.state == .compacting)).map fun g => g.fill - g.live).sum
  let s := ((s.wr NMB_HEAPSEG.SEGS segs.length).wr NMB_HEAPSEG.OPEN opens.length).wr NMB_HEAPLIVE.GRANULES
    (segs.map fun g => g.live).sum
  let s := s.wr NMB_HEAPRESIDUE.GRANULES residue
  let limit := s.rd NMB_HEAPCFG.URGENT * 2 ^ 30
  let u := if limit < residue * 64 then true else if residue * 64 * 2 < limit then false else s.nmb.urgent
  { s with nmb := { s.nmb with urgent := u } }

/-- Replace a segment's entry. -/
def State.setSegment (s : State) (k : Nat) (g : Segment) : State :=
  { s with nmb := { s.nmb with segments := s.nmb.segments.put k g } }

/-- The OPEN segment of a use on a channel (R173). -/
def State.openSegment (s : State) (c : Nat) (use : SegState) : Option (Nat × Segment) :=
  s.nmb.segments.find? fun e => e.2.channel == c && e.2.state == use && !e.2.rebuilding

/-- A wholly free region of a channel (R173). -/
def State.freeRegion (s : State) (c : Nat) : Option Nat :=
  match s.geometry c with
  | none => none
  | some g =>
    let r := firstRegion (s.usesOn c) 0
    if g.regionOk r && decide (512 ≤ s.framesFree c) then some r else none

/-- Open a new segment on a channel for a use; the old OPEN one becomes FULL (R173). -/
def State.newSegment (s : State) (c : Nat) (use : SegState) : Option (Nat × State) :=
  match s.freeRegion c with
  | none => none
  | some r =>
    let s := match s.openSegment c use with
      | some (k, g) => s.setSegment k { g with state := .full }
      | none => s
    let k := firstSegment (s.nmb.segments.map Prod.fst) 0
    let s := s.setSegment k { channel := c, region := r, fill := 0, live := 0, state := use }
    some (k, { s with dram := { s.dram with frames := s.dram.frames.put (c * 2 ^ 28 + r * 512) (.heap k) } })

/-- Place a run at a segment's fill pointer. -/
def State.placeRun (s : State) (k n : Nat) : Option (Nat × State) :=
  match s.nmb.segments.find k with
  | none => none
  | some g =>
    if g.fill + n ≤ 32768 then
      some (k * 32768 + g.fill, (s.setSegment k { g with fill := g.fill + n, live := g.live + n }).heapStatus)
    else none

/-- A run on one channel: at the OPEN segment's fill pointer, else in a new segment (R173). -/
def State.runOn (s : State) (c : Nat) (use : SegState) (n : Nat) : Option (Nat × State) :=
  match (s.openSegment c use).bind fun e => s.placeRun e.1 n with
  | some x => some x
  | none =>
    match s.newSegment c use with
    | none => none
    | some (k, s) => s.placeRun k n

/-- Channels outside FREEZE that are populated, the one with the most free space first (R173). -/
def State.channelsByRoom (s : State) : List Nat :=
  sortBy (fun a b => decide (s.framesFree b ≤ s.framesFree a)) ((List.range 16).filter fun c => s.populated c && !s.frozen c)

/-- The first channel of a list that gives a run. -/
def State.runFrom (s : State) (use : SegState) (n : Nat) : List Nat → Option (Nat × State)
  | [] => none
  | c :: cs =>
    match s.runOn c use n with
    | some x => some x
    | none => s.runFrom use n cs

/-- A run for a move destination (R173): `none` when there is no room, and the move does not start (R175). -/
def State.moveRun (s : State) (n : Nat) : Option (Nat × State) := s.runFrom .moves n s.channelsByRoom

/-- A run for a relocation or an import: the page's channel when its OPEN segment has room, else as for a move
(R173). -/
def State.writebackRun (s : State) (cur : Option Nat) (n : Nat) : Option (Nat × State) :=
  match cur.bind fun c => if s.frozen c then none else (s.openSegment c .writebacks).bind fun e => s.placeRun e.1 n with
  | some x => some x
  | none => s.runFrom .writebacks n s.channelsByRoom

/-- A segment that holds nothing and takes no more runs becomes FREE, and its region wholly free (R174). -/
def State.emptySegment (s : State) (k : Nat) (g : Segment) : State :=
  if g.live = 0 && !(g.state == .moves) && !(g.state == .writebacks) then
    { s with nmb := { s.nmb with segments := s.nmb.segments.erase k }
             dram := { s.dram with frames := s.dram.frames.erase (g.channel * 2 ^ 28 + g.region * 512) } }
  else s

/-- The granules of a run become residue (R174). -/
def State.freeRun (s : State) (heap n : Nat) : State :=
  match s.nmb.segments.find (heap / 32768) with
  | none => s
  | some g =>
    let g := { g with live := g.live - n }
    ((s.setSegment (heap / 32768) g).emptySegment (heap / 32768) g).heapStatus

/-- Return the unused tail of a run: to the fill pointer when it is the segment's last allocation, else as residue
(R173). -/
def State.trimRun (s : State) (heap n tail : Nat) : State :=
  match s.nmb.segments.find (heap / 32768) with
  | none => s
  | some g =>
    let last := heap % 32768 + n = g.fill
    (s.setSegment (heap / 32768)
      { g with live := g.live - tail, fill := if last then g.fill - tail else g.fill }).heapStatus

/-- Release the physical space of a location, without its charge. -/
def State.freeLocation (s : State) (l : Location) : State :=
  match l with
  | .nowhere => s
  | .frame mfn => s.giveFrame mfn
  | .run h c0 c1 c2 c3 => s.freeRun h (c0 + c1 + c2 + c3)

/-! ### Reading and writing granules -/

/-- Read `n` stored lines from `line` on; the findings are for the lines in order (R257). Gives none where one is
poisoned or has an uncorrectable error, or fails its seal check. -/
def State.readLines (s : State) (line : Nat) (finds : List MediaFind) (known : Bool) : Nat → Option (List Line) × State
  | 0 => (some [], s)
  | n + 1 =>
    let f := finds.headD {}
    let (got, s) := s.readMedia line f.ecc known
    let (rest, s) := s.readLines (line + 1) finds.tail known n
    match got, rest with
    | .data l, some ls => if f.macOk then (some (l :: ls), s) else (none, s.macFail)
    | .data _, none => (none, if f.macOk then s else s.macFail)
    | _, _ => (none, s)

/-- Write lines from `line` on. -/
def State.writeLines (s : State) (line : Nat) (ls : List Line) : State :=
  ls.zipIdx.foldl (fun (s : State) (l : Line × Nat) => s.storeLine (line + l.2) l.1 false) s

/-- Read a block's granules (R156): none with a media failure (kind MEDIA of R162). -/
def State.readBlock (s : State) (l : Location) (b : Nat) (finds : List MediaFind) (known : Bool) :
    Option (List Byte) × State :=
  let (r, s) := s.readLines (s.granuleLine (l.blockStart b)) finds known (l.blockCount b)
  (r.map joinLines, s)

/-- The block that the bytes of its granules spell: raw with COUNT 16, else decoded (R161, R162). -/
def decodeStored (count : Nat) (img : List Byte) : Except DecodeFault (List Byte) :=
  if count = 16 then .ok img else decodeImage img true

end Sys2Proof.Machine
end

