-- ==== Sys2Proof/Machine/Cirrus.lean ====
section
/-! DEFINITION. The near-store (04_cirrus_near_store.md): lookup, allocation and replacement, writes, errors in the store,
salvage, pins, HELD lines and retirement. The steps that move data between Cirrus and DRAM are in Writeback. -/

namespace Sys2Proof.Machine

/-! ### Geometry and lookup (R90) -/

/-- Set of a line (R90). -/
def cirSet (dpaLine : Nat) : Nat :=
  let low := dpaLine % 2 ^ 15
  let high := dpaLine / 2 ^ 15 % 2 ^ 24
  let h := Nat.xor (Nat.xor low (high % 2 ^ 15)) (high / 2 ^ 15 * 2 ^ 6)
  high % 3 * 32768 + h

/-- Bank of a line (R90). -/
def cirBank (dpaLine : Nat) : Nat := cirSet dpaLine % 16

/-- Tag of a line (R90). -/
def cirTag (dpaLine : Nat) : Nat := dpaLine / 2 ^ 15 % 2 ^ 24

/-- Contents of a way. -/
def State.way (s : State) (k : Nat) : Option Way := s.cir.ways.find k

/-- Way that holds a line. -/
def State.cirWay (s : State) (dpaLine : Nat) : Option Nat :=
  ((List.range 16).map fun w => cirSet dpaLine * 16 + w).find? fun k =>
    match s.way k with
    | some x => x.dpaLine == dpaLine
    | none => false

/-- The line as Cirrus holds it. -/
def State.cirLine (s : State) (dpaLine : Nat) : Option Way := (s.cirWay dpaLine).bind s.way

/-- Store into a way. -/
def State.setWay (s : State) (k : Nat) (x : Way) : State := { s with cir := { s.cir with ways := s.cir.ways.put k x } }

/-- The newest buffered writeback of a line (R97). -/
def State.buffered (s : State) (dpaLine : Nat) : Option Writeback :=
  s.cir.buffer.reverse.find? fun w => w.dpaLine == dpaLine

/-- Pseudo-LRU: make a way most recently used, or the next victim (R96). -/
def State.touchWay (s : State) (k : Nat) : State :=
  { s with cir := { s.cir with plru := s.cir.plru.set 0 (k / 16) (plruTouch (s.cir.plru.get 0 (k / 16)) (k % 16)) } }
def State.aimWay (s : State) (k : Nat) : State :=
  { s with cir := { s.cir with plru := s.cir.plru.set 0 (k / 16) (plruAim (s.cir.plru.get 0 (k / 16)) (k % 16)) } }

/-! ### Pins and HELD counts (R97, R108–R111) -/

/-- PINSRC of a drift pin (R91). -/
def driftPin : Nat := 4096

/-- Ways of a set that satisfy a test. -/
def State.countSet (s : State) (set : Nat) (p : Way → Bool) : Nat :=
  ((List.range 16).filter fun w => match s.way (set * 16 + w) with
    | some x => p x
    | none => false).length

/-- Retired ways of a set. -/
def State.retiredIn (s : State) (set : Nat) : Nat :=
  ((List.range 16).filter fun w => s.cir.retired.has (set * 16 + w)).length

/-- One more PINNED or HELD way fits in the set (R97). -/
def State.setRoom (s : State) (set : Nat) : Bool :=
  decide (s.countSet set (fun x => x.pinned || x.held) + 1 ≤ 16 - s.retiredIn set - 4)

/-- The counts of a pin that is taken (`add`) or released (R108). -/
def State.countPin (s : State) (src : Nat) (add : Bool) : State :=
  let s := if add then s.incAt CIR_PINTOTAL.PINNED 0 else s.subAt CIR_PINTOTAL.PINNED 0 1
  if src = driftPin then if add then s.incAt CIR_PINTOTAL.DRIFT 0 else s.subAt CIR_PINTOTAL.DRIFT 0 1
  else if add then s.incAt CIR_PINQUOTA.USED src else s.subAt CIR_PINQUOTA.USED src 1

/-- Release the pin of a way (R110). -/
def State.unpinWay (s : State) (k : Nat) (x : Way) : State :=
  if x.pinned then (s.countPin x.pinSrc false).setWay k { x with pinned := false, pinSrc := 0 } else s

/-- A source may pin one more line (R108, R109). -/
def State.pinAllowed (s : State) (src : Nat) : Bool :=
  decide (s.rd CIR_PINTOTAL.PINNED < s.rd CIR_PINCFG.LIMIT) &&
  (if src = driftPin then
    decide (s.rd CIR_PINTOTAL.DRIFT < min (s.rd CIR_PINCFG.DRIFTMAX) (s.rd CIR_PINCFG.LIMIT))
   else decide (s.rdAt CIR_PINQUOTA.USED src < s.rdAt CIR_PINQUOTA.QUOTA src))

/-- What a pin of one line comes to (R108). -/
inductive PinResult where
  | pinned | already | left
  deriving DecidableEq, Repr

/-- Pin a present line for a source (R97, R108). -/
def State.pinLine (s : State) (dpaLine src : Nat) : PinResult × State :=
  match s.cirWay dpaLine with
  | none => (.left, s)
  | some k =>
    match s.way k with
    | none => (.left, s)
    | some x =>
      if x.pinned then
        if x.pinSrc = src then (.already, s)
        else if src = driftPin then (.already, s)
        else if x.pinSrc = driftPin ∧ s.rdAt CIR_PINQUOTA.USED src < s.rdAt CIR_PINQUOTA.QUOTA src then
          (.pinned, (((s.subAt CIR_PINTOTAL.DRIFT 0 1).incAt CIR_PINQUOTA.USED src).setWay k { x with pinSrc := src }))
        else (.left, s)
      else if s.pinAllowed src && decide (s.countSet (k / 16) (fun y => y.pinned) < 8) &&
          (x.held || s.setRoom (k / 16)) then
        (.pinned, (s.countPin src true).setWay k { x with pinned := true, pinSrc := src })
      else (.left, s)

/-! ### Fault sources (R116) and errors in the store (R103–R106) -/

def srcCirCe : Nat := 32
def srcCirUe : Nat := 33
def srcCirTagUe : Nat := 34
def srcCirSalvage : Nat := 35
def srcCirSalvFull : Nat := 36
def srcCirHoldFull : Nat := 37
def srcCirWayRetire : Nat := 38

/-- A way reached its limit of errors: it retires once it is written back or dropped, at most one in a set and 1,024 in
the device (R106). -/
def State.wantRetire (s : State) (k : Nat) : State :=
  if s.cir.retirePending.has k then s
  else { s with cir := { s.cir with retirePending := s.cir.retirePending.add k } }

/-- Take a way out of service if it waits for that (R106). The way holds nothing. -/
def State.retireWay (s : State) (k : Nat) : State :=
  if s.cir.retirePending.has k then
    let s := { s with cir := { s.cir with retirePending := s.cir.retirePending.remove k } }
    if s.retiredIn (k / 16) = 0 ∧ s.cir.retired.length < 1024 then
      (({ s with cir := { s.cir with retired := s.cir.retired.add k } }).inc CIR_ERRCNT2.RETIRED).raise srcCirWayRetire
    else s
  else s

/-- Drop a way without writeback: its pin and HELD mark are released (R92). -/
def State.dropWay (s : State) (k : Nat) : State :=
  match s.way k with
  | none => s
  | some x =>
    let s := s.unpinWay k x
    let s := if x.held then s.subAt CIR_HOLDCFG.HELD 0 1 else s
    ({ s with cir := { s.cir with ways := s.cir.ways.erase k } }).retireWay k

/-- Drop the lines of a range from Cirrus, and discard their buffered writebacks (R66, R76). -/
def State.dropLines (s : State) (dpaLine n : Nat) : State :=
  let inside := fun (l : Nat) => decide (dpaLine ≤ l) && decide (l < dpaLine + n)
  let s := { s with cir := { s.cir with buffer := s.cir.buffer.filter fun w => !inside w.dpaLine } }
  ((s.cir.ways.filter fun e => inside e.2.dpaLine).map Prod.fst).foldl State.dropWay s

/-- Place of a line in DRAM as its page stands now: channel-wide line address for a frame, first granule of its block
for a run (R68, R225). -/
def State.linePlace (s : State) (dpaLine : Nat) : PoisonPlace :=
  match (s.entry (dpaLine / 64)).loc with
  | .frame mfn => .stored (mfn * 64 + dpaLine % 64)
  | .run h c0 c1 c2 c3 =>
    .block (s.granuleLine ((Location.run h c0 c1 c2 c3).blockStart (dpaLine % 64 / 16)))
  | .nowhere => .nowhere

/-- A local cause has spoilt a line: the partner may restore it (R453). -/
def State.wantRepair (s : State) (dpaLine : Nat) (overlay : Option (Line × ByteMask)) : State :=
  { s with cir := { s.cir with repair := s.cir.repair ++ [(dpaLine, overlay)] } }

/-- Write a salvage record, or count it lost when all 64 are held (R99–R101, R104). -/
def State.salvage (s : State) (dpaLine : Nat) (data : Line) (mask : ByteMask) (cause : Nat) : State :=
  match (List.range 64).find? fun k => (s.cir.salvage.find k).isNone with
  | none => (s.inc CIR_ERRCNT.SALVLOST).raise srcCirSalvFull
  | some k =>
    let e := s.entry (dpaLine / 64)
    let r : Salvage := {
      data := data &&& mask.expand, mask := mask, ts := s.stamp, dpaLine := dpaLine, claim := e.claim
      slice := s.rdAt MAP_CLAIMATTR.SLICE e.claim, cause := cause, sealed := e.sealed, keyid := e.keyid }
    let s := { s with cir := { s.cir with salvage := s.cir.salvage.put k r } }
    let s := s.wr CIR_SALVSTAT.VALID (setBit (s.rd CIR_SALVSTAT.VALID) k true)
    (s.inc CIR_ERRCNT.SALV).raise srcCirSalvage

/-- Free a salvage record (R102). -/
def State.freeSalvage (s : State) (k : Nat) : State :=
  ({ s with cir := { s.cir with salvage := s.cir.salvage.erase k } }).wr CIR_SALVSTAT.VALID
    (setBit (s.rd CIR_SALVSTAT.VALID) k false)

/-- What checking a way's tag and data leaves of it. -/
inductive WayCheck where
  /-- The way may be used as it stands now. -/
  | ok
  /-- The way holds nothing any more: the line counts as absent. -/
  | gone
  deriving DecidableEq, Repr

/-- Check a way when it is used: the tag (R105), then the valid data bytes (R93, R103, R104, R106). -/
def State.checkWay (s : State) (k : Nat) (f : CirrusFind) : WayCheck × State :=
  match s.way k with
  | none => (.gone, s)
  | some x =>
    let s := match f.tag with
      | .corrected _ => s.inc CIR_ERRCNT2.TAGCE
      | _ => s
    if f.tag = .uncorrectable ∧ x.state = .clean then (.gone, s.dropWay k)
    else if f.tag = .uncorrectable ∧ f.shadowBad then (.gone, (s.dropWay k).raise srcCirTagUe)
    else
      match f.data with
      | .clean => (.ok, s)
      | .corrected _ =>
        let n := s.cir.ceCount.get 0 k + 1
        let s := (({ s with cir := { s.cir with ceCount := s.cir.ceCount.set 0 k n } }).inc CIR_ERRCNT.CE).event Ev.bytesCorrected 0 |>.raise srcCirCe
        (.ok, if n = 16 then s.wantRetire k else s)
      | .uncorrectable =>
        let s := (s.inc CIR_ERRCNT.UE).wantRetire k
        if x.state = .clean then (.gone, s.dropWay k)
        else
          let s := s.setWay k { x with state := .dirty, bvm := ByteMask.full, poison := true }
          let s := (s.raise srcCirUe).salvage x.dpaLine x.data (x.bvm &&& ~~~ f.badBytes) 3
          (.ok, (s.poisonLine x.dpaLine .internal (s.linePlace x.dpaLine)).wantRepair x.dpaLine none)

/-! ### Allocation and replacement (R95–R97) -/

/-- The victim of a set: the first INVALID way in service, else the pseudo-LRU choice among the ways that are not
PINNED, HELD or RETIRED (R96). -/
def State.victim (s : State) (set : Nat) : Option Nat :=
  match (List.range 16).find? fun w => (s.way (set * 16 + w)).isNone && !s.cir.retired.has (set * 16 + w) with
  | some w => some (set * 16 + w)
  | none =>
    let ok := fun w => !s.cir.retired.has (set * 16 + w) && (match s.way (set * 16 + w) with
      | some x => !x.pinned && !x.held
      | none => true)
    (plruVictim (s.cir.plru.get 0 set) ok).map fun w => set * 16 + w

/-- Buffered writebacks of a bank (R97). -/
def State.bufferedIn (s : State) (bank : Nat) : Nat := (s.cir.buffer.filter fun w => cirBank w.dpaLine == bank).length

/-- Evict a way: a CLEAN line is dropped, a DIRTY or PARTIAL one goes to the writeback buffer (R92, R97). None while the
bank's share of the buffer is full. -/
def State.evictWay (s : State) (k : Nat) : Option State :=
  match s.way k with
  | none => some s
  | some x =>
    if x.state = .clean then some ((s.dropWay k).event Ev.cleanEvictions 0)
    else if 64 ≤ s.bufferedIn (cirBank x.dpaLine) then none
    else
      let w : Writeback := ⟨x.dpaLine, x.data, if x.state = .partly then x.bvm else ByteMask.full, x.poison, x.mirror, false⟩
      some (({ s with cir := { s.cir with buffer := s.cir.buffer ++ [w] } }).dropWay k)

/-- Where a new line enters the replacement order (R96). -/
inductive Insert where
  | recent | next
  deriving DecidableEq, Repr

/-- Put a new line into its set; none while the allocation must wait for a buffer entry (R97). -/
def State.allocLine (s : State) (x : Way) (ins : Insert) : Option State :=
  match s.victim (cirSet x.dpaLine) with
  | none => none
  | some k =>
    match s.evictWay k with
    | none => none
    | some s =>
      let s := s.setWay k x
      some (match ins with
        | .recent => s.touchWay k
        | .next => s.aimWay k)

/-- A way after a write (R92): a full write replaces the line and clears POISON unless its data carries it; a partial
one merges its bytes and leaves POISON as it is (R34). -/
def Way.write (x : Way) (data : Line) (mask : ByteMask) (poison mirror : Bool) : Way :=
  if mask = ByteMask.full then
    { x with data := data, state := .dirty, bvm := ByteMask.full, poison := poison, mirror := mirror }
  else
    let bvm := if x.state = .partly then x.bvm ||| mask else ByteMask.full
    { x with data := x.data.merge data mask, bvm := bvm, poison := x.poison || poison, mirror := mirror
             state := if bvm = ByteMask.full then .dirty else .partly }

/-- Apply a write to Cirrus (R92, R95): to the line present, else to a newly allocated one. A partial write to a listed
line leaves it poisoned (R34, R263; DEDUCED). A full-line write that carries no poison removes the line's entry
(R265). None while the allocation must wait (R97). -/
def State.cirWrite (s : State) (dpaLine : Nat) (data : Line) (mask : ByteMask) (poison mirror : Bool) (ins : Insert) :
    Option State :=
  let full := mask == ByteMask.full
  let stored := match s.cirWay dpaLine with
    | some k =>
      match s.way k with
      | some x => some ((s.setWay k (x.write data mask poison mirror)).touchWay k)
      | none => none
    | none =>
      s.allocLine { dpaLine := dpaLine, state := if full then .dirty else .partly, data := data &&& mask.expand
                    bvm := mask, poison := poison || (!full && s.listed dpaLine), mirror := mirror } ins
  stored.map fun s => if full && !poison then s.unpoison dpaLine else s

/-- Fill a line as CLEAN; with no room its set stays as it is and the data is not kept (R92, R97). -/
def State.cirFill (s : State) (dpaLine : Nat) (data : Line) (poison : Bool) (ins : Insert) : State :=
  match s.cirWay dpaLine with
  | none => (s.allocLine { dpaLine := dpaLine, state := .clean, data := data, poison := poison } ins).getD s
  | some k =>
    match s.way k with
    | none => s
    | some x =>
      if x.state = .partly then
        s.setWay k { x with data := data.merge x.data x.bvm, bvm := ByteMask.full, state := .dirty
                            poison := x.poison || poison }
      else s

/-- Fill the 16 lines of a decoded block: the requested line most recently used, the others next victims; listed lines
are filled with POISON set (R92, R96, R263). -/
def State.fillBlock (s : State) (dpn b want : Nat) (lines : List Line) : State :=
  (List.range 16).foldl (fun s i =>
    let l := dpn * 64 + b * 16 + i
    s.cirFill l (lines.getD i 0) (s.listed l) (if l = want then .recent else .next)) s

/-! ### HELD lines (R111, R112) -/

/-- The line should become HELD: it does, or it is dropped and poisoned at a limit (R97, R111, R112). -/
def State.holdWay (s : State) (k : Nat) : State :=
  match s.way k with
  | none => s
  | some x =>
    if x.held then s
    else if s.rd CIR_HOLDCFG.HELD < s.rd CIR_HOLDCFG.LIMIT && (x.pinned || s.setRoom (k / 16)) then
      (s.incAt CIR_HOLDCFG.HELD 0).setWay k { x with held := true }
    else
      let s := (s.dropWay k).poisonLine x.dpaLine .internal (s.linePlace x.dpaLine)
      ((s.inc CIR_ERRCNT2.HOLDDROP).raise srcCirHoldFull).wantRepair x.dpaLine none

/-- A writeback that cannot reach its frozen channel returns to Cirrus as a HELD line, or is dropped under R112. A line
that Cirrus has taken again meanwhile keeps its newer bytes (R97, R111). -/
def State.returnHeld (s : State) (w : Writeback) : State :=
  match s.cirWay w.dpaLine with
  | some k =>
    match s.way k with
    | none => s
    | some x =>
      let y : Way := if x.state = .partly then
          { x with data := w.data.merge x.data x.bvm, bvm := x.bvm ||| w.bvm
                   state := if (x.bvm ||| w.bvm) = ByteMask.full then .dirty else .partly, poison := x.poison || w.poison }
        else if x.state = .clean then
          { x with data := x.data.merge w.data w.bvm, state := .dirty, poison := x.poison || w.poison, mirror := w.mirror }
        else x
      (s.setWay k y).holdWay k
  | none =>
    let x : Way := { dpaLine := w.dpaLine, state := if w.bvm = ByteMask.full then .dirty else .partly, data := w.data
                     bvm := w.bvm, poison := w.poison, mirror := w.mirror }
    match s.allocLine x .recent with
    | some s =>
      match s.cirWay w.dpaLine with
      | some k => s.holdWay k
      | none => s
    | none =>
      (((s.poisonLine w.dpaLine .internal (s.linePlace w.dpaLine)).inc CIR_ERRCNT2.HOLDDROP).raise srcCirHoldFull).wantRepair
        w.dpaLine none

end Sys2Proof.Machine
end

