-- ==== Sys2Proof/Machine/Operands.lean ====
section
/-! DEFINITION. Register operands: how an offset and a path name a copy of a register, and what a write stores in its
fields under the access codes, locks and clamps (R6, R9, R534, R622–R625). -/

namespace Sys2Proof.Machine

/-! ### Selection (R534, R623) -/

/-- The selector copy that a path uses: one for BAR2, one for the engine and steward views (R534; the steward shares the
engine's copy: DESIGN CHOICE). -/
def pathCopy : Path → Nat
  | .bar2 => 0
  | _ => 1

/-- The word that a copy of a register holds: its fields at their places. -/
def State.word (s : State) (r : Register) (i : Nat) : Nat := (r.fields.map fun f => s.rdAt f i * 2 ^ f.lo).sum

/-- The copy that the word of a selector names: its value; for ENG_WINSEL, window WIN of core CORE, and none for a core
above 45 (R495). -/
def copyNamed (sel w : Nat) : Nat :=
  if sel != ENG_WINSEL.CORE.addr then w
  else if bits w 0 6 < 46 then bits w 0 6 * 8 + bits w 8 3 else w + 0x10000

/-- The copy that the selector at this offset selects through a path. -/
def State.selected (s : State) (p : Path) (sel : Nat) : Nat :=
  match registerMap.find? fun r => r.addr == sel with
  | some r => copyNamed sel (s.word r (pathCopy p))
  | none => 0

/-- Bytes that one register occupies. -/
def Register.bytes (r : Register) : Nat := r.bits / 8

/-- The copy of a register that an offset names through a path, if it names one. -/
def State.copyAt (s : State) (p : Path) (r : Register) (off : Nat) : Option Nat :=
  match r.reach with
  | .strided =>
    if r.step = 0 then if r.addr ≤ off ∧ off < r.addr + r.bytes then some 0 else none
    else
      let i := (off - r.addr) / r.step
      if r.addr ≤ off ∧ i < r.count ∧ (off - r.addr) % r.step < r.bytes then some i else none
  | .selected sel =>
    if r.addr ≤ off ∧ off < r.addr + r.bytes ∧ s.selected p sel < r.count then some (s.selected p sel) else none
  | .selector => if r.addr ≤ off ∧ off < r.addr + r.bytes then some (pathCopy p) else none

/-- The register and copy at an offset. -/
def State.registerAt (s : State) (p : Path) (off : Nat) : Option (Register × Nat) :=
  registerMap.findSome? fun r => (s.copyAt p r off).map fun i => (r, i)

/-! ### Locks and fields (R6, R9) -/

/-- The lock of a field is closed, for copy `i` of its register. -/
def State.locked (s : State) (l : Lock) (i : Nat) : Bool :=
  match l with
  | .unlocked => false
  | .devEnable => s.on SYS_CTL.DEV_ENABLE
  | .claimCommit => s.onAt MAP_CLAIMATTR.COMMIT i
  | .slotArmed => s.onAt SNP_ARM.ARM i
  | .channelCommit => s.on DMC_COMMIT.COMMIT
  | .sliceEnable => s.onAt SLC_CTL.ENABLE i
  | .queueEnable => s.onAt QUE_CTL.ENABLE i
  | .pairEnable => s.on PAR_CTL.ENABLE

/-- RW bits whose writes start an operation with a check: the operation, and not the write, changes them (R625, R631). -/
def enableBits : List Nat :=
  [SYS_CTL.DEV_ENABLE, MAP_CLAIMATTR.COMMIT, SNP_ARM.ARM, DMC_COMMIT.COMMIT, SLC_CTL.ENABLE, QUE_CTL.ENABLE,
    PAR_CTL.ENABLE, CON_CTL.LINKEN].map fun f => f.addr * 64 + f.lo

/-- The field is such a bit. -/
def Fld.isEnable (f : Fld) : Bool := enableBits.contains (f.addr * 64 + f.lo)

/-- Copies of an RW field that are RO 0: settings that a foreground master does not have (R399). -/
def Fld.fixedCopy (f : Fld) (i : Nat) : Bool :=
  ((f == QOS_BUCKET.RATE || f == QOS_BUCKET.BURST || f == QOS_BUCKET.YIELD) && (i == 9 || i == 10)) ||
    (f == QOS_BUCKET.YIELD && decide (i < 8))

/-- A claim's RWL field that is written while the claim is releasing: COMMIT reads 0, so the write is taken (R6, R66), but the
release goes on with what the claim had. The new value takes its place when release ends. -/
def State.waitsRelease (s : State) (f : Fld) (i : Nat) : Bool := f.lock == .claimCommit && s.onAt MAP_CLAIMSTAT.RELEASING i

/-- What copy `i` of a field holds for software. -/
def State.shown (s : State) (f : Fld) (i : Nat) : Nat :=
  if s.waitsRelease f i then s.map.staged.get (s.rdAt f i) (f.key i) else s.rdAt f i

/-- What a write of `v` to copy `i` of a field stores (R6, R9). -/
def State.writeField (s : State) (f : Fld) (i v : Nat) : State :=
  if f.fixedCopy i then s
  else match f.acc with
  | .ro | .ros | .rw1s | .wo => s
  | .rw => if f.isEnable then s else s.wrAt f i (f.clamp.apply v)
  | .rwl =>
    if s.locked f.lock i then s
    else if s.waitsRelease f i then
      { s with map := { s.map with staged := s.map.staged.put (f.key i) (f.clamp.apply (v % 2 ^ f.width)) } }
    else s.wrAt f i (f.clamp.apply v)
  | .rw1c => s.wrAt f i (Nat.xor (s.rdAt f i) (Nat.land (s.rdAt f i) v))

/-- Bits `[lo, lo + n)` of a register's word that a field shares: the field's new value, with the others of its bits as
they are (R624). Write-one codes see zeros in the bits that are not written. -/
def Fld.overlay (f : Fld) (old lo n v : Nat) : Nat :=
  let keep := match f.acc with
    | .rw1c | .rw1s => 0
    | _ => old
  ((List.range f.width).map fun k =>
    let b := f.lo + k
    if lo ≤ b ∧ b < lo + n then flag (v.testBit (b - lo)) * 2 ^ k else flag (keep.testBit k) * 2 ^ k).sum

/-- The field has a bit in `[lo, lo + n)`. -/
def Fld.meets (f : Fld) (lo n : Nat) : Bool := decide (f.lo < lo + n) && decide (lo < f.lo + f.width)

/-- Store a write of bits `[lo, lo + n)` of copy `i` of a register into its fields; locks are those at the moment of the
write (R625). -/
def State.storeBits (s : State) (r : Register) (i lo n v : Nat) : State :=
  let locked := s
  (r.fields.filter fun f => f.meets lo n).foldl (fun s f =>
    if f.acc = .rwl ∧ locked.locked f.lock i then s
    else s.writeField f i (f.overlay (s.shown f i) lo n v)) s

/-- Store a write of a whole register that is named by its list of fields. -/
def State.storeFields (s : State) (fs : List Fld) (i v : Nat) : State :=
  let locked := s
  fs.foldl (fun s f =>
    if f.acc = .rwl ∧ locked.locked f.lock i then s else s.writeField f i (bits v f.lo f.width)) s

/-- The value that a write gives to a field. -/
def Fld.of (f : Fld) (v : Nat) : Nat := bits v f.lo f.width

/-- The write gives 1 to a one-bit field. -/
def Fld.set (f : Fld) (v : Nat) : Bool := f.of v == 1

/-! ### Checks -/

/-- The first code of a table whose condition holds, in table order; 0x00 where none does. -/
def firstCode : List (Bool × Nat) → Nat
  | [] => 0
  | (b, n) :: cs => if b then n else firstCode cs

/-! ### Views (R315, R492, R588, R623) -/

/-- First offsets of the windows that BAR2 and the engine view see read-only. -/
def secWindow : Nat := 0xE0000
def engWindow : Nat := 0x150000

/-- Offset of a block's window (R622). -/
def windowOf (off : Nat) : Nat := off / 0x10000 * 0x10000

end Sys2Proof.Machine
end

