-- ==== Sys2Proof/Machine/Contrail.lean ====
section
/-! DEFINITION. Contrail's packet layer (14_contrail_link.md): packet sizes, credits, sequence numbers, sending, receiving,
and entry to the link states. -/

namespace Sys2Proof.Machine

/-! ### Packets (R411–R414, R416) -/

/-- Classes of R411. -/
inductive PacketClass where
  | mw | rs | ct | unsequenced
  deriving DecidableEq, Repr

/-- The class number of R411. -/
def PacketClass.code : PacketClass → Nat
  | .mw => 0 | .rs => 1 | .ct => 2 | .unsequenced => 3

/-- Class of a packet (R412). -/
def Packet.cls : Packet → PacketClass
  | .mw _ _ => .mw
  | .rsw _ | .stream _ _ _ => .rs
  | .ctrl _ | .keyx => .ct
  | .ack _ _ | .hb _ _ _ | .lane _ _ _ => .unsequenced

/-- Body bytes of a CTRL message, sub-head included (R412, R413, R460). -/
def CtrlMsg.bytes : CtrlMsg → Nat
  | .params _ => 56
  | .sliceMap _ _ _ => 144
  | .claimDef _ _ _ _ | .pstat _ _ _ | .refetch _ _ _ _ | .refDone _ _ => 24
  | .rxOpen _ _ _ _ _ _ => 32
  | .xkey _ _ _ => 48
  | .keyRenew _ _ => 64
  | _ => 16

/-- Bytes of the lines of an MW or RSW packet (R414). -/
def lineBytes (ls : List MirrorLine) : Nat :=
  8 + ceilDiv (5 * ls.length) 4 * 4 + 8 * (ls.filter fun l => l.mask != ByteMask.full).length + 64 * ls.length

/-- Length of a packet with head, tag and CRC (R411). The length of a KEYX message is Zenith's (8–512 bytes): the
largest is taken (DESIGN CHOICE). -/
def Packet.bytes (p : Packet) : Nat :=
  28 + match p with
    | .mw _ ls | .rsw ls => lineBytes ls
    | .stream _ _ bs => 8 + bs.length
    | .ctrl m => m.bytes
    | .keyx => 512
    | .ack _ _ => 0
    | .hb _ _ _ => 16
    | .lane _ _ _ => 4

/-- Credits that a packet needs (R416). -/
def Packet.credits (p : Packet) : Nat := ceilDiv p.bytes 64

/-! ### Link states (R406) -/

def conOff : Nat := 0
def conTraining : Nat := 1
def conKeying : Nat := 2
def conUp : Nat := 3
def conRetrain : Nat := 4
def conDown : Nat := 5

/-- The link is UP. -/
def State.linkUp (s : State) : Bool := s.rd CON_STAT.STATE == conUp

/-- Fault sources of R429. -/
def srcConLink : Nat := 96
def srcConLane : Nat := 97
def srcConHbLost : Nat := 98
def srcConAuth : Nat := 99

/-! ### Sending (R416, R417, R419) -/

/-- Credits free in a class. -/
def State.creditOf (s : State) (c : PacketClass) : Nat :=
  match c with
  | .mw => s.con.creditMW
  | .rs => s.con.creditRS
  | .ct => s.con.creditCT
  | .unsequenced => 0

/-- Take or return credits of a class. -/
def State.setCredit (s : State) (c : PacketClass) (n : Nat) : State :=
  match c with
  | .mw => { s with con := { s.con with creditMW := n } }
  | .rs => { s with con := { s.con with creditRS := n } }
  | .ct => { s with con := { s.con with creditCT := n } }
  | .unsequenced => s

/-- The SEQ that every head acknowledges. -/
def State.ackSeq (s : State) : Nat := (s.con.rxSeq + 4095) % 4096

/-- A packet leaves: its head carries the acknowledgement and the credits freed (R411, R416, R418). -/
def State.emit (s : State) (seq : Option Nat) (p : Packet) : State :=
  let tagged := s.con.keyed
  let s := { s with con := { s.con with
    freedMW := 0, freedRS := 0, freedCT := 0, accepted := 0
    txCount := if tagged then s.con.txCount + 1 else s.con.txCount } }
  (s.send (.contrail seq s.ackSeq p)).event Ev.conPackets p.cls.code

/-- Send an unsequenced packet. -/
def State.sendPlain (s : State) (p : Packet) : State :=
  if s.linkUp || s.rd CON_STAT.STATE == conKeying then s.emit none p else s

/-- Send an ACK, with or without a replay request (R418). -/
def State.sendAck (s : State) (nak : Bool) : State := s.sendPlain (.ack s.ackSeq nak)

/-- Send one NAK, and none again until a packet is accepted (R418). -/
def State.nakOnce (s : State) : State :=
  if s.con.nakSent then s
  else ({ s with con := { s.con with nakSent := true } }.sendAck true).event Ev.conNaks 0

/-- Bytes in the replay buffer. -/
def State.replayBytes (s : State) : Nat := (s.con.unacked.map fun e => e.2.bytes).sum

/-- A packet may take a SEQ now: its class has the credits, and the window and the buffer have room (R416, R417). -/
def State.canSend (s : State) (p : Packet) : Bool :=
  decide (p.credits ≤ s.creditOf p.cls) && decide (s.con.unacked.length < 2047) &&
    decide (s.replayBytes + p.bytes ≤ 2 ^ 20)

/-- UNACK follows the replay buffer (R432). -/
def State.conStatus (s : State) : State := s.wr CON_STAT.UNACK s.con.unacked.length

/-- Give a packet its SEQ and send it (R417). -/
def State.sendSeq (s : State) (p : Packet) : State :=
  let seq := s.con.txSeq
  let s := s.setCredit p.cls (s.creditOf p.cls - p.credits)
  (({ s with con := { s.con with txSeq := (seq + 1) % 4096, unacked := s.con.unacked ++ [(seq, p)] } }).emit
    (some seq) p).conStatus

/-- RS class traffic that the brownout guard holds: everything but STREAM (R560). -/
def Packet.heldByGuard : Packet → Bool
  | .rsw _ => true
  | _ => false

/-- The next packet to send: CT, then MW, then RS, each class in its order (R416). -/
def State.nextPacket (s : State) : Option Packet :=
  let guard := s.on PWR_STAT.GUARD
  let first := fun c => (s.con.queue.find? fun p => p.cls == c && !(guard && p.heldByGuard)).bind fun p =>
    if s.canSend p then some p else none
  match first .ct with
  | some p => some p
  | none =>
    match first .mw with
    | some p => some p
    | none => first .rs

/-- Send queued packets while the link is UP and they may go; `fuel` bounds the queue. -/
def State.pump (s : State) : Nat → State
  | 0 => s
  | fuel + 1 =>
    if s.linkUp then
      match s.nextPacket with
      | none => s
      | some p => ({ s with con := { s.con with queue := s.con.queue.erase p } }.sendSeq p).pump fuel
    else s

/-- Send what can be sent now. -/
def State.flow (s : State) : State := s.pump s.con.queue.length

/-- A packet that cannot go at once for want of credits, or of room in the window, is a stall (R416, R417). -/
def State.noteStall (s : State) (p : Packet) : State :=
  if !s.linkUp then s
  else if s.creditOf p.cls < p.credits then s.event Ev.creditStalls p.cls.code
  else if s.canSend p then s else s.event Ev.windowStalls 0

/-- Queue a sequenced packet. -/
def State.queuePacket (s : State) (p : Packet) : State :=
  { s.noteStall p with con := { s.con with queue := s.con.queue ++ [p] } }.flow

/-- Queue a CTRL message. -/
def State.ctrl (s : State) (m : CtrlMsg) : State := s.queuePacket (.ctrl m)

/-- Close the MW packet that is being filled (R414). -/
def State.closeMW (s : State) : State :=
  match s.con.openMW with
  | [] => s
  | ls => { s with con := { s.con with openMW := [] } }.queuePacket (.mw s.con.openNum ls)

/-- Add a line to the MW packet that is being filled; the packet closes at 16 lines (R414). -/
def State.fillMW (s : State) (num : Nat) (l : MirrorLine) : State :=
  let first := if s.con.openMW.isEmpty then num else s.con.openNum
  let s := { s with con := { s.con with openMW := s.con.openMW ++ [l], openNum := first } }
  if s.con.openMW.length = 16 then s.closeMW else s

/-- Resend every unacknowledged packet in SEQ order (R419). The escalation ladder of R420 is the caller's. -/
def State.resend (s : State) : State :=
  let s := ((s.inc CON_ERRCNT.REPLAYS).event Ev.conReplays 0)
  s.con.unacked.foldl (fun s e => s.emit (some e.1) e.2) s

/-! ### Entering states (R420, R422) -/

/-- Causes of R432. -/
def downRetrain : Nat := 1
def downAuth : Nat := 2
def downNoBundle : Nat := 3
def downSoftware : Nat := 4
def downLinken : Nat := 5

/-- Packets whose contents are sent again after the next link up (R422): stream bytes, resync lines, and pages made
UNBACKED. The pair manager rebuilds MW packets from its journal and repeats its other messages. -/
def Packet.survives : Packet → Bool
  | .stream _ _ _ | .rsw _ | .ctrl (.unback _ _) => true
  | _ => false

/-- Enter DOWN or OFF: replay state, credits and keys go; swaps are cleared; what must be sent again is kept (R422,
R423). -/
def State.conDropTo (s : State) (st cause : Nat) : State :=
  let was := s.rd CON_STAT.STATE
  let s := { s with con :=
    { queue := ((s.con.unacked.map Prod.snd) ++ s.con.queue).filter Packet.survives } }
  let s := (((s.wr CON_STAT.STATE st).wr CON_STAT.DOWNCAUSE cause).wr CON_STAT.BUNDLES 0).put CON_STAT.HBOK false
  let s := ((((s.wr CON_STAT.KEYPHASE 0).wr CON_STAT.REPLAYS 0).wr CON_STAT.RETRAINS 0).wr CON_STAT.UNACK 0)
  let s := ((s.wr CON_STAT.RXSPARE 0xFFF).wr CON_STAT.TXSPARE 0xFFF).wr CON_LASTDOWN_TS.TS s.stamp
  let s := if st = conDown then s.inc CON_ERRCNT2.DOWNS else s
  if was = conUp ∨ was = conRetrain ∨ was = conKeying then s.raise srcConLink else s

/-- Enter RETRAIN: keys, SEQ counters, credits and replay buffer are kept (R420). -/
def State.conRetrainNow (s : State) : State :=
  ((({ s with con := { s.con with trainStep := 0 } }.wr CON_STAT.STATE conRetrain).wr CON_STAT.REPLAYS 0).inc
    CON_ERRCNT.RETRAINS).raise srcConLink

/-- A replay (R419, R420, R421): the fourth without progress sends the link into RETRAIN, or, after a retrain that
already came back without progress, counts as a failed retrain. -/
def State.replay (s : State) : State :=
  let n := s.rd CON_STAT.REPLAYS
  if n < 4 then
    (s.wr CON_STAT.REPLAYS (n + 1)).resend
  else
    let fails := s.rd CON_STAT.RETRAINS
    if s.con.replaying = some 0 then
      if 1 ≤ fails then s.conDropTo conDown downRetrain
      else (s.wr CON_STAT.RETRAINS (fails + 1)).conRetrainNow
    else s.conRetrainNow

/-! ### Receiving (R415, R416, R418, R419) -/

/-- Acknowledgement of every packet up to a SEQ; progress clears the counts of R420. -/
def State.ackUpTo (s : State) (seq : Nat) : State :=
  match s.con.unacked with
  | [] => s
  | (first, _) :: _ =>
    let n := (seq + 4096 - first) % 4096 + 1
    if n ≤ s.con.unacked.length then
      (({ s with con := { s.con with unacked := s.con.unacked.drop n, replaying := none } }.wr CON_STAT.REPLAYS 0).wr
        CON_STAT.RETRAINS 0).conStatus
    else s

/-- What a received head does beside its packet: an old receive key goes once a packet under the new phase has verified
(R427); credits, acknowledgement, and the replay that a NAK asks for. -/
def State.takeHead (s : State) (h : RxHead) : State :=
  let s := { s with con := { s.con with
    tagRun := 0, oldRxKey := s.con.oldRxKey && h.phase != s.con.rxPhase
    creditMW := s.con.creditMW + h.crMW, creditRS := s.con.creditRS + h.crRS, creditCT := s.con.creditCT + h.crCT } }
  let s := match h.ack with
    | some a => s.ackUpTo a
    | none => s
  let s := s.flow
  if h.nak && !s.con.unacked.isEmpty then s.replay else s

/-- Credits of a class freed by applying a packet; an ACK goes out at 128 (R416). -/
def State.freeCredits (s : State) (p : PacketClass) (n : Nat) : State :=
  let c := s.con
  let s := match p with
    | .mw => { s with con := { c with freedMW := c.freedMW + n } }
    | .rs => { s with con := { c with freedRS := c.freedRS + n } }
    | .ct => { s with con := { c with freedCT := c.freedCT + n } }
    | .unsequenced => s
  if 128 ≤ s.con.freedMW ∨ 128 ≤ s.con.freedRS ∨ 128 ≤ s.con.freedCT then s.sendAck false else s

/-- A sequenced packet with good CRC and tag arrives: accepted, a duplicate, or past a gap (R418). The Boolean says
whether it is applied. -/
def State.acceptSeq (s : State) (h : RxHead) (p : PacketClass) (credits : Nat) : Bool × State :=
  if !s.linkUp && s.rd CON_STAT.STATE != conKeying then (false, s)
  else
    let s := s.takeHead h
    let d := (h.seq + 4096 - s.con.rxSeq) % 4096
    if d = 0 then
      let n := s.con.accepted + 1
      let s := { s with con := { s.con with rxSeq := (s.con.rxSeq + 1) % 4096, nakSent := false, accepted := n } }
      let s := if n = 32 then s.sendAck false else s
      (true, s.freeCredits p credits)
    else if 2048 ≤ d then (false, s.sendAck false)
    else (false, s.nakOnce)

end Sys2Proof.Machine
end

