-- ==== Sys2Proof/Machine/Pair.lean ====
section
/-! DEFINITION. The pair manager's shared operations (15_redundant_pair.md): homes, mirroring and the journal, outbound
stripes, repair from the partner's copy, and entry to the pair states; and the current contents of a line. -/

namespace Sys2Proof.Machine

/-! ### States (R438) -/

def pairAlone : Nat := 0
def pairJoining : Nat := 1
def pairMirrored : Nat := 2
def pairExposed : Nat := 3
def pairResync : Nat := 4
def pairTakenOver : Nat := 5
def pairFenced : Nat := 6

/-- State of the member. -/
def State.pairState (s : State) : Nat := s.rd PAR_STAT.STATE

/-- Fault sources of R461. -/
def srcParExposed : Nat := 100
def srcParFence : Nat := 101
def srcParAckLate : Nat := 102
def srcParPeerFix : Nat := 103

/-- The half of a pair DPA (R435). -/
def State.halfOf (s : State) (dpa : Nat) : Nat := dpa / 2 ^ s.rd PAR_CFG.GRANLOG % 2

/-- The member is home for the DPA (R437). -/
def State.homeFor (s : State) (dpa : Nat) : Bool := bit (s.rd PAR_STAT.HOME) (s.halfOf dpa)

/-- Stripe of a line (R451). -/
def stripeOf (dpaLine : Nat) : Nat := dpaLine / 1024

/-! ### Current contents of a line -/

/-- A line's contents in DRAM as its page's form holds them, without any error: zeros for UNBACKED and LOST pages and for
a block that does not decode. -/
def State.dramLine (s : State) (dpaLine : Nat) : Line :=
  match (s.entry (dpaLine / 64)).loc with
  | .nowhere => 0
  | .frame mfn => s.mediaLine (mfn * 64 + dpaLine % 64)
  | .run h c0 c1 c2 c3 =>
    let l : Location := .run h c0 c1 c2 c3
    let b := dpaLine % 64 / 16
    let g := s.granuleLine (l.blockStart b)
    let img := joinLines ((List.range (l.blockCount b)).map fun i => s.mediaLine (g + i))
    match decodeStored (l.blockCount b) img with
    | .ok bytes => Line.ofBytes ((bytes.drop (dpaLine % 16 * 64)).take 64)
    | .error _ => 0

/-- The line's place reads as poison: its page is LOST, it is listed, its stored line holds the poison pattern, or its
block is poisoned whole (R69, R258, R263, R266). -/
def State.dramPoisoned (s : State) (dpaLine : Nat) : Bool :=
  (s.entry (dpaLine / 64)).state == .lost || s.listed dpaLine ||
  match (s.entry (dpaLine / 64)).loc with
  | .nowhere => false
  | .frame mfn => s.mediaPoisoned (mfn * 64 + dpaLine % 64)
  | .run h c0 c1 c2 c3 =>
    s.mediaPoisoned (s.granuleLine ((Location.run h c0 c1 c2 c3).blockStart (dpaLine % 64 / 16)))

/-- What a read of the line returns now, and its poison: Cirrus, then the writeback buffer, then DRAM. -/
def State.peek (s : State) (dpaLine : Nat) : Line × Bool :=
  let under := match s.buffered dpaLine with
    | some w => if w.bvm = ByteMask.full then (w.data, w.poison)
      else ((s.dramLine dpaLine).merge w.data w.bvm, w.poison || s.dramPoisoned dpaLine)
    | none => (s.dramLine dpaLine, s.dramPoisoned dpaLine)
  match s.cirLine dpaLine with
  | some x => if x.state = .partly then (under.1.merge x.data x.bvm, x.poison || under.2) else (x.data, x.poison)
  | none => under

/-- The line as replay and resync send it (R448): what Cirrus holds, its BVM bytes only if it is PARTIAL, else the line
from DRAM. -/
def State.currentLine (s : State) (dpaLine : Nat) : MirrorLine :=
  match s.cirLine dpaLine with
  | some x => ⟨dpaLine, x.data, if x.state = .partly then x.bvm else ByteMask.full, x.poison⟩
  | none => ⟨dpaLine, (s.peek dpaLine).1, ByteMask.full, (s.peek dpaLine).2⟩

/-! ### Outbound stripes (R451) -/

/-- OUTBITS and COPYLEFT follow the bitmap (R451, R466). -/
def State.outStatus (s : State) : State :=
  let n := s.pair.outbits.length
  let s := s.wr PAR_RSSTAT.OUTBITS n
  s.wr PAR_RSSTAT.COPYLEFT (if s.pairState = pairJoining ∨ s.pairState = pairResync then n else 0)

/-- Set the outbound bit of a line's stripe. -/
def State.markStripe (s : State) (dpaLine : Nat) : State :=
  ({ s with pair := { s.pair with
      outbits := s.pair.outbits.add (stripeOf dpaLine), sent := s.pair.sent.remove (stripeOf dpaLine) } }).outStatus

/-! ### Mirroring and the journal (R444–R447) -/

/-- Entries of the journal (R447). -/
def journalCapacity : Nat := 131072

/-- The member sends its changes to the partner (R438, R442, R444). -/
def State.mirroring (s : State) : Bool :=
  s.pairState == pairMirrored || s.pairState == pairResync || (s.pairState == pairJoining && !s.on PAR_STAT.ROLE)

/-- PAR_JSTAT follows the journal (R466). -/
def State.journalStatus (s : State) : State :=
  let s := s.wr PAR_JSTAT.ENTRIES s.pair.journal.length
  match s.pair.journal with
  | [] => s.wr PAR_JSTAT.OLDEST 0
  | e :: _ => s.wr PAR_JSTAT.OLDEST (min ((s.time - e.ts) / 4) 0xFFFF)

/-- Packets that have no SEQ yet take their contents when they leave (R415): a line that changes meanwhile changes in the
resync packets that wait. -/
def freshen (l : MirrorLine) : Packet → Packet
  | .rsw ls => .rsw (ls.map fun x =>
      if x.line = l.line then
        { x with data := x.data.merge l.data l.mask, mask := x.mask ||| l.mask
                 poison := if l.mask = ByteMask.full then l.poison else x.poison || l.poison }
      else x)
  | p => p

/-- Mirror a change to a line, or mark its stripe while the partner is away (R444, R447, R450). `req` waits for the
acknowledgement. -/
def State.mirror (s : State) (l : MirrorLine) (req : Option Nat) : State :=
  if s.mirroring then
    let num := s.pair.nextNum
    let e : JournalEntry := ⟨num, l.line, l.mask != ByteMask.full, s.time, req⟩
    let s := { s with pair := { s.pair with journal := s.pair.journal ++ [e], nextNum := (num + 1) % 2 ^ 32 }
                      con := { s.con with queue := s.con.queue.map (freshen l) } }
    ((s.journalStatus).event Ev.linesMirrored 0).fillMW num l
  else if s.pairState = pairExposed then s.markStripe l.line
  else s

/-- Tell the partner that pages became UNBACKED (R444). -/
def State.mirrorUnback (s : State) (dpn count : Nat) : State :=
  let gone := fun (l : Nat) => decide (dpn ≤ l / 64) && decide (l / 64 < dpn + count)
  let drop := fun (p : Packet) => match p with
    | .rsw ls => Packet.rsw (ls.filter fun x => !gone x.line)
    | p => p
  if s.mirroring then { s with con := { s.con with queue := s.con.queue.map drop } }.ctrl (.unback dpn count)
  else if s.pairState = pairExposed then s.markStripe (dpn * 64)
  else s

/-- A write completes only when its MIRACK arrives (R445). -/
def State.syncWrites (s : State) : Bool := s.mirroring && !s.on PAR_CFG.MODE

/-- An async write is held: the oldest entry is older than the window, or the journal is full (R446). -/
def State.asyncHold (s : State) : Bool :=
  s.mirroring && s.on PAR_CFG.MODE &&
  (decide (journalCapacity ≤ s.pair.journal.length) ||
    match s.pair.journal with
    | [] => false
    | e :: _ => decide (s.rd PAR_CFG.ASYNCWIN * 400 < s.time - e.ts))

/-- A journal number is covered by an acknowledgement up to `upTo`. -/
def covered (upTo num : Nat) : Bool := decide ((upTo + 2 ^ 32 - num) % 2 ^ 32 < 2 ^ 31)

/-- Remove the entries that an acknowledgement covers; gives the requests that waited for them (R447). -/
def State.ackJournal (s : State) (upTo : Nat) : List Nat × State :=
  let gone := s.pair.journal.takeWhile fun e => covered upTo e.num
  let s := gone.foldl (fun s e => s.occur Ev.mirLatency 0 ((s.time - e.ts) / 4) none) s
  (gone.filterMap fun e => e.req,
    ({ s with pair := { s.pair with journal := s.pair.journal.drop gone.length } }).journalStatus)

/-! ### Repair from the partner's copy (R453) -/

/-- Send the fetch of a line, or let it wait for the acknowledgement of its journal entry. -/
def State.sendFetch (s : State) (f : Fetch) : State :=
  if s.pair.journal.any fun e => e.line == f.line then
    { s with pair := { s.pair with fetchQueue := s.pair.fetchQueue ++ [f] } }
  else ({ s with pair := { s.pair with fetches := s.pair.fetches ++ [f] } }).ctrl (.fetch f.line)

/-- A line cannot be served for a local cause: ask the partner, unless the member is not MIRRORED or RESYNC or its own
bit for the stripe is set. The Boolean says whether a fetch runs. -/
def State.peerFetch (s : State) (f : Fetch) : Bool × State :=
  if (s.pairState = pairMirrored ∨ s.pairState = pairResync) ∧ !s.pair.outbits.has (stripeOf f.line) then
    if (s.pair.fetches ++ s.pair.fetchQueue).any fun g => g.line == f.line && g.req == f.req then (true, s)
    else (true, s.sendFetch f)
  else (false, s)

/-- Fetches that waited for the journal and may go now. -/
def State.releaseFetches (s : State) : State :=
  let q := s.pair.fetchQueue
  q.foldl State.sendFetch { s with pair := { s.pair with fetchQueue := [] } }

/-! ### Entering states (R449–R457) -/

/-- Enter a pair state; PTIMEOUT runs while UNRESP is 1. -/
def State.pairEnter (s : State) (st : Nat) : State := (s.wr PAR_STAT.STATE st).outStatus

/-- UNRESP shows whether the partner is unresponsive (R449); a member that is ALONE has no partner. -/
def State.watchPeer (s : State) : State :=
  s.put PAR_STAT.UNRESP (s.pairState != pairAlone &&
    (!s.linkUp || !s.on CON_STAT.HBOK || (s.pair.stalled && !s.pair.journal.isEmpty)))

/-- MIRACK goes once every line received in MW packets is in Cirrus: none is held (R412, R447). -/
def State.sendMirack (s : State) : State :=
  let isLine := fun (h : HeldChange) => match h with
    | .mirror _ false => true
    | _ => false
  let held := s.snp.released.any isLine || s.snp.slots.any fun e => e.2.held.any fun h => h.2.any isLine
  if s.pair.mirackDue && !held && s.linkUp then
    { s with pair := { s.pair with mirackDue := false } }.ctrl (.mirack s.pair.lastApplied)
  else s

/-- Lines of a packet that Contrail still holds and that changed here: resync lines homed here, and pages made UNBACKED. -/
def State.heldLines (s : State) : Packet → List Nat
  | .rsw ls => (ls.map fun l => l.line).filter fun l => s.homeFor (l * 64)
  | .ctrl (.unback dpn count) => (List.range count).map fun i => (dpn + i) * 64
  | _ => []

/-- Enter EXPOSED (R450 step 4): the stripes of the journal, and of what Contrail still holds, get their bits, and the
journal is emptied. Gives the writes that waited. -/
def State.expose (s : State) : List Nat × State :=
  let waits := s.pair.journal.filterMap fun e => e.req
  let s := (s.pairEnter pairExposed)
  let s := s.pair.journal.foldl (fun s e => s.markStripe e.line) s
  let held := ((s.con.unacked.map Prod.snd) ++ s.con.queue).flatMap s.heldLines
  let s := held.foldl State.markStripe s
  let s := ({ s with pair := { s.pair with journal := [], fetches := [], fetchQueue := [] } }).journalStatus
  let drop := fun (p : Packet) => match p with
    | .mw _ _ | .rsw _ | .ctrl (.unback _ _) => false
    | _ => true
  (waits, { s with con := { s.con with openMW := [], queue := s.con.queue.filter drop } }.raise srcParExposed)

/-- Enter FENCED (R456). -/
def State.fenceMember (s : State) : State :=
  (((s.pairEnter pairFenced).wr PAR_STAT.HOME 0).raise srcParFence)

end Sys2Proof.Machine
end

