-- ==== Sys2Proof/Machine/Halo.lean ====
section
/-! DEFINITION. The halo directory (11_coherence_halo_directory.md): entries, the home's decisions, back-invalidates, ways and
victims, fences and sweeps. Requests that the home has finished with are left in `hal.ready`. -/

namespace Sys2Proof.Machine

/-! ### The directory (R324, R325) -/

/-- Set of a line (R324). -/
def dirSet (l : Nat) : Nat := Nat.xor (Nat.xor (l % 2 ^ 18) (l / 2 ^ 18 % 2 ^ 18)) (l / 2 ^ 36 % 8 * 2 ^ 15)

/-- Tag of a line (R324). -/
def dirTag (l : Nat) : Nat := l / 2 ^ 18 % 2 ^ 21

/-- Way that tracks a line. -/
def State.dirWay (s : State) (l : Nat) : Option Nat :=
  ((List.range 16).map fun w => dirSet l * 16 + w).find? fun k =>
    match s.hal.dir.find k with
    | some e => e.line == l
    | none => false

/-- Entry of a line. -/
def State.dirEntry (s : State) (l : Nat) : Option DirEntry := (s.dirWay l).bind s.hal.dir.find

/-- Requests in the wait queue, and the readouts of R345. -/
def State.haloStatus (s : State) : State :=
  let n := s.hal.waitQ.length
  let s := ((s.wr HAL_OCC.ENTRIES s.hal.dir.length).wr HAL_OCC.WAITQ n).wr HAL_OCC.OPEN s.hal.trackers.length
  s.wr HAL_PEAK.WAITMAX (max (s.rd HAL_PEAK.WAITMAX) n)

/-- Replace the entry in a way; an entry without holders becomes INVALID (R325). -/
def State.putDir (s : State) (k : Nat) (e : DirEntry) : State :=
  { s with hal := { s.hal with dir := if e.holders.isEmpty then s.hal.dir.erase k else s.hal.dir.put k e } }

/-- Replace the entry of a line, if it has one. -/
def State.setDir (s : State) (l : Nat) (g : DirEntry → DirEntry) : State :=
  match s.dirWay l with
  | none => s
  | some k =>
    match s.hal.dir.find k with
    | none => s
    | some e => s.putDir k (g e)

/-- Remove a link from the holders of a line. -/
def State.dropHolder (s : State) (l link : Nat) : State :=
  s.setDir l fun e => { e with holders := e.holders.remove link }

/-- Mark a way as most recently used. -/
def State.touchDir (s : State) (k : Nat) : State :=
  { s with hal := { s.hal with plru := s.hal.plru.set 0 (k / 16) (plruTouch (s.hal.plru.get 0 (k / 16)) (k % 16)) } }

/-- Ways of a set that are in service and hold nothing. -/
def State.freeDirWays (s : State) (set : Nat) : List Nat :=
  ((List.range 16).map fun w => set * 16 + w).filter fun k =>
    (s.hal.dir.find k).isNone && !s.hal.retired.has k

/-! ### Sharers (R321, R322) -/

/-- LDs of a link that a claim grants something. -/
def State.grantedOn (s : State) (c link : Nat) : List (Nat × Nat) :=
  (s.lds.filter fun e => e.2.link == link && s.grant c e.1 != grantNone).map fun e => (link, e.2.number)

/-- LDs of a link that the grants before a change gave something (R321). -/
def State.oldGrantedOn (s : State) (c link : Nat) : List (Nat × Nat) :=
  match s.hal.oldGrants.find c with
  | none => []
  | some (g0, g1) =>
    (s.lds.filter fun e => e.2.link == link &&
      (if e.1 < 32 then bits g0 (2 * e.1) 2 else bits g1 (2 * (e.1 - 32)) 2) != 0).map fun e => (link, e.2.number)

/-- LDs of a sharer to which a back-invalidate is sent (R321). -/
def State.sharerLds (s : State) (c link : Nat) : List (Nat × Nat) :=
  (s.grantedOn c link ++ s.oldGrantedOn c link).eraseDups

/-- Strongest grant of a link to a claim (R322). -/
def State.linkGrant (s : State) (c link : Nat) : Nat :=
  ((s.lds.filter fun e => e.2.link == link).map fun e => s.grant c e.1).foldl max 0

/-- The link is fenced (R335). -/
def State.fenced (s : State) (link : Nat) : Bool := bit (s.rd HAL_HOSTSTAT.FENCED) link

/-- Fault sources of R342. -/
def srcBiTimeout : Nat := 88
def srcDirUe : Nat := 89
def srcWqFull : Nat := 90
def srcHalProtocol : Nat := 91

/-- The modified copy of a line in a host is lost: the line is poisoned as a host write carrying poison poisons it, with
source Internal, and the change is mirrored (R334 step 2, R444). -/
def State.poisonLost (s : State) (l : Nat) : State :=
  let s := match s.cirWay l with
    | some k =>
      match s.way k with
      | some x => s.setWay k { x with poison := true, state := if x.state = LineState.clean then .dirty else x.state }
      | none => s
    | none => s
  (s.poisonLine l .internal (s.linePlace l)).mirror ⟨l, 0, ByteMask.full, true⟩ none

/-- The fence sweep's action on one line (R335): an EXCLUSIVE holding is poisoned, a shared one removed. -/
def State.fenceLine (s : State) (l link : Nat) : State :=
  match s.dirEntry l with
  | none => s
  | some e =>
    if e.holders.has link then
      let s := if e.exclusive then s.poisonLost l else s
      s.dropHolder l link
    else s

/-- Apply running fence sweeps to a line before a request uses its entry (R335). -/
def State.sweepLine (s : State) (l : Nat) : State :=
  ((List.range 8).filter fun n => bit (s.rd HAL_HOSTSTAT.SWEEP) n).foldl (fun s n => s.fenceLine l n) s

/-- Fence a link and start its sweep (R335). -/
def State.fenceLink (s : State) (link : Nat) : State :=
  let f := setBit (s.rd HAL_HOSTSTAT.FENCED) link true
  (s.wr HAL_HOSTSTAT.FENCED f).wr HAL_HOSTSTAT.SWEEP (setBit (s.rd HAL_HOSTSTAT.SWEEP) link true)

/-! ### Decisions of the home (R326) -/

/-- What the home does with a request whose line has no open transaction. -/
inductive HomeAct where
  /-- No back-invalidate: the entry afterwards, and the grant. -/
  | go (entry : Option DirEntry) (granted : Nat)
  /-- A back-invalidate to these links first; BISnpInv or BISnpData. -/
  | snoop (links : List Nat) (inv : Bool)
  deriving DecidableEq, Repr

/-- The entry that leaves link `n` as the only one, SHARED or EXCLUSIVE. -/
def entryOf (l : Nat) (excl : Bool) (hs : NSet) : Option DirEntry :=
  if hs.isEmpty then none else some { line := l, exclusive := excl, holders := hs }

/-- The table of R326 for a request from link `n`, given the line's entry. A READ-only sharer's RD_E is served as RD_S
(R322). -/
def homeAct (l n : Nat) (op : MemOp) (readOnly : Bool) (e : Option DirEntry) : HomeAct :=
  let holders := match e with
    | some x => x.holders
    | none => []
  let excl := match e with
    | some x => x.exclusive
    | none => false
  let others := holders.filter fun m => m != n
  let op := if op = .rdE ∧ readOnly then .rdS else op
  match op with
  | .rdNC => if excl && !others.isEmpty then .snoop others false else .go e 0
  | .rdS =>
    if excl && !others.isEmpty then .snoop others false else .go (entryOf l false (holders.add n)) 1
  | .rdE => if others.isEmpty then .go (entryOf l true [n]) 2 else .snoop others true
  | .wr shared =>
    if others.isEmpty then .go (entryOf l false (if shared then [n] else [])) 0 else .snoop others true
  | .evict => if excl && !others.isEmpty then .go e 0 else .go (entryOf l false others) 0

/-- Ticks of T_HOLD that the entry's grant still has (R331): GRANT_T counts 10 ns modulo 4,096. -/
def State.holdLeft (s : State) (e : DirEntry) : Bool :=
  decide ((s.time / 4 % 4096 + 4096 - e.grantT) % 4096 < s.rd HAL_TIMING.THOLD)

/-! ### Opening and ending back-invalidates (R327, R330, R334) -/

/-- A transaction is open on the line. -/
def State.lineBusy (s : State) (l : Nat) : Bool := (s.hal.trackers ++ s.hal.untracked).any fun t => t.line == l

/-- A tracker is free and nothing waits for one (R330). -/
def State.trackerFree (s : State) : Bool := decide (s.hal.trackers.length < 1024) && s.hal.untracked.isEmpty

/-- Send the BISnps of a transaction and start its timer. -/
def State.openTracked (s : State) (t : BackInv) : State :=
  let s := { s with hal := { s.hal with trackers := s.hal.trackers ++ [{ t with start := s.time }] } }
  let s := s.occur (if t.inv then Ev.bisnpInv else Ev.bisnpData) 0 t.waits.length none
  (t.waits.foldl (fun s w => s.send (.biSnp w.1 w.2 t.line t.inv)) s).haloStatus

/-- Open a transaction, or let it wait for a tracker. -/
def State.openBi (s : State) (t : BackInv) : State :=
  if s.trackerFree then s.openTracked t
  else { s with hal := { s.hal with untracked := s.hal.untracked ++ [t] } }

/-- The claim of a line for back-invalidates: committed or releasing. -/
def State.anyClaimOf (s : State) (l : Nat) : Nat :=
  ((s.committed ++ s.releasing).find? fun c => s.inClaim c (l * 64)).getD 0

/-- Address a back-invalidate to links: links with no LD to address leave the holders at once, an EXCLUSIVE line they held
poisoned unless the claim is being released (R321, R338); the others' LDs are waited for. -/
def State.snoopLinks (s : State) (l : Nat) (links : List Nat) (inv : Bool) (why : BiWhy) (reqLink : Nat) :
    Option BackInv × State :=
  let c := s.anyClaimOf l
  let gone := links.filter fun m => (s.sharerLds c m).isEmpty || s.fenced m
  let s' := gone.foldl (fun s m =>
    match s.dirEntry l with
    | some e =>
      let s := if e.exclusive && !(why == .release) then s.poisonLost l else s
      s.dropHolder l m
    | none => s) s
  let waits := (links.filter fun m => !gone.contains m).flatMap fun m => s.sharerLds c m
  if waits.isEmpty then (none, s') else (some ⟨l, inv, why, reqLink, s.time, waits, []⟩, s')

/-- Outcome of an attempt to serve a request at the home. -/
inductive Tried where
  | ready (granted : Nat)
  | opened
  | held
  | parked
  deriving DecidableEq, Repr

/-- Ways of a set without an open transaction. -/
def State.quietWays (s : State) (set : Nat) : List Nat :=
  ((List.range 16).map fun w => set * 16 + w).filter fun k =>
    match s.hal.dir.find k with
    | some e => !s.lineBusy e.line
    | none => false

/-- Requests that wait at the home for a line. -/
def State.waitsFor (s : State) (l : Nat) : List Nat :=
  (s.hal.waitQ.filter fun w => s.reqs.any fun r => r.id == w.1 && r.dpaLine == l).map Prod.fst

/-- Victim of a set (R332 steps 2 and 3): pseudo-LRU among quiet ways behind whose line nothing waits, else among the quiet
ways. -/
def State.dirVictim (s : State) (set : Nat) : Option Nat :=
  let quiet := s.quietWays set
  let calm := quiet.filter fun k => match s.hal.dir.find k with
    | some e => (s.waitsFor e.line).isEmpty
    | none => false
  let pick := fun (ks : List Nat) => (plruVictim (s.hal.plru.get 0 set) fun w => ks.contains (set * 16 + w)).map fun w =>
    set * 16 + w
  match pick calm with
  | some k => some k
  | none => pick quiet

/-- Store the entry of R326: in the line's way, or in an INVALID way of its set. None where no way is free (R332). -/
def State.placeEntry (s : State) (l : Nat) (e : Option DirEntry) : Option State :=
  match s.dirWay l, e with
  | some k, some x =>
    let t := match s.hal.dir.find k with
      | some old => old.grantT
      | none => 0
    some ((s.putDir k { x with grantT := t }).touchDir k)
  | some k, none => some { s with hal := { s.hal with dir := s.hal.dir.erase k } }
  | none, none => some s
  | none, some x =>
    match s.freeDirWays (dirSet l) with
    | [] => none
    | k :: _ => some ((s.putDir k x).touchDir k)

/-- Evict a way for a request: BISnpInv to the victim's holders (R332). -/
def State.evictDir (s : State) (k : Nat) (why : BiWhy) (reqLink : Nat) : Option State :=
  match s.hal.dir.find k with
  | none => none
  | some e =>
    let s := s.event (if why = .background then Ev.halBackground else Ev.halVictims) 0
    match s.snoopLinks e.line e.holders true why reqLink with
    | (some t, s) => some (s.openBi t)
    | (none, _) => none

/-- Try to serve the request at the head of its line's order (R326, R329, R331, R332). `holdOver` says that the line's
hold has run out; `force` names the way of a transaction that has just ended (R332 step 4). -/
def State.tryHome (s : State) (r : OpenReq) (holdOver : Bool) (force : Option Nat) : Tried × State :=
  let s := s.sweepLine r.dpaLine
  match homeAct r.dpaLine r.link r.op (s.linkGrant r.claim r.link == grantRead) (s.dirEntry r.dpaLine) with
  | .go e g =>
    match s.placeEntry r.dpaLine e with
    | some s => (.ready g, s.haloStatus)
    | none =>
      let victim := match force with
        | some k => if (s.hal.dir.find k).isSome then some k else s.dirVictim (dirSet r.dpaLine)
        | none => s.dirVictim (dirSet r.dpaLine)
      match victim with
      | none => (.parked, s.event Ev.halParked 0)
      | some k =>
        match s.evictDir k (.victim r.id) r.link with
        | some s => (.opened, s)
        | none =>
          -- no LD of the victim's holders could be addressed: its way is INVALID now
          match { s with hal := { s.hal with dir := s.hal.dir.erase k } }.placeEntry r.dpaLine e with
          | some s => (.ready g, s.haloStatus)
          | none => (.parked, s)
  | .snoop links inv =>
    let hold := match s.dirEntry r.dpaLine with
      | some e => s.holdLeft e && !holdOver
      | none => false
    if hold then (.held, s.event Ev.holdWaits 0)
    else
      match s.snoopLinks r.dpaLine links inv (.request r.id) r.link with
      | (some t, s) => (.opened, s.openBi t)
      | (none, s) =>
        match homeAct r.dpaLine r.link r.op (s.linkGrant r.claim r.link == grantRead) (s.dirEntry r.dpaLine) with
        | .go e g =>
          match s.placeEntry r.dpaLine e with
          | some s => (.ready g, s.haloStatus)
          | none => (.parked, s)
        | .snoop _ _ => (.held, s)

/-- Change an open request. -/
def State.setReq (s : State) (id : Nat) (g : OpenReq → OpenReq) : State :=
  { s with reqs := s.reqs.map fun r => if r.id = id then g r else r }

/-- An open request by its number. -/
def State.req (s : State) (id : Nat) : Option OpenReq := s.reqs.find? fun r => r.id == id

/-- The home has finished with a request: it goes on to be served. -/
def State.makeReady (s : State) (id g : Nat) : State :=
  let s := s.setReq id fun r => { r with granted := g, homed := true }
  { s with hal := { s.hal with ready := s.hal.ready ++ [id], waitQ := s.hal.waitQ.filter fun w => w.1 != id } }

/-- Put a request into the wait queue, or hold it at its link's router input when the queue is full (R330). -/
def State.queueHome (s : State) (id : Nat) (parked : Bool) : State :=
  let s := s.setReq id fun r => { r with biWait := true, stage := .halo }
  if s.hal.waitQ.any fun w => w.1 == id then
    { s with hal := { s.hal with waitQ := s.hal.waitQ.map fun w => if w.1 = id then (id, parked) else w } }
  else if s.hal.waitQ.length < 512 then
    ({ s with hal := { s.hal with waitQ := s.hal.waitQ ++ [(id, parked)] } }).haloStatus
  else
    (({ s with hal := { s.hal with atRouter := s.hal.atRouter ++ [id] } }).inc HAL_ERRCNT2.WQFULL).raise srcWqFull

/-- Serve or queue one request at the home. -/
def State.homeOne (s : State) (r : OpenReq) (holdOver : Bool) (force : Option Nat) : Bool × State :=
  match s.tryHome r holdOver force with
  | (.ready g, s) => (true, s.makeReady r.id g)
  | (.opened, s) => (false, s.queueHome r.id false)
  | (.held, s) => (false, s.queueHome r.id false)
  | (.parked, s) => (false, s.queueHome r.id true)

/-- A request reaches the home in arrival order (R329): it waits behind an open transaction and behind earlier requests
for its line. -/
def State.arriveHome (s : State) (r : OpenReq) : State :=
  let s := s.event Ev.halRequests (match r.op with
    | .rdNC => 0 | .rdS => 1 | .rdE => 2 | .wr _ => 3 | .evict => 4)
  if s.lineBusy r.dpaLine || !(s.waitsFor r.dpaLine).isEmpty then s.queueHome r.id false
  else (s.homeOne r false none).2

/-- Serve the requests that wait for a line, in order, until one opens a transaction or must wait. -/
def State.advanceLine (s : State) (l : Nat) (holdOver : Bool) : Nat → State
  | 0 => s
  | fuel + 1 =>
    if s.lineBusy l then s
    else
      match (s.waitsFor l).head?.bind s.req with
      | none => s
      | some r =>
        match s.homeOne r holdOver none with
        | (true, s) => s.advanceLine l holdOver fuel
        | (false, s) => s

/-- Start transactions that wait for a tracker (R330). -/
def State.startUntracked (s : State) : Nat → State
  | 0 => s
  | fuel + 1 =>
    match s.hal.untracked with
    | [] => s
    | t :: ts =>
      if s.hal.trackers.length < 1024 then
        ({ s with hal := { s.hal with untracked := ts } }.openTracked t).startUntracked fuel
      else s

/-- Requests held at the router enter the wait queue as it drains, those of a link in order (R330). -/
def State.admitRouter (s : State) : Nat → State
  | 0 => s
  | fuel + 1 =>
    match s.hal.atRouter with
    | [] => s
    | id :: ids =>
      if s.hal.waitQ.length < 512 then
        let s := { s with hal := { s.hal with atRouter := ids } }
        (match s.req id with
          | some r =>
            if s.onAt MAP_CLAIMATTR.SHARED r.claim then s.arriveHome r
            else { s with hal := { s.hal with ready := s.hal.ready ++ [id] } }
          | none => s).admitRouter fuel
      else s

/-- The oldest request parked on a set. -/
def State.parkedOn (s : State) (set : Nat) : Option OpenReq :=
  (s.hal.waitQ.find? fun w => w.2 && match s.req w.1 with
    | some r => dirSet r.dpaLine == set
    | none => false).bind fun w => s.req w.1

/-- A back-invalidate ends (R327): its tracker frees, the request that it served goes on, a parked request takes its way,
and the requests behind its line are served. -/
def State.endBi (s : State) (t : BackInv) : State :=
  let ns := (s.time - t.start) / 4
  let s := (s.wr HAL_PEAK.BIMAX (min (max (s.rd HAL_PEAK.BIMAX) ns) 0xFFFF)).occur Ev.biTime 0 ns none
  let way := s.dirWay t.line
  let s := { s with hal := { s.hal with trackers := s.hal.trackers.filter fun x => x.line != t.line } }
  let s := match t.why with
    | .victim id =>
      let s := match way with
        | some k => { s with hal := { s.hal with dir := s.hal.dir.erase k } }
        | none => s
      match s.req id with
      | some r => (s.homeOne r true none).2
      | none => s
    | .background =>
      match way with
      | some k => { s with hal := { s.hal with dir := s.hal.dir.erase k } }
      | none => s
    | .request id =>
      match s.req id with
      | some r => (s.homeOne r true none).2
      | none => s
    | .revoke | .release => s
  let s := match s.parkedOn (dirSet t.line) with
    | some r => (s.homeOne r false way).2
    | none => s
  let s := s.advanceLine t.line false 512
  ((s.startUntracked 1024).admitRouter 512).haloStatus

/-- A link has given its last answer of a back-invalidate; `shared` says that it keeps a shared copy. A BIRspS to a
BISnpInv is treated as BIRspI (R327). -/
def State.answerBi (s : State) (t : BackInv) (link ld : Nat) (shared : Bool) : State :=
  let keep := shared && !t.inv
  let t' := { t with waits := t.waits.filter fun w => w != (link, ld)
                     stays := if keep then t.stays.add link else t.stays }
  let s := { s with hal := { s.hal with trackers := s.hal.trackers.map fun x => if x.line = t.line then t' else x } }
  let done := !(t'.waits.any fun w => w.1 == link)
  let s := if done then
      s.setDir t.line fun e =>
        if t'.stays.has link then { e with exclusive := false } else { e with holders := e.holders.remove link }
    else s
  if t'.waits.isEmpty then s.endBi t' else s

/-! ### Silent holders (R334, R347) -/

/-- Causes of R347. -/
def toTimer : Nat := 0
def toLinkDown : Nat := 1
def toFence : Nat := 2

/-- Record a silent holder (R334 step 5, R347). -/
def State.logSilent (s : State) (t : BackInv) (link st cause : Nat) (poisoned : Bool) : State :=
  let s := s.inc HAL_ERRCNT.BITO
  match (List.range 8).find? fun k => !s.onAt HAL_TOLOG.VALID k with
  | none => s
  | some k =>
    let reqLink := match t.why with
      | .request _ => t.reqLink
      | _ => 0
    let s := ((s.wrAt HAL_TOLOG.TS k s.stamp).wrAt HAL_TOLOG.DPALINE k t.line).wrAt HAL_TOLOG.HOLDER k link
    let s := ((s.wrAt HAL_TOLOG.REQLINK k reqLink).wrAt HAL_TOLOG.STATE k st).putAt HAL_TOLOG.POISONED k poisoned
    (s.wrAt HAL_TOLOG.CAUSE k cause).putAt HAL_TOLOG.VALID k true

/-- The links among `silent` stop counting for a back-invalidate (R334): removed as holders, an EXCLUSIVE line poisoned
unless its claim is being released (R338), fenced, recorded. Ascending links. -/
def State.cutOff (s : State) (t : BackInv) (silent : List Nat) (cause : Nat) : State :=
  let before := s.dirEntry t.line
  let excl := match before with
    | some e => e.exclusive
    | none => false
  let s := (silent.foldl (fun s n =>
    let mine := excl && (match before with
      | some e => e.holders.has n
      | none => false) && !(t.why == .release)
    let s := s.dropHolder t.line n
    let s := if mine then s.poisonLost t.line else s
    let s := if s.fenced n then s else s.fenceLink n
    let s := { s with hal := { s.hal with late := s.hal.late ++ [(t.line, n)] } }
    s.logSilent t n (if excl then 2 else 1) cause mine) s)
  let s := s.raise srcBiTimeout
  let t' := { t with waits := t.waits.filter fun w => !silent.contains w.1 }
  let s := { s with hal := { s.hal with trackers := s.hal.trackers.map fun x => if x.line = t.line then t' else x } }
  if t'.waits.isEmpty then s.endBi t' else s

/-- Every open back-invalidate that waits for a link ends for that link (R39 step 5, R334, R335). -/
def State.cutLink (s : State) (link cause : Nat) : State :=
  (s.hal.trackers.filter fun t => t.waits.any fun w => w.1 == link).foldl (fun s t => s.cutOff t [link] cause) s

/-- Open back-invalidates over every tracked line of a claim to the links given by `who`: for a revocation or a release,
not held back by the grant hold (R323, R338). -/
def State.sweepClaim (s : State) (c : Nat) (why : BiWhy) (who : DirEntry → List Nat × Bool) : State :=
  ((s.hal.dir.map Prod.snd).filter fun e => s.inClaim c (e.line * 64)).foldl (fun s e =>
    let (links, inv) := who e
    if links.isEmpty then s
    else
      match s.snoopLinks e.line links inv why 0 with
      | (some t, s) =>
        if s.lineBusy e.line then { s with hal := { s.hal with untracked := s.hal.untracked ++ [t] } } else s.openBi t
      | (none, s) => s) s

/-- REVOKING follows the sweeps (R344). -/
def State.revoking (s : State) : State :=
  s.put HAL_HOSTSTAT.REVOKING (!s.hal.oldGrants.isEmpty ||
    (s.hal.trackers ++ s.hal.untracked).any fun t => t.why == .release)

/-- A protocol error by a host (R341). -/
def State.halProtocol (s : State) : State := (s.inc HAL_ERRCNT2.PROTO).raise srcHalProtocol

/-- A directory entry is read with an error (R341). -/
def State.dirError (s : State) (l : Nat) (f : Ecc) : State :=
  match f with
  | .clean => s
  | .corrected _ => s.inc HAL_ERRCNT2.DIRCE
  | .uncorrectable =>
    let s := s.inc HAL_ERRCNT2.DIRUE
    match s.dirWay l with
    | none => s
    | some k =>
      let s := { s with hal := { s.hal with dir := s.hal.dir.erase k } }
      let room := ((List.range 16).all fun w => !s.hal.retired.has (k / 16 * 16 + w)) &&
        decide (s.hal.retired.length < 1024)
      (if room then { s with hal := { s.hal with retired := s.hal.retired.add k } } else s).raise srcDirUe

/-- The completion of a request has been sent: its grant's hold starts (R331), and BIConflictAcks that waited for it
follow (R328). -/
def State.granted (s : State) (r : OpenReq) : State :=
  let grants := r.homed && (r.granted != 0 || r.op == .wr true)
  let s := if grants then s.setDir r.dpaLine fun e => { e with grantT := s.time / 4 % 4096 } else s
  let owed := s.hal.acks.filter fun a => a.1 == r.id
  let s := { s with hal := { s.hal with acks := s.hal.acks.filter fun a => a.1 != r.id } }
  owed.foldl (fun s a => s.send (.biConflictAck a.2.1 a.2.2.1 a.2.2.2)) s

end Sys2Proof.Machine
end

