-- ==== Sys2Proof/Machine/Mailbox.lean ====
section
/-! DEFINITION. The command interfaces (18_mailbox_and_kamcon.md): which there are and which manage (R527), return codes, the frame of
Kamcon payloads (R533), background commands (R541), and Kamcon commands that answer later (R534, R537). -/

namespace Sys2Proof.Machine

/-! ### Return codes (PRESUMED: the numbers of the CXL standard) -/

def rcSuccess : Nat := 0x0
def rcBackground : Nat := 0x1
def rcInvalidInput : Nat := 0x2
def rcUnsupported : Nat := 0x3
def rcInternal : Nat := 0x4
def rcBusy : Nat := 0x6
def rcInvalidHandle : Nat := 0xE
def rcInvalidAddress : Nat := 0xF
def rcAborted : Nat := 0x12
def rcInvalidLength : Nat := 0x16
def rcInvalidLog : Nat := 0x17

/-! ### The interfaces (R24, R527) -/

/-- What a CCI holds. -/
def State.cci (s : State) (k : Nat) : Cci := s.mbx.ccis.get {} k

/-- Replace what a CCI holds. -/
def State.setCci (s : State) (k : Nat) (x : Cci) : State := { s with mbx := { s.mbx with ccis := s.mbx.ccis.set {} k x } }

/-- Numbers of the CCIs of FM-owned LDs, by link, and of the two MCTP CCIs. -/
def cciFm (link : Nat) : Nat := 64 + link
def cciMctp : Nat := 256

/-- A link belongs to a port in MLD mode. -/
def State.mldLink (s : State) (link : Nat) : Bool := s.onAt LNK_PORTCFG.MLD (link / 2)

/-- The link exists: link 2p + 1 only on a bifurcated port (R16). -/
def State.hasLink (s : State) (n : Nat) : Bool := decide (n < 8) && (n % 2 == 0 || s.rdAt LNK_PORTCFG.BIF (n / 2) == 1)

/-- The CCI exists. -/
def State.cciExists (s : State) (k : Nat) : Bool :=
  if k < 64 then (s.lds.find k).isSome
  else if k < 72 then s.hasLink (k - 64) && s.mldLink (k - 64)
  else k == cciMctp || k == cciMctp + 1

/-- The CCI is a management CCI: the function of an SLD link, an FM-owned LD, or MCTP. -/
def State.cciManages (s : State) (k : Nat) : Bool :=
  if k < 64 then !s.onAt LNK_PORTCFG.MLD (k / 16) else true

/-- All CCIs that manage, MCTP as one (R579). -/
def State.managers (s : State) : List Nat :=
  ((s.lds.map Prod.fst).filter fun k => s.cciManages k) ++
    ((List.range 8).map cciFm).filter (fun k => s.cciExists k) ++ [cciMctp]

/-- The CCI whose logs a CCI shows: the two on MCTP share one set (R579). -/
def logOwner (k : Nat) : Nat := if k = cciMctp + 1 then cciMctp else k

/-- Mailboxes are ready, and the MCTP CCIs respond (R509, R528). -/
def State.mailReady (s : State) : Bool := s.on ENG_STAT.HORIZON_UP

/-- Answer a command. -/
def State.reply (s : State) (cci code : Nat) (payload : List Nat) : State := s.send (.reply cci code payload)

/-! ### Background commands (R541, R542) -/

/-- A Sanitize or Secure Erase runs on some CCI (R531). -/
def State.erasing (s : State) : Bool :=
  s.mbx.ccis.any fun e => match e.2.background with
    | some b => b.op == .sanitize || b.op == .secureErase
    | none => false

/-- One runs on this CCI. -/
def State.erasingOn (s : State) (k : Nat) : Bool :=
  match (s.cci k).background with
  | some b => b.op == .sanitize || b.op == .secureErase
  | none => false

/-- A CCI writes this flash area (R541). -/
def State.areaBusy (s : State) (area : Nat) : Bool :=
  s.mbx.ccis.any fun e => match e.2.background with
    | some b => b.area == some area
    | none => false

/-- A background command starts on a CCI. -/
def State.startBackground (s : State) (k : Nat) (b : Background) : State :=
  s.setCci k { s.cci k with background := some b }

/-- The background command of a CCI ends with a return code, which its interrupt signals (R541). -/
def State.endBackground (s : State) (k code : Nat) : State :=
  let x := s.cci k
  match x.background with
  | none => s
  | some b => (s.setCci k { x with background := none, last := some (b.op, code) }).send (.background k code)

/-! ### The Kamcon frame (R533) -/

/-- `n` bytes of a payload from byte `o` on, little-endian (R4). -/
def field (input : List Byte) (o n : Nat) : Nat := ofBytes ((input.drop o).take n)

/-- A bit of a payload outside the fields listed, by byte offset, first bit and width, is not 0. -/
def strayBits (input : List Byte) (fields : List (Nat × Nat × Nat)) : Bool :=
  (List.range (8 * input.length)).any fun b =>
    (input.getD (b / 8) 0).toNat.testBit (b % 8) &&
      !(fields.any fun f => decide (8 * f.1 + f.2.1 ≤ b) && decide (b < 8 * f.1 + f.2.1 + f.2.2))

/-- `n` bytes of a number, as the bytes of an answer. -/
def outBytes (v n : Nat) : List Nat := (List.range n).map fun k => bits v (8 * k) 8

/-- The header of an answer: CHECK and PEERCHECK. -/
def kamHead (check peer : Nat) : List Nat := [check, peer, 0, 0, 0, 0, 0, 0]

/-- Answer a foreground Kamcon command: with CHECK 0 its body, otherwise as many zeros. -/
def State.answer (s : State) (cci check peer : Nat) (body : List Nat) : State :=
  if check = 0 then s.reply cci rcSuccess (kamHead 0 0 ++ body)
  else s.reply cci rcInvalidInput (kamHead check peer ++ body.map fun _ => 0)

/-- Answer a background Kamcon command that has started. -/
def State.answerStarted (s : State) (cci : Nat) : State := s.reply cci rcBackground (kamHead 0 0)

/-! ### Commands that answer later (R534) -/

/-- The command that waits has its result, and no more to wait for. -/
def State.resultKnown (s : State) : KamWait → Bool
  | .commit c => !s.pair.fwd.contains (.commit c)
  | .release c => !s.pair.fwd.contains (.release c)
  | .sliceReset n => !s.onAt SLC_STAT.RESETTING n
  | .arm n => !(s.snp.slots.get {} n).waitPartner
  | .repair => !s.on MED_PPRSTAT.BUSY
  | .block _ _ => !s.on RST_CTL.GO
  | .pair => !s.pair.enabling

/-- CHECK and PEERCHECK of a claim operation that the partner has judged; one that was dropped with the pair is refused as in an
absent partner (R443; DESIGN CHOICE). -/
def State.forwardedCode (s : State) (took : Bool) : Nat × Nat :=
  if took then (0, 0)
  else if s.rd MAP_CHECK.CODE = 0xC9 then (0xC9, s.rd PAR_STAT.PEERCHECK) else (0xC8, 0)

/-- The answer of a command that waited. -/
def State.lateAnswer (s : State) (cci : Nat) : KamWait → State
  | .commit c =>
    let (code, peer) := s.forwardedCode (s.onAt MAP_CLAIMATTR.COMMIT c)
    s.answer cci code peer (outBytes (s.rd MAP_CAPCHARGED.BYTES) 8)
  | .release c =>
    let (code, peer) := s.forwardedCode (!s.onAt MAP_CLAIMATTR.COMMIT c)
    s.answer cci code peer []
  | .sliceReset n => s.answer cci 0 0 (outBytes (s.rdAt SLC_STAT.GEN n) 2)
  | .arm n =>
    s.answer cci (s.rdAt SNP_STATUS.CHECK n) 0
      (outBytes (s.rdAt SNP_STATUS.PEER n) 8 ++ outBytes (s.rdAt SNP_STREAMID.STREAMID n) 8)
  | .repair => s.answer cci 0 0 [s.rd MED_PPRSTAT.RESULT, s.rd MED_PPRSTAT.POISONED]
  | .block _ _ => s.answer cci 0 0 []
  | .pair => s.answer cci (s.rd PAR_CTL.CHECK) (if s.rd PAR_CTL.CHECK = 0xC9 then s.rd PAR_STAT.PEERCHECK else 0) []

/-- The Kamcon command that waits answers once its result is known. -/
def State.answerWaiting (s : State) : State :=
  match s.mbx.waiting with
  | none => s
  | some (cci, w) =>
    if s.resultKnown w then { s with mbx := { s.mbx with waiting := none } }.lateAnswer cci w else s

end Sys2Proof.Machine
end

