-- ==== Sys2Proof/Machine/Descs.lean ====
section
/-! DEFINITION. Descriptors at work (R357–R372): finding them, finishing them, per-page statuses of range moves, queue
states and completion status codes. -/

namespace Sys2Proof.Machine

/-! ### Codes (R361, R377, R383) -/

def stOk : Nat := 0x00
def stInvalidOpcode : Nat := 0x01
def stInvalidField : Nat := 0x02
def stRange : Nat := 0x03
def stNotPermitted : Nat := 0x04
def stDmaError : Nat := 0x05
def stMediaError : Nat := 0x06
def stMiscompare : Nat := 0x07
def stStopped : Nat := 0x08
def stIncompressible : Nat := 0x11
def stPartial : Nat := 0x12
def stSnapState : Nat := 0x20
def stSnapAborted : Nat := 0x21
def stNotOwner : Nat := 0x22
def stStreamInvalid : Nat := 0x23

def queDisabled : Nat := 0
def queEnabled : Nat := 1
def queStopping : Nat := 2
def queError : Nat := 3

/-- Fault sources of R378. -/
def srcQueDma : Nat := 92
def srcQueDb : Nat := 93
def srcQueLate : Nat := 94
def srcQueParity : Nat := 95

/-! ### Slices and queues -/

/-- Slice that owns a doorbell page, if one does (R350). -/
def State.pageOwner (s : State) (page : Nat) : Option Nat :=
  if s.onAt SLC_DBOWN.OWNED page then some (s.rdAt SLC_DBOWN.OWNER page) else none

/-- Slice that owns a queue: the owner of its doorbell page (R350). -/
def State.queueOwner (s : State) (q : Nat) : Option Nat := s.pageOwner (q / 64)

/-- Pages that a slice owns. -/
def State.pagesOwned (s : State) (slice : Nat) : List Nat :=
  (s.copiesWith SLC_DBOWN.OWNED 1).filter fun p => s.rdAt SLC_DBOWN.OWNER p == slice

/-- Queues of a slice that are not DISABLED. -/
def State.activeQueues (s : State) (slice : Nat) : List Nat :=
  (s.copiesWith QUE_STAT.STATE queEnabled ++ s.copiesWith QUE_STAT.STATE queStopping ++
    s.copiesWith QUE_STAT.STATE queError).filter fun q => s.queueOwner q == some slice

/-- SLC_STAT.QUEUES follows the queues of a slice (R380). -/
def State.sliceStatus (s : State) (slice : Nat) : State := s.wrAt SLC_STAT.QUEUES slice (s.activeQueues slice).length

/-- Put a queue into a state. -/
def State.setQueue (s : State) (q st : Nat) : State :=
  let s := s.wrAt QUE_STAT.STATE q st
  match s.queueOwner q with
  | some k => s.sliceStatus k
  | none => s

/-- Depth of a queue's rings. -/
def State.depth (s : State) (q : Nat) : Nat := 2 ^ s.rdAt QUE_CFG.DEPTHLOG q

/-! ### Descriptors -/

/-- The descriptor at an SQ index of a queue. -/
def State.desc (s : State) (q i : Nat) : Option Desc := s.que.descs.find? fun d => d.queue == q && d.index == i

/-- RUNNING follows the descriptors at work (R383). -/
def State.queueStatus (s : State) (q : Nat) : State :=
  s.wrAt QUE_STAT.RUNNING q (s.que.descs.filter fun d => d.queue == q && d.status.isNone).length

/-- Change a descriptor. -/
def State.setDesc (s : State) (q i : Nat) (g : Desc → Desc) : State :=
  { s with que := { s.que with descs := s.que.descs.map fun d => if d.queue = q ∧ d.index = i then g d else d } }

/-- A descriptor finishes with a status and a result; its completion is written later, in the order of finishing (R356,
R362). -/
def State.finishDesc (s : State) (q i status result : Nat) : State :=
  let n := s.que.nextDone
  let s := s.setDesc q i fun d => { d with status := some status, result := result, order := n }
  { s with que := { s.que with nextDone := n + 1 } }.queueStatus q

/-- The descriptor still runs: it is not finished, and its generation is that of its slice (R372, R373). -/
def State.descRuns (s : State) (d : Desc) : Bool :=
  d.status.isNone && d.gen == s.rdAt SLC_STAT.GEN d.slice

/-! ### Range moves (R137, R367) -/

/-- Statuses of pages while a range move runs: those of R367, none yet, and one that stands for 0x00 of a page that was
moved. -/
def pageOpen : Nat := 0xFF
def pageMoved : Nat := 0x100

/-- Status of a finished range move (R367). -/
def rangeStatus (sts : List Nat) : Nat :=
  if sts.any fun x => x == 3 || x == 4 || x == 5 || x == 6 then stPartial
  else if sts.contains 2 then stIncompressible
  else stOk

/-- RESULT of a range move: pages moved, and pages not moved (R358, R367). -/
def rangeResult (sts : List Nat) : Nat :=
  let moved := (sts.filter fun x => x == pageMoved).length
  moved + (sts.length - moved) * 2 ^ 32

/-- Set the status of one page of a range move; the last one finishes the descriptor, with its status array written
first (R367). -/
def State.pageStatus (s : State) (job : Option (Nat × Nat)) (dpn st : Nat) : State :=
  match job with
  | none => s
  | some (q, i) =>
    match s.desc q i with
    | none => s
    | some d =>
      let sts := d.statuses.set (dpn - d.addr0 / 4096) st
      let s := s.setDesc q i fun d => { d with statuses := sts }
      if sts.contains pageOpen || d.status.isSome then s
      else
        let link := s.rdAt QUE_CFG.LINK q
        let s := if d.addr1 = 0 then s
          else (s.send (.dmaWrite link d.slice d.addr1 (sts.map fun x => BitVec.ofNat 8 x))).send (.zeroRead link)
        s.finishDesc q i (rangeStatus sts) (rangeResult sts)

end Sys2Proof.Machine
end

