-- ==== Sys2Proof/Machine/Seal.lean ====
section
/-! DEFINITION. Veil and seal (10_veil_and_seal.md): KeyIDs, the counter tree and its cache, minors and majors, breaches, and
the rewrite trackers. Memory holds plaintext: the transforms of R288 are inverse to each other on every path that a
command can observe. -/

namespace Sys2Proof.Machine

/-! ### KeyIDs (R305) -/

def keyFree : Nat := 0
def keyReserved : Nat := 1
def keyActive : Nat := 2
def keyRetiring : Nat := 3

/-- Fault sources of R314. -/
def srcBreach : Nat := 81
def srcRekey : Nat := 82
def srcCtrExhaust : Nat := 83
def srcRngFail : Nat := 84
def srcPipePar : Nat := 85
def srcBreachFull : Nat := 86

/-- The KeyIDs in a state that seal a claim. -/
def State.keysOf (s : State) (c st : Nat) : List Nat :=
  (s.copiesWith SEC_KEYSTAT.STATE st).filter fun k => s.rdAt SEC_KEYSTAT.CLAIM k == c

/-- The KeyID that new pages of a claim take: 0 for an unsealed one; during a re-key, the one it moves to (R308). -/
def State.claimKey (s : State) (c : Nat) : Nat :=
  if s.onAt MAP_CLAIMATTR.SEALED c then
    match s.keysOf c keyActive with
    | [] => 0
    | k :: _ => s.sec.rekeyTo.get k k
  else 0

/-- The lowest FREE KeyID; 0 is never assigned (R305). -/
def State.freeKey (s : State) : Option Nat :=
  ((List.range 1024).drop 1).find? fun k => s.rdAt SEC_KEYSTAT.STATE k == keyFree

/-- Move a KeyID to a state for a claim. -/
def State.setKey (s : State) (k st c : Nat) : State := (s.wrAt SEC_KEYSTAT.STATE k st).wrAt SEC_KEYSTAT.CLAIM k c

/-- A KeyID becomes FREE: keys, allocator, root and cache entries go (R306). -/
def State.dropKey (s : State) (k : Nat) : State :=
  let s := { s with map := { s.map with sharedUsed := s.map.sharedUsed - (s.sec.trees.get {} k).shared } }
  let s := (s.setKey k keyFree 0).wrAt SEC_KEYALLOC.NEXT k (SEC_KEYALLOC.NEXT.resetAt k)
  let s := ((s.wrAt SEC_KEYSTAT.BREACHED k 0).wrAt SEC_KEYSTAT.REKEY k 0).wrAt SEC_KEYSTAT.RECOVERY k 0
  { s with sec := { s.sec with trees := s.sec.trees.erase k, rekeyTo := s.sec.rekeyTo.erase k } }

/-- A KeyID becomes ACTIVE for a claim; its allocator starts at 1 (R300, R307). -/
def State.startKey (s : State) (k c : Nat) : State :=
  let s := (s.setKey k keyActive c).wrAt SEC_KEYALLOC.NEXT k 1
  { s with sec := { s.sec with trees := s.sec.trees.set {} k {} } }

/-- Replace a page's entry and keep SEC_KEYSTAT.PAGES with it (R317). -/
def State.updateEntry (s : State) (dpn : Nat) (e : MapEntry) : State :=
  let old := s.entry dpn
  let s := s.replaceEntry dpn e
  if old.keyid = e.keyid then s
  else
    let s := if old.keyid = 0 then s else s.subAt SEC_KEYSTAT.PAGES old.keyid 1
    if e.keyid = 0 then s else s.incAt SEC_KEYSTAT.PAGES e.keyid

/-- The pages that have an entry listed anywhere: both copies and the map cache, in rising order. -/
def State.listedPages (s : State) : List Nat :=
  let a := s.map.primary.map Prod.fst
  let b := (s.map.cache.map fun e => e.2.dpn).filter fun d => !a.contains d
  sortBy (fun x y => decide (x ≤ y)) (a ++ b)

/-- The listed pages of a claim. -/
def State.pagesOf (s : State) (c : Nat) : List Nat := s.listedPages.filter fun d => s.inClaim c (d * 4096)

/-! ### The counter tree (R297–R301) -/

/-- Tree of a KeyID. -/
def State.tree (s : State) (k : Nat) : SealTree := s.sec.trees.get {} k

/-- Replace the tree of a KeyID. -/
def State.setTree (s : State) (k : Nat) (t : SealTree) : State :=
  { s with sec := { s.sec with trees := s.sec.trees.put k t } }

/-- Number of an entry in a tree's tables. -/
def nodeKey (level index : Nat) : Nat := level * 2 ^ 32 + index

/-- Node levels above the leaves for a number of pages: the top level is the first with at most 8 nodes (R297). -/
def nodeLevels (pages : Nat) : Nat :=
  ((List.range 10).find? fun k => decide (ceilDiv pages (8 ^ k) ≤ 8)).getD 9

/-- Page index within its claim. -/
def State.pageIndex (s : State) (c dpn : Nat) : Nat := dpn - s.claimBase c / 4096

/-- The entries on the path of a leaf, from the top level down to the leaf itself (R301). -/
def pathOf (levels idx : Nat) : List (Nat × Nat) :=
  ((List.range (levels + 1)).reverse).map fun k => (k, idx / 8 ^ k)

/-- The path of a page in the tree of its KeyID. -/
def State.pagePath (s : State) (dpn : Nat) : List (Nat × Nat) :=
  let e := s.entry dpn
  pathOf (nodeLevels (s.claimSize e.claim / 4096)) (s.pageIndex e.claim dpn)

/-- Entries that a sealed access must fetch: those on the path that were written once and are not cached (R299, R301). -/
def State.missing (s : State) (dpn : Nat) : List (Nat × Nat) :=
  let t := s.tree (s.entry dpn).keyid
  (s.pagePath dpn).filter fun (l, i) => t.counters.get 0 (nodeKey l i) != 0 && !t.cached.has (nodeKey l i)

/-- Put a path's entries into the counter cache. -/
def State.cachePath (s : State) (dpn : Nat) : State :=
  let k := (s.entry dpn).keyid
  let t := s.tree k
  s.setTree k { t with cached := (s.pagePath dpn).foldl (fun c p => c.add (nodeKey p.1 p.2)) t.cached }

/-- Allocator value at which a region is re-keyed, and the last one (R308). -/
def rekeyLevel : Nat := 2 ^ 56 - 2 ^ 40
def lastCounter : Nat := 2 ^ 56 - 1

/-- The next allocator value of a KeyID (R300); none when the allocator is exhausted (R308). -/
def State.nextCounter (s : State) (k : Nat) : Option (Nat × State) :=
  let v := s.rdAt SEC_KEYALLOC.NEXT k
  if lastCounter ≤ v then none
  else
    let s := s.wrAt SEC_KEYALLOC.NEXT k (v + 1)
    some (v, if rekeyLevel ≤ v + 1 ∧ !s.onAt SEC_KEYSTAT.REKEY k then
      (s.putAt SEC_KEYSTAT.REKEY k true).raise srcRekey else s)

/-- A dirty entry leaves the counter cache (R301): its counter in the parent takes a fresh value, and the parent becomes
dirty. -/
def State.evictNode (s : State) (k level index : Nat) : State :=
  let t := s.tree k
  let key := nodeKey level index
  if t.dirty.has key then
    match s.nextCounter k with
    | none => s
    | some (v, s) =>
      let up := nodeKey (level + 1) (index / 8)
      s.setTree k { t with cached := t.cached.remove key, dirty := (t.dirty.remove key).add up
                           counters := t.counters.set 0 key v }
  else s.setTree k { t with cached := t.cached.remove key }

/-! ### Breaches (R310) -/

/-- A breach record covers a page of the KeyID. -/
def State.recordCovers (s : State) (r k idx : Nat) : Bool :=
  s.onAt SEC_BREACH.VALID r && s.rdAt SEC_BREACH.KEYID r == k &&
    idx / 8 ^ s.rdAt SEC_BREACH.LEVEL r == s.rdAt SEC_BREACH.INDEX r

/-- A breach stands over the page (R310). -/
def State.breached (s : State) (dpn : Nat) : Bool :=
  let e := s.entry dpn
  e.keyid != 0 && (s.onAt SEC_KEYSTAT.BREACHED e.keyid ||
    (List.range 64).any fun r => s.recordCovers r e.keyid (s.pageIndex e.claim dpn))

/-- Recoveries of R311, as SEC_KEYSTAT.RECOVERY names them. -/
def recoverReinit : Nat := 1
def recoverRefetch : Nat := 2

/-- An entry lies in the subtree of (level, index). -/
def underEntry (level index l i : Nat) : Bool := decide (l ≤ level) && i / 8 ^ (level - l) == index

/-- The counters of a subtree become 0 (R299, R311): its entries read as never written. -/
def State.clearSubtree (s : State) (k level index : Nat) : State :=
  let t := s.tree k
  let mine := fun (key : Nat) => underEntry level index (key / 2 ^ 32) (key % 2 ^ 32)
  let up := nodeKey (level + 1) (index / 8)
  s.setTree k { t with
    leaves := t.leaves.filter fun e => !underEntry level index 0 e.1
    counters := t.counters.filter fun e => !mine e.1
    cached := t.cached.filter fun key => !mine key
    dirty := NSet.add (t.dirty.filter fun key => !mine key) up }

/-- The covered counters of a breach become 0: a record's subtree, or every top-level node of a claim. -/
def State.clearCovered (s : State) (k : Nat) (record : Option Nat) : State :=
  match record with
  | some r => s.clearSubtree k (s.rdAt SEC_BREACH.LEVEL r) (s.rdAt SEC_BREACH.INDEX r)
  | none =>
    let pages := s.claimSize (s.rdAt SEC_KEYSTAT.CLAIM k) / 4096
    let top := nodeLevels pages
    (List.range (ceilDiv pages (8 ^ top))).foldl (fun s i => s.clearSubtree k top i) s

/-- Start a recovery of the breach in a record, or of a whole claim (R311). A REFETCH needs a MIRRORED pair; its REFETCH
message names the record as its operation; a whole claim sends one for each top-level node, under 64 + KeyID. The covered counters are 0 before the lines
arrive. -/
def State.startRecovery (s : State) (k : Nat) (record : Option Nat) (choice : Nat) : State :=
  let c := s.rdAt SEC_KEYSTAT.CLAIM k
  if choice = recoverReinit ∨ (choice = recoverRefetch ∧ s.pairState = pairMirrored) then
    let pages := s.claimSize c / 4096
    let top := nodeLevels pages
    let tops := ceilDiv pages (8 ^ top)
    let s := match record with
      | some r => s.wrAt SEC_BREACH.PROGRESS r choice
      | none => { s with sec := { s.sec with whole := s.sec.whole.put k (choice, tops) } }
    if choice = recoverReinit then s
    else
      let s := s.clearCovered k record
      match record with
      | some r => s.ctrl (.refetch r c (s.rdAt SEC_BREACH.LEVEL r) (s.rdAt SEC_BREACH.INDEX r))
      | none => (List.range tops).foldl (fun s i => s.ctrl (.refetch (64 + k) c top i)) s
  else s

/-- Record a breach (R310); a recovery preset for its KeyID starts (R311). Causes: 0 UE, 1 MAC failure, 2 counter cache
UE. -/
def State.breach (s : State) (k level index cause : Nat) : State :=
  let record := (List.range 64).find? fun r => !s.onAt SEC_BREACH.VALID r
  let s := match record with
    | some r =>
      let s := ((s.wrAt SEC_BREACH.TS r s.stamp).wrAt SEC_BREACH.KEYID r k).wrAt SEC_BREACH.LEVEL r level
      let s := ((s.wrAt SEC_BREACH.INDEX r index).wrAt SEC_BREACH.CAUSE r cause).wrAt SEC_BREACH.PROGRESS r 0
      (s.putAt SEC_BREACH.VALID r true).wr SEC_BREACHSTAT.VALID (setBit (s.rd SEC_BREACHSTAT.VALID) r true)
    | none => (s.putAt SEC_KEYSTAT.BREACHED k true).raise srcBreachFull
  ((s.inc SEC_ERRCNT.BREACH).raise srcBreach).startRecovery k record (s.rdAt SEC_KEYSTAT.RECOVERY k)

/-- A REFETCH recovery of the page's breach runs (R311). -/
def State.refetching (s : State) (dpn : Nat) : Bool :=
  let e := s.entry dpn
  e.keyid != 0 && ((s.sec.whole.get (0, 0) e.keyid).1 == recoverRefetch || (List.range 64).any fun r =>
    s.recordCovers r e.keyid (s.pageIndex e.claim dpn) && s.rdAt SEC_BREACH.PROGRESS r == recoverRefetch)

/-! ### Rewrite trackers (R292) -/

/-- Items of a page: lines of a frame, or granules 16b + g of a run (R292). -/
def pageItems (l : Location) : List Nat :=
  match l with
  | .nowhere => []
  | .frame _ => List.range 64
  | .run _ c0 c1 c2 c3 =>
    (List.range 4).flatMap fun b => (List.range ([c0, c1, c2, c3].getD b 0)).map fun g => 16 * b + g

/-- A rewrite tracker is active or waits on the page. -/
def State.tracked (s : State) (dpn : Nat) : Bool := (s.sec.trackers ++ s.sec.waiting).any fun t => t.dpn == dpn

/-- Start a rewrite tracker, or let it wait for a free one (64 in the device), or for the one that its page already has. -/
def State.startTracker (s : State) (t : RewriteTracker) : State :=
  if s.sec.trackers.length < 64 && !(s.sec.trackers.any fun x => x.dpn == t.dpn) then { s with sec := { s.sec with trackers := s.sec.trackers ++ [t] } }
  else { s with sec := { s.sec with waiting := s.sec.waiting ++ [t] } }

/-- A page's rewrite is complete: its map entry takes the new state (R291, R308), the tracker frees, and the oldest waiting
one starts. -/
def State.endTracker (s : State) (t : RewriteTracker) : State :=
  let e := s.entry t.dpn
  let s := match t.why with
    | .rotation => (s.updateEntry t.dpn { e.bump with keygen := t.newGen }).event Ev.rotationPages 0
    | .rekey => s.updateEntry t.dpn { e.bump with keyid := t.newKey }
    | .reencryption => s.event Ev.reencryptions 0
  let s := { s with sec := { s.sec with trackers := s.sec.trackers.filter fun x => x.dpn != t.dpn } }
  let s := s.event Ev.rewritePages 0
  let ws := s.sec.waiting
  ws.foldl (fun s w => s.startTracker w) { s with sec := { s.sec with waiting := [] } }

/-- Items of a page were written under its new state: their done bits are set (R292). -/
def State.itemsDone (s : State) (dpn : Nat) (items : List Nat) : State :=
  match s.sec.trackers.find? fun t => t.dpn == dpn with
  | none => s
  | some t =>
    let t' := { t with done := items.foldl NSet.add t.done }
    let s := { s with sec := { s.sec with trackers := s.sec.trackers.map fun x => if x.dpn = dpn then t' else x } }
    if (pageItems (s.entry dpn).loc).all t'.done.has then s.endTracker t' else s

/-! ### Minors and majors (R303) -/

/-- A fresh major for a page, with all minors 0. -/
def State.freshLeaf (s : State) (k : Nat) : Option (SealLeaf × State) :=
  (s.nextCounter k).map fun (v, s) => ({ major := v }, s)

/-- Store a page's leaf; it is dirty in the counter cache (R301). -/
def State.setLeaf (s : State) (k idx : Nat) (l : SealLeaf) : State :=
  let t := s.tree k
  s.setTree k { t with leaves := t.leaves.put idx l, cached := t.cached.add (nodeKey 0 idx)
                       dirty := t.dirty.add (nodeKey 0 idx) }

/-- The KeyID under which items of a page are encrypted now: the one it moves to while its re-key tracker runs (R292,
R308). -/
def State.pageKey (s : State) (dpn : Nat) : Nat :=
  match s.sec.trackers.find? fun t => t.dpn == dpn && t.why == .rekey with
  | some t => t.newKey
  | none => (s.entry dpn).keyid

/-- Encrypt one item of a page (R303): its minor is incremented; at 63 the page takes a fresh major and a tracker
re-encrypts the other items. None while the allocator is exhausted. -/
def State.sealItem (s : State) (dpn item : Nat) : Option State :=
  let e := s.entry dpn
  let k := s.pageKey dpn
  let idx := s.pageIndex e.claim dpn
  let leaf := (s.tree k).leaves.get {} idx
  let minor := leaf.minors.get 0 item
  if leaf.major = 0 then
    (s.freshLeaf k).map fun (l, s) => s.setLeaf k idx { l with minors := [(item, 1)] }
  else if minor < 63 then some (s.setLeaf k idx { leaf with minors := leaf.minors.put item (minor + 1) })
  else
    (s.freshLeaf k).map fun (l, s) =>
      let all := (pageItems e.loc).foldl (fun m i => Table.put m i 1) ([] : Table Nat)
      (s.setLeaf k idx { l with minors := Table.put all item 1 }).startTracker
        { dpn := dpn, why := .reencryption, oldGen := e.keygen, oldKey := k, oldLeaf := leaf, newGen := e.keygen
          newKey := k, done := [item] }

/-- Encrypt items of a page in order; an unsealed page needs nothing. -/
def State.sealItems (s : State) (dpn : Nat) : List Nat → Option State
  | [] => some s
  | i :: is =>
    if (s.entry dpn).keyid = 0 then some s
    else
      match s.sealItem dpn i with
      | none => none
      | some s => s.sealItems dpn is

/-- Items of a page are written: counters, done bits and the event (R292, R303). A writeback under an exhausted allocator
waits (R308). -/
def State.protectWrite (s : State) (dpn : Nat) (items : List Nat) : Option State :=
  match s.sealItems dpn items with
  | none => none
  | some s =>
    let s := if (s.entry dpn).keyid = 0 then s else s.event Ev.sealedWritebacks 0
    some (s.itemsDone dpn items)

/-! ### Trees and space (R56, R302, R307) -/

/-- Bytes of a claim's tree as they are charged. -/
def State.treeBytes (s : State) (c : Nat) : Nat := up2M (ceilDiv (s.claimSize c) 56)

/-- SPARE-mode channels that hold metadata. -/
def State.metaChannels (s : State) : List Nat := (List.range 16).filter fun c => s.spareMode c && s.populated c

/-- Free bytes for metadata. -/
def State.metaFree (s : State) : Nat := (s.metaChannels.map fun c => s.framesFree c * 4096).sum

/-- Take metadata space round robin from the SPARE-mode channels, or give it back (R247, R297). -/
def State.metaSpace (s : State) (bytes : Nat) (take : Bool) : State :=
  let cs := s.metaChannels
  let each := ceilDiv bytes (max cs.length 1)
  cs.foldl (fun s c =>
    let ch := s.chan c
    s.setChan c { ch with metaBytes := if take then ch.metaBytes + each else ch.metaBytes - each }) s

end Sys2Proof.Machine
end

