-- ==== Sys2Proof/Machine/Place.lean ====
section
/-! DEFINITION. Placement's shared operations (05_placement_and_migration.md): the active policy block, heat, candidates,
permitted forms, the filter, and the abort of a move. -/

namespace Sys2Proof.Machine

/-! ### Policy (R123, R146, R152) -/

/-- Value of a staged PLC field in the active block (R146). -/
def State.policy (s : State) (f : Fld) : Nat := s.plc.active.get (f.resetAt 0) (f.key 0)

/-- The staged fields: registers 0x000–0x03F of the block. -/
def stagedFields : List Fld :=
  [PLC_EPOCH.LEN, PLC_HEATCFG.RD, PLC_HEATCFG.WR, PLC_HEATCFG.NFETCH, PLC_HEATCFG.MIRWR, PLC_THRESH.PROMOTE_T,
    PLC_THRESH.DEMOTE_T, PLC_THRESH.PIN_T, PLC_THRESH.AMP_MAX, PLC_BUDGET.PROMOTE_MAX, PLC_BUDGET.DEMOTE_MAX,
    PLC_BUDGET.COMPACT_MAX, PLC_MOVECFG.MAXPASS, PLC_MOVECFG.SWITCHMAX, PLC_MOVECFG.SWITCHTRY, PLC_MOVECFG.MINGAIN,
    PLC_MOVECFG.PROMOTE_EN, PLC_MOVECFG.DEMOTE_EN, PLC_MOVECFG.COMPACT_EN, PLC_MOVECFG.PIN_EN, PLC_SCANCFG.RATE,
    PLC_SCANCFG.FRAG_T]

/-- The placement mode of a claim in force: a change waits for the next epoch boundary (R146). -/
def State.mode (s : State) (c : Nat) : Nat := s.plc.active.get (PLC_CLAIMPOL.MODE.resetAt c) (PLC_CLAIMPOL.MODE.key c)

def modeAuto : Nat := 0
def modeStratus : Nat := 1
def modeDense : Nat := 2

/-- R123 permits the NIMBUS form to placement. -/
def State.nimbusAllowed (s : State) (c : Nat) : Bool :=
  (!s.onAt MAP_CLAIMATTR.SEALED c || s.onAt MAP_CLAIMATTR.SEAL_DENSE c) && s.mode c != modeStratus

/-- Fault sources of R148. -/
def srcMoveUe : Nat := 40
def srcPlcQueue : Nat := 41
def srcAbortHigh : Nat := 42
def srcDriftHang : Nat := 43

/-! ### Heat (R124–R126) -/

/-- Current epoch. -/
def State.epoch (s : State) : Nat := s.rd PLC_EPOCH.NUM

/-- Effective heat of an entry in an epoch (R125). -/
def MapEntry.effHeat (e : MapEntry) (epoch : Nat) : Nat :=
  let d := (epoch % 256 + 256 - e.hstamp) % 256
  if 8 ≤ d then 0 else e.heat / 2 ^ d

/-- heat_update of R125. -/
def MapEntry.heated (e : MapEntry) (epoch inc : Nat) : MapEntry :=
  { e with heat := min 255 (e.effHeat epoch + inc), hstamp := epoch % 256 }

/-! ### Candidates (R129, R131) -/

/-- Entries of a candidate bank. -/
def bankSize : Nat := 16384

/-- A candidate is discarded at a full bank (R131, R148). -/
def State.candidateLost (s : State) : State :=
  let s := (s.inc PLC_ERRCNT.QOVF).event Ev.candidatesLost 0
  if s.sticky srcPlcQueue then s else s.raise srcPlcQueue

/-- Post a promotion candidate with its heat. -/
def State.postPromotion (s : State) (dpn heat : Nat) : State :=
  if s.plc.promo.length < bankSize then
    { s with plc := { s.plc with promo := s.plc.promo ++ [(dpn, heat)] } }.event Ev.candidates 0
  else s.candidateLost

/-- Post a demotion candidate. -/
def State.postDemotion (s : State) (dpn : Nat) : State :=
  if s.plc.demo.length < bankSize then
    { s with plc := { s.plc with demo := s.plc.demo ++ [dpn] } }.event Ev.candidates 0
  else s.candidateLost

def hintNone : Nat := 0
def hintHot : Nat := 1
def hintCold : Nat := 2

/-- A heat update of a page's map cache entry (R124, R129). A page that is not cached takes none. -/
def State.heat (s : State) (dpn inc : Nat) : State :=
  match s.cached dpn with
  | none => s
  | some e =>
    let before := e.effHeat s.epoch
    let e' := e.heated s.epoch inc
    let s := s.touchEntry dpn fun e => e.heated s.epoch inc
    let t := s.policy PLC_THRESH.PROMOTE_T
    if e.state = .nimbus && decide (before < t) && decide (t ≤ e'.heat) && e.hint != hintCold then
      s.postPromotion dpn e'.heat
    else s

/-! ### The incompressible filter (R138) -/

/-- The page is in the filter. -/
def State.filtered (s : State) (dpn : Nat) : Bool := s.plc.filter.any fun f => f.1 == dpn

/-- Enter a page; the oldest leaves a full filter. -/
def State.enterFilter (s : State) (dpn : Nat) : State :=
  let old := s.plc.filter.filter fun f => f.1 != dpn
  let old := if 4096 ≤ old.length then old.drop 1 else old
  { s with plc := { s.plc with filter := old ++ [(dpn, s.epoch)] } }

/-- Remove a page. -/
def State.leaveFilter (s : State) (dpn : Nat) : State :=
  { s with plc := { s.plc with filter := s.plc.filter.filter fun f => f.1 != dpn } }

/-! ### Read amplification (R127) -/

/-- A host touches a line: one of a fill's other lines counts as useful the first time. -/
def State.touchExtra (s : State) (dpaLine : Nat) : State :=
  if s.plc.extra.has dpaLine then
    { s with plc := { s.plc with extra := s.plc.extra.remove dpaLine, useful := s.plc.useful + 1 } }.event Ev.usefulFills 0
  else s

/-- A line left Cirrus before it was touched. -/
def State.forgetExtra (s : State) (dpaLine : Nat) : State :=
  if s.plc.extra.has dpaLine then { s with plc := { s.plc with extra := s.plc.extra.remove dpaLine } } else s

/-- Amplification of an epoch with `f` fetches and `u` useful lines, as 8.8 fixed point (R127). -/
def amplification (f u : Nat) : Nat := if f = 0 then 0x100 else 16 * 256 * f / (f + u)

/-! ### Moves (R139–R142) -/

/-- The tracker of a page. -/
def State.move (s : State) (dpn : Nat) : Option Move := s.plc.moves.find? fun m => m.dpn == dpn

/-- MOVES and the move margin follow the trackers (R86, R153): every tracker holds a full-size destination. -/
def State.moveStatus (s : State) : State :=
  (s.wr PLC_STATUS.MOVES s.plc.moves.length).wr MAP_CAPMOVE.BYTES (4096 * s.plc.moves.length)

/-- Change a tracker. -/
def State.setMove (s : State) (dpn : Nat) (g : Move → Move) : State :=
  { s with plc := { s.plc with moves := s.plc.moves.map fun m => if m.dpn = dpn then g m else m } }

/-- Release a tracker. -/
def State.endMove (s : State) (dpn : Nat) : State :=
  { s with plc := { s.plc with moves := s.plc.moves.filter fun m => m.dpn != dpn } }.moveStatus

/-- Count an outcome in the report of the epoch at whose end the move was chosen; a carried move counts in the report of the
epoch in which it ends (R132, R134, R147). Explicit moves are outside the reports. -/
def State.countMove (s : State) (m : Chosen) (g : EpochCounts → EpochCounts) : State :=
  if m.explicit.isSome then s
  else if (m.epoch + 1) % 2 ^ 32 = s.epoch then { s with plc := { s.plc with report := g s.plc.report } }
  else { s with plc := { s.plc with nextReport := g s.plc.nextReport } }

/-- The choice that a tracker came from. -/
def Move.chosen (m : Move) : Chosen := ⟨m.dpn, m.kind, m.epoch, m.explicit⟩

/-- A page leaves IN_FLIGHT for its source form (R142): the entry is rewritten, the destination's space returns to the
move margin, the tracker frees. -/
def State.unmove (s : State) (m : Move) : State :=
  let e := s.entry m.dpn
  let st : PageState := match m.src with
    | .run _ _ _ _ _ => .nimbus
    | _ => .stratus
  let s := if e.state = .inFlight then s.updateEntry m.dpn { e.bump with state := st } else s
  (s.freeLocation m.dest).endMove m.dpn

/-- A dropped or aborted promotion is posted again while its heat is still there (R133). -/
def State.repost (s : State) (m : Chosen) : State :=
  let heat := (s.entry m.dpn).effHeat s.epoch
  if m.kind = .promote ∧ m.explicit.isNone ∧ s.policy PLC_THRESH.PROMOTE_T ≤ heat then s.postPromotion m.dpn heat else s

/-- A started move aborts (R142). `counted` says that it counts as ABORTED; claim release, LOST pages and MAP_UPDATE do
not repost (R133). -/
def State.abortMove (s : State) (m : Move) (counted again : Bool) (status : Nat) : State :=
  let s := s.unmove m
  let s := if counted then
      (s.countMove m.chosen fun r => { r with aborted := r.aborted + 1 }).event Ev.moveAborts 0
    else s
  let s := s.pageStatus m.explicit m.dpn status
  if again then s.repost m.chosen else s

/-- Moves that hold space on a channel. -/
def State.movesOn (s : State) (c : Nat) : List Move :=
  s.plc.moves.filter fun m => s.locationChannel m.src == some c || s.locationChannel m.dest == some c

/-- A writeback went to a move's source: its lines are marked (R139, R177). -/
def State.markMove (s : State) (dpn : Nat) (lines : List Nat) : State :=
  s.setMove dpn fun m => { m with dirty := lines.foldl NSet.add m.dirty }

end Sys2Proof.Machine
end

