-- ==== Sys2Proof/Machine/Slots.lean ====
section
/-! DEFINITION. Snapshot slots (07_snapshots_and_export.md): states, marks, the reserve, copies of pages, stream frames,
delivery to the targets, capture start, abort and release. -/

namespace Sys2Proof.Machine

/-! ### Slots (R187, R188) -/

def slotFree : Nat := 0
def slotArming : Nat := 1
def slotArmed : Nat := 2
def slotPreserving : Nat := 3
def slotDraining : Nat := 4
def slotDone : Nat := 5
def slotAborting : Nat := 6
def slotAborted : Nat := 7

def targetHost : Nat := 0
def targetPartner : Nat := 1
def targetShadow : Nat := 2

/-- Causes of R210. -/
def abortReserve : Nat := 1
def abortTime : Nat := 2
def abortRelease : Nat := 3
def abortSlice : Nat := 4
def abortPartner : Nat := 5
def abortTarget : Nat := 6
def abortNight : Nat := 7
def abortWarm : Nat := 8

/-- State of a slot. -/
def State.slotState (s : State) (n : Nat) : Nat := s.rdAt SNP_STATUS.STATE n

/-- What a slot holds beside its registers. -/
def State.slot (s : State) (n : Nat) : Slot := s.snp.slots.get {} n

/-- Replace what a slot holds. -/
def State.setSlot (s : State) (n : Nat) (x : Slot) : State :=
  { s with snp := { s.snp with slots := s.snp.slots.set {} n x } }

/-- Change what a slot holds. -/
def State.onSlot (s : State) (n : Nat) (g : Slot → Slot) : State := s.setSlot n (g (s.slot n))

/-- Slots that are not FREE. -/
def State.liveSlots (s : State) : List Nat := (List.range 256).filter fun n => s.slotState n != slotFree

/-- Live slots of a claim; a receive slot has none. -/
def State.slotsOf (s : State) (c : Nat) : List Nat :=
  s.liveSlots.filter fun n => s.rdAt SNP_ARM.CLAIM n == c && !(s.slot n).receive

/-- Slice that owns a live slot: that of its claim, or of a receive slot its own (R201). -/
def State.slotSlice (s : State) (n : Nat) : Nat :=
  if (s.slot n).receive then (s.slot n).slice else s.rdAt MAP_CLAIMATTR.SLICE (s.rdAt SNP_ARM.CLAIM n)

/-- The slot of a claim in a state. -/
def State.slotIn (s : State) (c st : Nat) : Option Nat := (s.slotsOf c).find? fun n => s.slotState n == st

/-- The slot of a claim that gives SNAP 1 to new pages (R190). -/
def State.marking (s : State) (c : Nat) : Bool := (s.slotIn c slotArming).isSome || (s.slotIn c slotArmed).isSome

/-- Set a page's SNAP mark in the cached entry and both copies; VERSION stays (R190). -/
def State.setSnap (s : State) (dpn : Nat) (b : Bool) : State := s.replaceEntry dpn { s.entry dpn with snap := b }

/-! ### The reserve (R197, R198, R217) -/

/-- Reserve of a slot in bytes, and the part set aside for the capture table. -/
def State.reserveBytes (s : State) (n : Nat) : Nat := s.rdAt SNP_RESERVE.SIZE n * 2 ^ 21
def State.tableBytes (s : State) (n : Nat) : Nat := s.reserveBytes n / 64

/-- Bytes that captures hold. -/
def Slot.captureBytes (x : Slot) : Nat := 64 * (x.captureSize.map Prod.snd).sum

/-- Room in the buffers queued on a slot, and in the target at once: a HOST target takes what its buffers have left. -/
def Slot.room (x : Slot) : Nat := (x.buffers.map fun b => b.len - b.filled).sum

/-- Bytes of the stream that are staged: all of them for a SHADOW target and a receive slot, those that the buffers cannot
take for a HOST target, those that have not left for a PARTNER target. -/
def State.stagedBytes (s : State) (n : Nat) : Nat :=
  let x := s.slot n
  if x.receive || s.rdAt SNP_ARM.TARGET n == targetShadow then x.stream.length
  else if s.rdAt SNP_ARM.TARGET n == targetHost then x.stream.length - x.room
  else x.stream.length

/-- Reserve in use (R217). -/
def State.slotUsed (s : State) (n : Nat) : Nat :=
  s.tableBytes n + (s.slot n).captureBytes + ceilDiv (s.stagedBytes n) 64 * 64

/-- USED and PEAK follow the reserve. -/
def State.slotUse (s : State) (n : Nat) : State :=
  let u := ceilDiv (s.slotUsed n) (2 ^ 21)
  (s.wrAt SNP_USE.USED n u).wrAt SNP_USE.PEAK n (max u (s.rdAt SNP_USE.PEAK n))

/-- The reserve and the capture table can take a capture of `g` granules. -/
def State.captureFits (s : State) (n g : Nat) : Bool :=
  decide (s.slotUsed n + 64 * g ≤ s.reserveBytes n) &&
    decide ((s.slot n).captures.length + 1 ≤ s.reserveBytes n / 1024)

/-! ### Copies of pages (R193, R195, R196) -/

/-- Read the 64 lines of a frame for a copy; gives the lines and those that cannot be verified. -/
def State.copyFrame (s : State) (dpn mfn : Nat) (fs : Finds) : Nat → List Line × NSet × State
  | 0 => ([], [], s)
  | n + 1 =>
    let (ls, bad, s) := s.copyFrame dpn mfn fs n
    let f := fs.line (mfn * 64 + n)
    let (got, s) := s.readMedia (mfn * 64 + n) f.ecc (s.listed (dpn * 64 + n))
    match got with
    | .data l => if f.macOk then (ls ++ [l], bad, s) else (ls ++ [0], bad.add n, s.macFail)
    | _ => (ls ++ [0], bad.add n, s)

/-- Read the blocks of a run as stored; gives counts and bytes, and the lines that cannot be read. -/
def State.copyRun (s : State) (dpn : Nat) (l : Location) (fs : Finds) : Nat → List (Nat × List Byte) × NSet × State
  | 0 => ([], [], s)
  | b + 1 =>
    let (bs, bad, s) := s.copyRun dpn l fs b
    let g := s.granuleLine (l.blockStart b)
    let n := l.blockCount b
    let known := (List.range 16).any fun i => s.listed (dpn * 64 + b * 16 + i)
    match s.readBlock l b (fs.run g n) known with
    | (some img, s) => (bs ++ [(n, img)], bad, s)
    | (none, s) => (bs ++ [(n, [])], (List.range 16).foldl (fun t i => t.add (b * 16 + i)) bad, s)

/-- The lines of a page that Cirrus or the writeback buffer holds newer than DRAM, with their masks. -/
def State.dirtyLines (s : State) (dpn : Nat) : List (Nat × Line × ByteMask × Bool) :=
  (List.range 64).filterMap fun i =>
    match s.cirLine (dpn * 64 + i) with
    | some x =>
      if x.state = .clean then none
      else some (i, x.data, if x.state = .partly then x.bvm else ByteMask.full, x.poison)
    | none => (s.buffered (dpn * 64 + i)).map fun w => (i, w.data, w.bvm, w.poison)

/-- Copy a page as it stands: its form as stored, overlaid by the lines that Cirrus holds (R193, R195). Lines that cannot be
verified, listed lines, and every line behind a frozen channel or a breach count as unverifiable (R196, R242, R310). -/
def State.copyPage (s : State) (dpn : Nat) (fs : Finds) : PageCopy × State :=
  let e := s.entry dpn
  let newer := s.dirtyLines dpn
  let listed : NSet := (List.range 64).filter fun i => s.listed (dpn * 64 + i)
  let reachable := match s.locationChannel e.loc with
    | some c => s.serving c
    | none => true
  if e.state = .lost || !reachable || s.breached dpn then
    ({ bad := List.range 64, overlay := newer }, s)
  else
    match e.loc with
    | .nowhere => ({ bad := listed, overlay := newer }, s)
    | .frame mfn =>
      let (ls, bad, s) := s.copyFrame dpn mfn fs 64
      ({ frame := ls, bad := listed.foldl NSet.add bad, overlay := newer }, s)
    | .run _ _ _ _ _ =>
      let (bs, bad, s) := s.copyRun dpn e.loc fs 4
      ({ blocks := bs, bad := listed.foldl NSet.add bad, overlay := newer }, s)

/-- A block of a copy as 16 lines, or none where it does not decode. -/
def PageCopy.block (p : PageCopy) (b : Nat) : Option (List Line) :=
  match p.blocks with
  | [] => some (((p.frame ++ List.replicate 64 (0 : Line)).drop (16 * b)).take 16)
  | bs =>
    match bs[b]? with
    | none => some (List.replicate 16 0)
    | some (n, img) =>
      match decodeStored n img with
      | .ok bytes => some (cutLines 16 bytes)
      | .error _ => none

/-- A line of a copy with its poison: the overlay over the stored line. -/
def PageCopy.line (p : PageCopy) (i : Nat) : Line × Bool :=
  let under := match p.block (i / 16) with
    | some ls => (ls.getD (i % 16) 0, p.bad.has i)
    | none => (0, true)
  match p.overlay.find? fun o => o.1 == i with
  | none => under
  | some (_, l, m, poison) => if m = ByteMask.full then (l, poison) else (under.1.merge l m, poison || under.2)

/-- The lines of a copy that are poisoned, as a mask. -/
def PageCopy.poison (p : PageCopy) : Nat := ((List.range 64).map fun i => flag (p.line i).2 * 2 ^ i).sum

/-- The lines that were captured or read poisoned for themselves (R196): a capture's unverifiable lines. -/
def State.countBad (s : State) (p : PageCopy) : State := s.addAt SNP_ERRCNT.CAPPOISON 0 p.bad.length

/-! ### Stream frames (R203–R208) -/

/-- The export key that a reference names (R208, R545). -/
def State.exportKey (s : State) (ref : Nat) : Option Nat :=
  match s.sec.created.find ref with
  | some k => some k.key
  | none => s.sec.loaded.find ref

/-- The export key that a request or an import may use. -/
def State.heldKey (s : State) (ref : Nat) : Option Nat :=
  match s.sec.created.find ref with
  | some k => if k.dropped then none else some k.key
  | none => s.sec.loaded.find ref

/-- Bytes with their CRC-32C in four more bytes. -/
def withCrc (b : List Byte) : List Byte := b ++ toBytes (crc32c b) 4

/-- The stream header (R204). -/
def State.streamHeader (s : State) (n : Nat) : List Byte :=
  let c := s.rdAt SNP_ARM.CLAIM n
  let sealed := s.onAt MAP_CLAIMATTR.SEALED c
  withCrc (toBytes (1 + 2 ^ 8 + flag sealed * 2 ^ 16 + 0x5A537160 * 2 ^ 32) 8 ++
    toBytes (s.rdAt SNP_STREAMID.STREAMID n) 8 ++ toBytes (s.rdAt SNP_CUTTS.CUTTS n) 8 ++
    toBytes (s.claimSize c / 4096 + s.rdAt MAP_CLAIMATTR.SLICE c * 2 ^ 36 + c * 2 ^ 48) 8 ++
    toBytes (n + (if sealed then ((s.slot n).keyRef).getD 0 else 0) * 2 ^ 32) 8 ++ List.replicate 20 0)

/-- A heap image with its padding trimmed (R206). -/
def trimImage (img : List Byte) : List Byte :=
  let tlen := bits (ofBytes (img.take 4)) 8 11
  let n := ceilDiv (8 + tlen) 8 * 8
  img.take (4 + tlen) ++ List.replicate (n - 8 - tlen) 0 ++ img.drop (img.length - 4)

/-- The image of a block of a copy in the stream (R206): a NIMBUS block without newer lines is copied and trimmed, others
are encoded, with zeros for poisoned lines. -/
def PageCopy.image (p : PageCopy) (b : Nat) : List Byte :=
  let plain := joinLines ((List.range 16).map fun i =>
    let l := p.line (b * 16 + i)
    if l.2 then (0 : Line) else l.1)
  let newer := p.overlay.any fun o => o.1 / 16 == b
  let bad := (List.range 16).any fun i => (p.line (b * 16 + i)).2
  match p.blocks[b]? with
  | some (n, img) => if n < 16 && !newer && !bad then trimImage img else streamImage plain
  | none => streamImage plain

/-- The copy has a line that is poisoned or not zero. -/
def PageCopy.hasContents (p : PageCopy) : Bool := (List.range 64).any fun i => (p.line i).2 || (p.line i).1 != 0

/-- A page record (R205); `key` seals it, with the record's sequence number in the nonce (R208). -/
def pageRecord (page : Nat) (p : PageCopy) (key : Option (Nat × Nat)) : List Byte :=
  let imgs := (List.range 4).map p.image
  let lens := ((imgs.zipIdx).map fun x => x.1.length / 8 * 2 ^ (8 * x.2)).sum
  let head := withCrc (toBytes (2 + page * 2 ^ 16) 8 ++ toBytes lens 4) ++ toBytes p.poison 8
  let body := imgs.flatten
  match key with
  | none => head ++ body
  | some (k, nonce) =>
    let c := Config.gcmSeal k nonce head body
    head ++ (c ++ List.replicate (body.length + 16) 0).take (body.length + 16)

/-- The END frame (R207) over `count` bytes in `records` records with this running check. -/
def endFrame (aborted : Bool) (cause records count crc : Nat) : List Byte :=
  withCrc (toBytes (3 + flag aborted * 2 ^ 8 + cause * 2 ^ 16) 8 ++ toBytes records 8 ++ toBytes count 8 ++
    toBytes (Nat.xor crc 0xFFFFFFFF) 4)

/-- A running CRC-32C over more bytes. -/
def crcMore (crc : Nat) (bs : List Byte) : Nat := bs.foldl (fun c b => crc32cByte (Nat.xor c b.toNat) 8) crc

/-- Bytes join a slot's stream. -/
def State.emitStream (s : State) (n : Nat) (bs : List Byte) : State :=
  let s := s.onSlot n fun x => { x with stream := x.stream ++ bs, crc := crcMore x.crc bs }
  (s.occur Ev.streamUnits 0 (bs.length / 64) none).slotUse n

/-- A page record joins the stream, unless the page has nothing to show (R193). -/
def State.emitRecord (s : State) (n page : Nat) (p : PageCopy) : State :=
  if p.hasContents then
    let x := s.slot n
    let sealed := s.onAt MAP_CLAIMATTR.SEALED (s.rdAt SNP_ARM.CLAIM n)
    let key := if sealed then some ((s.exportKey (x.keyRef.getD 0)).getD 0, s.rdAt SNP_STREAMID.STREAMID n % 2 ^ 32 * 2 ^ 64 + x.records + 1)
      else none
    let r := pageRecord page p key
    let s := s.onSlot n fun x => { x with
      records := x.records + 1, recordEnds := x.recordEnds ++ [(page, x.base + x.stream.length + r.length)] }
    (s.emitStream n r).event Ev.pageRecords 0
  else s

/-- Stream bytes have left for the target (R197, R218). -/
def State.delivered (s : State) (n k : Nat) : State :=
  let x := s.slot n
  let out := x.recordEnds.filter fun r => decide (r.2 ≤ x.base + k)
  let s := s.setSlot n { x with
    stream := x.stream.drop k, base := x.base + k, crcOut := crcMore x.crcOut (x.stream.take k)
    recordEnds := x.recordEnds.filter fun r => decide (x.base + k < r.2), recordsOut := x.recordsOut + out.length }
  (s.wrAt SNP_BYTES.BYTES n (min (s.rdAt SNP_BYTES.BYTES n + k) (2 ^ 48 - 1))).slotUse n

/-- Links of a mask that are up. -/
def State.maskUp (s : State) (mask : Nat) : List Nat :=
  (List.range 8).filter fun l => bit mask l && s.onAt LNK_LSTAT.UP l

/-- Write bytes at the front of the queued buffers, spread in 4 KiB chunks over the links of each mask (R199). A buffer that
becomes full completes with OK; `last` completes the buffer in which the bytes end. Gives the result. -/
def State.fillBuffers (s : State) (n : Nat) (bs : List Byte) (last : Option (Nat × Bool)) : Nat → State
  | 0 => s
  | fuel + 1 =>
    match (s.slot n).buffers with
    | [] => s
    | b :: rest =>
      let take := min (b.len - b.filled) bs.length
      let now := bs.take take
      let links := s.maskUp b.mask
      let link := links.getD ((b.addr + b.filled) / 4096 % max links.length 1) 0
      let s := if take = 0 then s else s.send (.dmaWrite link (s.slotSlice n) (b.addr + b.filled) now)
      let b' := { b with filled := b.filled + take }
      let left := bs.drop take
      if left.isEmpty then
        match last with
        | some (st, keep) =>
          -- the END frame ends in this buffer
          let s := (links.foldl (fun s l => s.send (.zeroRead l)) s).finishDesc b.queue b.index st b'.filled
          s.onSlot n fun x => { x with buffers := if keep then b' :: rest else rest }
        | none =>
          if b'.filled = b.len then
            let s := (links.foldl (fun s l => s.send (.zeroRead l)) s).finishDesc b.queue b.index stOk b.len
            s.onSlot n fun x => { x with buffers := rest }
          else s.onSlot n fun x => { x with buffers := b' :: rest }
      else
        let s := (links.foldl (fun s l => s.send (.zeroRead l)) s).finishDesc b.queue b.index stOk b.len
        (s.onSlot n fun x => { x with buffers := rest }).fillBuffers n left last fuel

/-- Send staged bytes of a PARTNER slot over Contrail in packets of at most 1,024 bytes (R201, R412). -/
def State.pumpPartner (s : State) (n : Nat) : Nat → State
  | 0 => s
  | fuel + 1 =>
    let x := s.slot n
    if !s.linkUp || x.stream.isEmpty then s
    else
      let bs := x.stream.take 1024
      let p : Packet := .stream (s.rdAt SNP_STATUS.PEER n) x.base bs
      if s.canSend p then ((s.queuePacket p).delivered n bs.length).pumpPartner n fuel else s

/-- PARTNER slots send what Contrail takes; one whose stream has ended and left is DONE (R187, R201). -/
def State.pumpSlots (s : State) : State :=
  (s.snp.slots.map Prod.fst).foldl (fun s n =>
    if s.rdAt SNP_ARM.TARGET n == targetPartner && !(s.slot n).receive && !s.onAt SNP_STATUS.PAUSED n &&
        s.pairState != pairFenced &&
        (s.slotState n == slotPreserving || s.slotState n == slotDraining) then
      let s := s.pumpPartner n (ceilDiv (s.slot n).stream.length 1024)
      if s.slotState n == slotDraining && (s.slot n).ended && (s.slot n).stream.isEmpty then
        s.wrAt SNP_STATUS.STATE n slotDone
      else s
    else s) s

/-! ### Captures (R194, R195) -/

/-- The cursor's target takes its next record (R198, R201, R202). -/
def State.targetTakes (s : State) (n : Nat) : Bool :=
  let x := s.slot n
  let t := s.rdAt SNP_ARM.TARGET n
  if t = targetShadow then true
  else
    let direct := if t = targetHost then decide (x.stream.length < x.room) else s.linkUp && x.stream.isEmpty
    direct || decide (s.stagedBytes n < min (s.rdAt SNP_RESERVE.STAGEMAX n) (s.rdAt SNP_RESERVE.SIZE n) * 2 ^ 21)

/-- The cursor of a later slot waits for the earlier slot's record of its page to leave (R209). -/
def State.behindEarlier (s : State) (n page : Nat) : Bool :=
  (s.slotsOf (s.rdAt SNP_ARM.CLAIM n)).any fun m =>
    m != n && s.slotState m == slotDraining && ((s.slot m).recordEnds.any fun r => decide (r.1 ≤ page))

/-- The eager cursor of a slot reads the page at its position: it is neither stopped nor waiting (R193; the reads of one page
at a time stand for the up to 16 in flight: DESIGN CHOICE). -/
def State.cursorRuns (s : State) (n : Nat) : Bool :=
  s.slotState n == slotPreserving && !s.onAt SNP_STATUS.PAUSED n && s.pairState != pairFenced && s.targetTakes n &&
    !s.behindEarlier n (s.rdAt SNP_STATUS.CURSOR n)

/-- The cursor is reading this page (R194). -/
def State.cursorReads (s : State) (n dpn : Nat) : Bool :=
  s.cursorRuns n && s.claimBase (s.rdAt SNP_ARM.CLAIM n) / 4096 + s.rdAt SNP_STATUS.CURSOR n == dpn

/-- Hold a change to a page of a slot. -/
def State.holdChange (s : State) (n dpn : Nat) (h : HeldChange) : State :=
  s.onSlot n fun x =>
    let old := x.held.get [] dpn
    if old.contains h then x
    else { x with held := x.held.put dpn (old ++ [h]), since := x.since.put dpn (x.since.get s.time dpn) }

/-- A capture of a page runs or waits for a tracker. -/
def State.capturing (s : State) (n dpn : Nat) : Bool :=
  s.snp.tracking.contains (n, dpn) || (s.slot n).noTracker.contains dpn

/-- Release the held changes of a page: requests are retried, the others are applied by the caller's settling. -/
def State.releaseHeld (s : State) (n dpn : Nat) : State :=
  let hs := (s.slot n).held.get [] dpn
  let s := s.onSlot n fun x => { x with held := x.held.erase dpn, since := x.since.erase dpn }
  { s with snp := { s.snp with released := s.snp.released ++ hs } }

/-- The SNAP_EXPORTs queued on a slot complete with a status and RESULT 0. -/
def State.dropBuffers (s : State) (n st : Nat) : State :=
  let bs := (s.slot n).buffers
  (bs.foldl (fun s b => s.finishDesc b.queue b.index st 0) s).onSlot n fun x => { x with buffers := [] }

/-- Abort of a slot, steps 1 to 4 of R210: holds end, END is written where the target can take it, exports complete, and
captures and staged records go. -/
def State.cutStream (s : State) (n cause : Nat) : State :=
  let s := ((s.slot n).held.map Prod.fst).foldl (fun s p => s.releaseHeld n p) s
  let x := s.slot n
  let started := decide (0 < x.base) || s.slotState n == slotPreserving || s.slotState n == slotDraining
  let fin := endFrame true cause x.recordsOut x.base x.crcOut
  let s := match x.buffers with
    | [] => s
    | b :: _ =>
      if started && decide (32 ≤ x.room) && !(s.maskUp b.mask).isEmpty && s.rdAt SNP_ARM.TARGET n == targetHost then
        s.fillBuffers n fin (some (stSnapAborted, false)) 16
      else s
  let s := if started && !x.receive && s.rdAt SNP_ARM.TARGET n == targetPartner && s.linkUp then
      s.queuePacket (.stream (s.rdAt SNP_STATUS.PEER n) x.base fin)
    else s
  let s := s.dropBuffers n stSnapAborted
  let s := { s with snp := { s.snp with tracking := s.snp.tracking.filter fun t => t.1 != n } }
  let s := s.onSlot n fun x => { x with
    captures := [], captureSize := [], noTracker := [], stream := [], recordEnds := [], pass := none }
  (s.wrAt SNP_STATUS.ABORTCAUSE n cause).inc SNP_ERRCNT.ABORTS

/-- Abort a slot (R210): its marks are cleared by a pass that ends later. -/
def State.abortSlot (s : State) (n cause : Nat) : State :=
  ((s.cutStream n cause).wrAt SNP_STATUS.STATE n slotAborting).slotUse n

/-- Start a capture of a page, or let it wait for one of 64 trackers; a reserve that cannot take it aborts the slot
(R195 steps 1 to 3). -/
def State.takeTracker (s : State) (n dpn : Nat) : State :=
  if 64 ≤ s.snp.tracking.length then
    s.onSlot n fun x => { x with noTracker := if x.noTracker.contains dpn then x.noTracker else x.noTracker ++ [dpn] }
  else
    let e := s.entry dpn
    let g := match e.loc with
      | .run _ _ _ _ _ => e.loc.granules + (s.dirtyLines dpn).length
      | _ => 64
    if s.captureFits n g then
      let s := { s with snp := { s.snp with tracking := s.snp.tracking ++ [(n, dpn)] } }
      s.onSlot n fun x => { x with
        captureSize := x.captureSize.put (dpn - s.claimBase (s.rdAt SNP_ARM.CLAIM n) / 4096) g
        noTracker := x.noTracker.filter fun p => p != dpn }
    else s.abortSlot n abortReserve

/-- A change reaches a page: true where the page must be preserved first, and the change is then held (R194). -/
def State.preserve (s : State) (dpn : Nat) (h : HeldChange) : Bool × State :=
  let e := s.entry dpn
  match s.slotIn e.claim slotPreserving with
  | none => (false, s)
  | some n =>
    if !e.snap then (false, s)
    else if s.cursorReads n dpn || s.capturing n dpn then (true, s.holdChange n dpn h)
    else
      let s := (s.holdChange n dpn h).takeTracker n dpn
      -- an abort for want of reserve has released the change again
      (s.slotState n == slotPreserving, s)

/-! ### Release (R211) -/

/-- Reserve charge of a slot while it is not FREE (R197). -/
def State.slotCharge (s : State) (n : Nat) : Nat := s.reserveBytes n

/-- The export key of a slot that becomes FREE is dropped, unless it was fetched (R545). -/
def State.dropSlotKey (s : State) (n : Nat) : State :=
  { s with sec := { s.sec with created := s.sec.created.filter fun k => k.2.slot != n || (k.2.fetched && !k.2.dropped) } }

/-- Tell the partner that a slot of a PARTNER export ends on this member: the receive slot is freed (R413). -/
def State.closePeer (s : State) (n cause : Nat) : State :=
  if (s.slot n).receive then s.ctrl (.rxClose (s.slot n).op n cause)
  else if s.rdAt SNP_ARM.TARGET n = targetPartner then
    s.ctrl (.rxClose (s.rdAt SNP_STREAMID.STREAMID n % 2 ^ 32) (s.rdAt SNP_STATUS.PEER n) cause)
  else s

/-- A slot becomes FREE, and its charge leaves the admission sum. -/
def State.dropSlot (s : State) (n : Nat) : State :=
  let s := s.dropSlotKey n
  let s := s.dropBuffers n stSnapAborted
  let s := (s.setSlot n {}).wrAt SNP_STATUS.STATE n slotFree
  let s := { s with snp := { s.snp with tracking := s.snp.tracking.filter fun t => t.1 != n } }
  let s := (s.putAt SNP_ARM.ARM n false).wrAt SNP_STATUS.CURSOR n 0
  (s.wr MAP_CAPCHARGED.BYTES (s.rd MAP_CAPCHARGED.BYTES - s.slotCharge n)).accounts

/-- A slot is released: the partner's half of a PARTNER export is closed, unless its abort has closed it already. -/
def State.freeSlot (s : State) (n : Nat) : State :=
  (if s.slotState n = slotAborted then s else s.closePeer n 0).dropSlot n

/-- Clear the marks of a claim's pages (R210 step 5). -/
def State.clearMarks (s : State) (c : Nat) : State :=
  (s.pagesOf c).foldl (fun s p => if (s.entry p).snap then s.setSnap p false else s) s

end Sys2Proof.Machine
end

