-- ==== Sys2Proof/Machine/Serve.lean ====
section
/-! DEFINITION. Serving host requests and the other agents' accesses to pages: routing (R30–R33), answers (R23, R32, R36),
the wait stages of R37, reads and writes through Cirrus and the page's form (R92, R98), backing a page (R61, R62, R664),
making it UNBACKED (R76), FREEZE entry (R240, R663), and the settling of what a command has made ready. -/

namespace Sys2Proof.Machine

/-! ### Classes and outcomes (R49, R604) -/

/-- The request is a read. -/
def isRead : MemOp → Bool
  | .rdNC | .rdS | .rdE => true
  | .wr _ | .evict => false

/-- The request is a write. -/
def isWrite : MemOp → Bool
  | .wr _ => true
  | _ => false

/-- OPCLASS of R49: read, full write, partial write, other. -/
def opClass (op : MemOp) (mask : ByteMask) : Nat :=
  if isRead op then 0 else if !isWrite op then 3 else if mask = ByteMask.full then 1 else 2

/-- OUTCOME codes of R604. -/
def outHit : Nat := 0x0
def outBuffer : Nat := 0x1
def outStratus : Nat := 0x2
def outNimbus : Nat := 0x3
def outRaw : Nat := 0x4
def outUnbacked : Nat := 0x5
def outPoison : Nat := 0x6
def outRefused : Nat := 0x7
def outWrite : Nat := 0x8
def outMirrored : Nat := 0x9
def outExpired : Nat := 0xA
def outFetched : Nat := 0xB

/-- CLK_CORE cycles in `t` ticks of 2.5 ns (R499: 2.4 GHz). -/
def coreCycles (t : Nat) : Nat := 6 * t

/-- The sample record of a request's answer (R604). -/
def State.sampleOf (s : State) (r : OpenReq) (outcome cause : Nat) : Sample :=
  { ts := s.stampOf r.ts, dpaLine := r.dpaLine, opClass := opClass r.op r.mask, hdmDb := r.hdmDb, link := r.link, ld := r.ld
    slice := s.rdAt MAP_CLAIMATTR.SLICE r.claim, outcome := outcome, mapMiss := r.missed
    sealed := (s.entry (r.dpaLine / 64)).sealed, bi := r.biWait, stall := r.stalled
    latency := min (coreCycles (s.time - r.ts)) 0xFFFFFF, urgency := r.urgency, cause := cause, seq := 0 }

/-- A parity error in a page's map cache way discards the entry (R75). -/
def State.mapParity (s : State) (dpn : Nat) (bad : Bool) : State :=
  match bad, s.mapWay dpn with
  | true, some k => { s with map := { s.map with cache := s.map.cache.erase k } }.raise srcMapCachePar
  | _, _ => s

/-- Data that goes with a poison mark: the spec states no value for it, except that refused reads carry zeros (R32). -/
def State.poisonData (s : State) : Line × State :=
  let (n, s) := s.draw
  (BitVec.ofNat 512 n, s)

/-- Send a request's answer, unless it has gone already (R23, R36, R39), with its counts and its sample. -/
def State.respond (s : State) (r : OpenReq) (data : Line) (poison : Bool) (outcome cause : Nat) : State :=
  if r.answered then s
  else
    let owner := some (s.rdAt MAP_CLAIMATTR.SLICE r.claim)
    let lat := coreCycles (s.time - r.ts)
    let s := match opClass r.op r.mask with
      | 0 => (s.occur Ev.reads r.link 1 owner).occur Ev.readLatency r.link lat owner
      | 1 => (s.occur Ev.fullWrites r.link 1 owner).occur Ev.writeLatency r.link lat owner
      | 2 => (s.occur Ev.partialWrites r.link 1 owner).occur Ev.writeLatency r.link lat owner
      | _ => s
    let s := if isRead r.op then s.send (.memData r.link r.ld r.tag data poison r.granted r.urgency)
      else s.send (.memDone r.link r.ld r.tag r.urgency)
    s.sample (s.sampleOf r outcome cause) r.sampled

/-- A request is over. -/
def State.removeReq (s : State) (id : Nat) : State :=
  { s with reqs := s.reqs.filter fun r => r.id != id }

/-- A request is answered and over; its grant starts (R331). -/
def State.complete (s : State) (r : OpenReq) (data : Line) (poison : Bool) (outcome : Nat) : State :=
  let s := s.respond r data poison outcome 0
  ((if r.answered then s else s.granted r).removeReq r.id).hostStatus r.link

/-- A read is answered with poison and over. -/
def State.completePoison (s : State) (r : OpenReq) : State :=
  let (d, s) := s.poisonData
  s.complete r d true outPoison

/-- A request waits at a stage (R37). Waits for a switch, a capture or a wake are noted for its sample. -/
def State.waitAt (s : State) (id : Nat) (st : Stage) : State :=
  s.setReq id fun r => { r with
    stage := st
    stalled := r.stalled || st == .switch || st == .capture || st == .wake
    missed := r.missed || st == .walk }

/-! ### Routing (R26, R30–R33, R437) -/

/-- Key of decoder `k` of an LD. -/
def decoderKey (ld k : Nat) : Nat := ld * 32 + k

/-- Translation of an HPA by a decoder: the offset without the interleave positions (PRESUMED: the standard's HDM
decoder). -/
def Decoder.translate (d : Decoder) (hpa : Nat) : Nat :=
  let off := hpa - d.base
  d.dpaBase + off / (d.gran * d.ways) * d.gran + off % d.gran

/-- The committed decoder of an LD that matches an HPA. -/
def State.decoderOf (s : State) (ld hpa : Nat) : Option Decoder :=
  ((List.range 32).filterMap fun k => s.decoders.find (decoderKey ld k)).find? fun d =>
    d.committed && decide (d.base ≤ hpa) && decide (hpa < d.base + d.size)

/-- Refusal reasons of R33. -/
def refNoDecoder : Nat := 0
def refNoClaim : Nat := 1
def refNoGrant : Nat := 2
def refReadOnly : Nat := 3
def refSharedHdmH : Nat := 4
def refSlice : Nat := 5
def refInsecure : Nat := 6
def refDisabled : Nat := 7

/-- What the router decides. -/
inductive Routed where
  | refused (reason dpaLine : Nat)
  | served (dpa claim : Nat) (hdmDb : Bool)
  deriving DecidableEq, Repr

/-- The checks of the router, in their order. -/
def State.route (s : State) (link number hpa : Nat) (write : Bool) : Routed :=
  if !s.on SYS_CTL.DEV_ENABLE || s.pairState == pairFenced then .refused refDisabled 0
  else if s.onAt LNK_IDECTL.REQUIRE link && !((s.link link).ideMem.state == .secure) then .refused refInsecure 0
  else
    match (s.ldIndex link number).bind fun ld => (s.decoderOf ld hpa).map fun d => (ld, d) with
    | none => .refused refNoDecoder 0
    | some (ld, d) =>
      let dpa := d.translate hpa
      if !s.homeFor dpa then .refused refNoDecoder 0
      else
        match s.claimOf dpa with
        | none => .refused refNoClaim (dpa / 64)
        | some c =>
          if !s.claimServes c then .refused refNoClaim (dpa / 64)
          else
            let slice := s.rdAt MAP_CLAIMATTR.SLICE c
            if !s.onAt SLC_CTL.ENABLE slice || s.onAt SLC_STAT.RESETTING slice then .refused refSlice (dpa / 64)
            else if s.grant c ld = grantNone then .refused refNoGrant (dpa / 64)
            else if write && s.grant c ld == grantRead then .refused refReadOnly (dpa / 64)
            else if s.onAt MAP_CLAIMATTR.SHARED c && !d.hdmDb then .refused refSharedHdmH (dpa / 64)
            else .served dpa c d.hdmDb

/-- A refusal (R32): counted, logged once, answered with zeros marked poisoned, or completed and discarded. -/
def State.refuse (s : State) (link number tag cls reason dpaLine : Nat) (drawn : Bool) : State :=
  let l := s.link link
  let s := (s.setLink link { l with refusals := l.refusals + 1 }).event Ev.refusals link
  let s := if s.on RTR_DENYLOG.VALID then s
    else
      ((((((s.wr RTR_DENYLOG.TS s.stamp).wr RTR_DENYLOG.DPALINE dpaLine).wr RTR_DENYLOG.LINK link).wr RTR_DENYLOG.LD
        number).wr RTR_DENYLOG.OPCLASS cls).wr RTR_DENYLOG.CAUSE reason).put RTR_DENYLOG.VALID true
  let u := s.urgency link
  let s := if cls = 0 then s.send (.memData link number tag 0 true 0 u) else s.send (.memDone link number tag u)
  let slice := match s.claimOf (dpaLine * 64) with
    | some c => if reason = refNoDecoder ∨ reason = refNoClaim then 0 else s.rdAt MAP_CLAIMATTR.SLICE c
    | none => 0
  s.sample { ts := s.stamp, dpaLine := dpaLine, opClass := cls, hdmDb := false, link := link, ld := number
             slice := slice, outcome := outRefused, mapMiss := false, sealed := false, bi := false, stall := false
             latency := 0, urgency := u, cause := 0, seq := 0 } drawn

/-! ### Power (R549, R556) -/

/-- The power domain is on. -/
def State.domainOn (s : State) (d : Nat) : Bool := s.rdAt PWR_DOMSTAT.STATE d == 0

/-- The device is in CLEAR. -/
def State.clearState (s : State) : Bool := s.rd PWR_STAT.STATE == 0

def domCmp : Nat := 9
def domDcmp : Nat := 10
def domProt : Nat := 11

/-- An access meets a domain that is gated or off: it wakes on demand (R556). -/
def State.wakeDomain (s : State) (d : Nat) : State :=
  if s.domainOn d || s.onAt PWR_DOMSTAT.WAKING d then s
  else ((s.putAt PWR_DOMSTAT.WAKING d true).incAt PWR_DOMSTAT.WAKES d).event Ev.wakes d

/-! ### Backing a page (R61, R62, R664) -/

/-- Outcome of an allocation. -/
inductive Backed where
  | ok
  | noSpace
  | noRoom
  | noCounter
  deriving DecidableEq, Repr

/-- The entry of a newly backed page of a claim (R61, R77, R190, R307): it takes the claim's seal and the current veil
generation. -/
def State.backedEntry (s : State) (dpn : Nat) (st : PageState) (loc : Location) : MapEntry :=
  let e := s.entry dpn
  let c := (s.claimOf (dpn * 4096)).getD e.claim
  { (freshEntry c).bump with
    state := st, snap := s.marking c, sealed := s.onAt MAP_CLAIMATTR.SEALED c, keygen := s.rd SEC_VEILSTAT.GEN
    keyid := s.claimKey c, version := (e.version + 1) % 256, loc := loc }

/-- Back an UNBACKED page with a zero-filled Stratus frame (R61, R229). -/
def State.backPage (s : State) (dpn : Nat) : Backed × State :=
  let c := (s.claimOf (dpn * 4096)).getD 0
  match s.drawSpace c 4096 with
  | none => (.noSpace, s.event Ev.allocFailures 0)
  | some s1 =>
    match s1.takeFrame (.page dpn) with
    | none => (.noRoom, s)
    | some (mfn, s2) =>
      let s3 := s2.updateEntry dpn (s.backedEntry dpn .stratus (.frame mfn))
      match s3.protectWrite dpn (List.range 64) with
      | none => (.noCounter, s)
      | some s4 => (.ok, s4.event Ev.allocations 0)

/-- An allocation starts to wait for physical room (R664). -/
def State.startRoomWait (s : State) : State :=
  let s := (s.inc NMB_ERRCNT.HEAPWAIT).event Ev.heapWaits 0
  ({ s with nmb := { s.nmb with waiting := s.nmb.waiting + 1 } }).heapStatus

/-- It has found room. -/
def State.endRoomWait (s : State) : State :=
  ({ s with nmb := { s.nmb with waiting := s.nmb.waiting - 1 } }).heapStatus

/-! ### UNBACKED and LOST pages (R74, R76, R265) -/

/-- MAP_UPDATE of a backed page to UNBACKED: its Cirrus lines and buffered writebacks go, its space returns, its poison
entries are removed, and the partner is told (R76, R265, R444). -/
def State.unback (s : State) (dpn : Nat) : State :=
  let e := s.entry dpn
  let s := (s.dropLines (dpn * 64) 64).freeLocation e.loc
  let s := if e.state = .lost then s else s.returnSpace e.claim e.loc.bytes
  let s := s.unpoisonRange (dpn * 64) 64
  let s := { s with sec := { s.sec with trackers := s.sec.trackers.filter fun t => t.dpn != dpn
                                        waiting := s.sec.waiting.filter fun t => t.dpn != dpn } }
  let s := s.updateEntry dpn { freshEntry e.claim with version := (e.version + 1) % 256 }
  (s.leaveFilter dpn).mirrorUnback dpn 1

/-- A MAP_UPDATE met a page IN_FLIGHT: it returns BUSY, and the move aborts (R76, R142). -/
def State.bumpMove (s : State) (dpn : Nat) : State :=
  match s.move dpn with
  | some m => s.abortMove m true false 6
  | none => s

/-- A page that cannot be walked becomes LOST (R70, R74): its move is cancelled, its Cirrus lines are dropped, and its space
stays charged. -/
def State.loseEntry (s : State) (dpn version : Nat) (writable : Bool) : State :=
  let old := s.entry dpn
  let s := match s.move dpn with
    | some m => (((s.freeLocation m.dest).endMove dpn).pageStatus m.explicit dpn 5)
    | none => s
  let s := s.dropLines (dpn * 64) 64
  let c := (s.claimOf (dpn * 4096)).getD old.claim
  let e : MapEntry := { freshEntry c with state := .lost, version := version }
  let s := { s with map := { s.map with lostBytes := s.map.lostBytes.put dpn old.loc.bytes } }
  let s := if writable then s.writeCopies dpn e else s
  let s := (s.updateEntry dpn e).installMap dpn e (!writable)
  ((s.inc MAP_ERRCNT.LOST).flog dpn 0 flogLost 0).raise srcMapLost

/-! ### What a line's form needs -/

/-- Counter tree nodes cannot be reached: every channel that holds them is in FREEZE (R242; a model of nodes spread over
channels: DESIGN CHOICE). -/
def State.treeUnreachable (s : State) (dpn : Nat) : Bool :=
  (s.entry dpn).keyid != 0 && !(s.missing dpn).isEmpty && s.metaChannels.all fun c => !s.serving c

/-- The decode job of a block. -/
def State.blockJob (s : State) (dpn b : Nat) : Option (Nat × DecodeJob) :=
  s.nmb.jobs.find? fun j => j.2.dpn == dpn && j.2.block == b

/-- Start to fetch a block for a read (R169). -/
def State.fetchBlock (s : State) (dpn b req : Nat) : State :=
  match s.blockJob dpn b with
  | some _ => s
  | none =>
    let j : DecodeJob := ⟨dpn, b, none, some req⟩
    { s with nmb := { s.nmb with jobs := s.nmb.jobs.put s.nmb.nextJob j, nextJob := s.nmb.nextJob + 1 } }

/-- An earlier write to the line that is not applied yet and that later requests see (R36, R664). Reads do not wait for
writes that a capture holds (R194). -/
def State.earlierWrite (s : State) (r : OpenReq) : Option OpenReq :=
  s.reqs.find? fun q => decide (q.id < r.id) && q.dpaLine == r.dpaLine && isWrite q.op && !q.applied &&
    !(q.stage == .halo) && !(isRead r.op && q.stage == .capture)

/-- An earlier write to the page that a capture holds: later writes to the page queue behind it (R194). -/
def State.earlierHeld (s : State) (r : OpenReq) : Bool :=
  s.reqs.any fun q => decide (q.id < r.id) && q.dpaLine / 64 == r.dpaLine / 64 && q.stage == .capture

/-! ### Reads (R92, R97, R115, R241) -/

/-- A read whose line Cirrus cannot give goes to the page's form. -/
def State.readForm (s : State) (r : OpenReq) : State :=
  let dpn := r.dpaLine / 64
  match s.cached dpn with
  | none =>
    let s := if r.missed then s else s.claimEvent Ev.mapMisses 0 r.claim
    s.waitAt r.id .walk
  | some e =>
    let s := if r.missed then s else s.claimEvent Ev.mapHits 0 r.claim
    match e.state with
    | .unbacked => (s.heat dpn (s.policy PLC_HEATCFG.RD)).complete r 0 false outUnbacked
    | .lost => s.completePoison r
    | _ =>
      let switching := match s.move dpn with
        | some m => m.switching
        | none => false
      if switching then s.waitAt r.id .switch
      else
        let reachable := match s.locationChannel e.loc with
          | some c => s.serving c
          | none => true
        if !reachable || s.treeUnreachable dpn then
          match s.peerFetch ⟨r.dpaLine, some r.id, none⟩ with
          | (true, s) => s.waitAt r.id .room
          | (false, s) =>
            let c := (s.locationChannel e.loc).getD 0
            ((s.incAt DMC_ERRCNT.FRZPOISON c).event Ev.frzPoison c).completePoison r
        else if s.listed r.dpaLine then (s.heat dpn (s.policy PLC_HEATCFG.RD)).completePoison r
        else if s.breached dpn then s.completePoison r
        else if !(s.missing dpn).isEmpty then (s.event Ev.counterMisses 0).waitAt r.id .counters
        else if !s.domainOn domProt then (s.wakeDomain domProt).waitAt r.id .wake
        else
          let s := if e.sealed then (s.event Ev.counterHits 0).event Ev.sealedReads 0 else s
          match e.loc with
          | .run _ _ _ _ _ =>
            if e.loc.blockCount (r.dpaLine % 64 / 16) < 16 && !s.domainOn domDcmp then
              (s.wakeDomain domDcmp).waitAt r.id .wake
            else (s.fetchBlock dpn (r.dpaLine % 64 / 16) r.id).waitAt r.id .nimbus
          | _ =>
            let c := (s.locationChannel e.loc).getD 0
            (s.setReq r.id fun q => { q with chan := c }).waitAt r.id .dram

/-- A hit on a line that Cirrus holds whole. -/
def State.readHit (s : State) (r : OpenReq) (k : Nat) (x : Way) : State :=
  let s := ((s.touchWay k).touchExtra r.dpaLine).claimEvent Ev.cirHits 0 r.claim
  let s := s.heat (r.dpaLine / 64) (s.policy PLC_HEATCFG.RD)
  if x.poison then s.completePoison r else s.complete r x.data false outHit

/-- A read at its line's bank (R92, R115). -/
def State.readLine (s : State) (r : OpenReq) (f : AccessFind) : State :=
  let miss := fun (s : State) =>
    let s := (s.forgetExtra r.dpaLine).claimEvent Ev.cirMisses 0 r.claim
    match s.buffered r.dpaLine with
    | some w =>
      if w.bvm = ByteMask.full then
        let s := (s.heat (r.dpaLine / 64) (s.policy PLC_HEATCFG.RD)).claimEvent Ev.bufferHits 0 r.claim
        if w.poison then s.completePoison r else s.complete r w.data false outBuffer
      else s.readForm r
    | none => s.readForm r
  match s.cirWay r.dpaLine with
  | none => miss s
  | some k =>
    match s.checkWay k f.cirrus with
    | (.gone, s) => miss s
    | (.ok, s) =>
      match s.way k with
      | none => miss s
      | some x =>
        if x.state = .partly then (s.claimEvent Ev.mergeReads 0 r.claim).readForm r else s.readHit r k x

/-! ### Writes (R34, R61, R92, R194, R444–R446) -/

/-- A write has been applied: traces, mirror, and completion, which in sync mode waits for its MIRACK. -/
def State.writeApplied (s : State) (r : OpenReq) : State :=
  let dpn := r.dpaLine / 64
  let s := if r.poison then
      s.poisonLine r.dpaLine (if r.injected then .injected else .external) (s.linePlace r.dpaLine)
    else s
  let s := ((s.leaveFilter dpn).touchExtra r.dpaLine).heat dpn (s.policy PLC_HEATCFG.WR)
  let sync := s.syncWrites
  let s := s.mirror ⟨r.dpaLine, r.data, r.mask, r.poison⟩ (if sync then some r.id else none)
  if sync then
    if r.answered then (s.removeReq r.id).hostStatus r.link
    else (s.setReq r.id fun q => { q with applied := true }).waitAt r.id .mirror
  else s.complete r 0 false outWrite

/-- A write that is completed and whose data is discarded: a LOST page, or no space (R62, R69). -/
def State.writeDropped (s : State) (r : OpenReq) : State := s.complete r 0 false outWrite

/-- A write goes into Cirrus, or waits for a writeback buffer entry (R97). -/
def State.writeCirrus (s : State) (r : OpenReq) : State :=
  match s.cirWrite r.dpaLine r.data r.mask r.poison false .recent with
  | some s => s.writeApplied r
  | none => (s.event Ev.bufferWaits 0).waitAt r.id .dram

/-- A write whose page's entry is known. -/
def State.writePage (s : State) (r : OpenReq) (e : MapEntry) : State :=
  let dpn := r.dpaLine / 64
  match e.state with
  | .lost => (s.inc MAP_ERRCNT2.LOSTWR).writeDropped r
  | .unbacked =>
    match s.backPage dpn with
    | (.ok, s) => (if r.stage = .room then s.endRoomWait else s).writeCirrus r
    | (.noSpace, s) =>
      let s := if r.stage = .room then s.endRoomWait else s
      (s.dropTrace dpn (r.dpaLine % 64)).writeDropped r
    | (.noRoom, s) => (if r.stage = .room then s else s.startRoomWait).waitAt r.id .room
    | (.noCounter, s) => s.waitAt r.id .counters
  | _ =>
    match s.preserve dpn (.request r.id) with
    | (true, s) => s.waitAt r.id .capture
    | (false, s) => s.writeCirrus r

/-- A write at its line's bank. Only its tag is read there (R93, R105). -/
def State.writeLine (s : State) (r : OpenReq) (f : AccessFind) : State :=
  let dpn := r.dpaLine / 64
  if s.earlierHeld r then s.waitAt r.id .capture
  else if s.asyncHold then s.waitAt r.id .mirror
  else
    let s := match s.cirWay r.dpaLine with
      | some k => (s.checkWay k { f.cirrus with data := .clean }).2
      | none => s.forgetExtra r.dpaLine
    let known := (s.cirWay r.dpaLine).isSome && (s.slotIn r.claim slotPreserving).isNone
    match s.cached dpn with
    | none =>
      if known then s.writeCirrus r
      else
        let s := if r.missed then s else s.claimEvent Ev.mapMisses 0 r.claim
        s.waitAt r.id .walk
    | some e => (if r.missed then s else s.claimEvent Ev.mapHits 0 r.claim).writePage r e

/-! ### Attempts -/

/-- Serve a request that the home, if it has one, has let pass: at once, or up to the stage where it must wait. -/
def State.attempt (s : State) (id : Nat) (f : AccessFind) : State :=
  match s.req id with
  | none => s
  | some r =>
    if !s.clearState then s.waitAt id .wake
    else
      match s.earlierWrite r with
      | some q => s.waitAt id q.stage
      | none =>
        if isRead r.op then s.readLine r f
        else if isWrite r.op then s.writeLine r f
        else s.complete r 0 false outWrite

/-- A new request that the router serves: through the home when its claim is SHARED (R329), else to its bank. Links that
hold requests at their router input keep their order (R330). -/
def State.takeIn (s : State) (r : OpenReq) (f : AccessFind) : State :=
  let s := ({ s with reqs := s.reqs ++ [r], nextReq := s.nextReq + 1 }).hostStatus r.link
  let held := s.hal.atRouter.any fun id => match s.req id with
    | some q => q.link == r.link
    | none => false
  let s := s.mapParity (r.dpaLine / 64) f.mapParity
  if held then (s.waitAt r.id .halo).queueHome r.id false
  else if s.onAt MAP_CLAIMATTR.SHARED r.claim then (s.dirError r.dpaLine f.halo).arriveHome r
  else s.attempt r.id f

/-- A waiting request may go on: what its stage waits for may have happened. -/
def State.mayRetry (s : State) (r : OpenReq) : Bool :=
  let dpn := r.dpaLine / 64
  let away := match s.locationChannel (s.entry dpn).loc with
    | some c => !s.serving c
    | none => true
  match r.stage with
  | .walk => (s.cached dpn).isSome
  | .room => !((s.pair.fetches ++ s.pair.fetchQueue).any fun g => g.req == some r.id)
  | .capture | .wake | .switch => true
  | .mirror => !r.applied
  | .dram => !isRead r.op || away
  | .nimbus => away || (s.blockJob dpn (r.dpaLine % 64 / 16)).isNone
  | .counters => (s.missing dpn).isEmpty
  | .halo => false

/-- The requests by priority, highest first, and those of one priority in arrival order (R391). -/
def State.byPriority (s : State) : List Nat :=
  let at_ := fun (p : Nat) => (s.reqs.filter fun r => min (max r.urgency r.prio) 3 == p).map fun r => r.id
  at_ 3 ++ at_ 2 ++ at_ 1 ++ at_ 0

/-- Retry the waiting requests in the order of R391. -/
def State.retry (s : State) : State :=
  s.byPriority.foldl (fun s id =>
    match s.req id with
    | some r => if s.mayRetry r then s.attempt id {} else s
    | none => s) s

/-- Serve the requests that the home has finished with, in order. -/
def State.serveReady (s : State) : State :=
  s.hal.ready.foldl (fun s id => s.attempt id {}) { s with hal := { s.hal with ready := [] } }

/-! ### Changes from the partner (R92, R192, R415, R452) -/

/-- Apply a line from the partner, as a full or partial write inserted as next victim; a page that must be preserved holds
it. A line that no space can be drawn for is lost with the trace of R62. -/
def State.applyMirror (s : State) (l : MirrorLine) (resync : Bool) : State :=
  let dpn := l.line / 64
  let e := s.entry dpn
  match e.state, s.claimOf (dpn * 4096) with
  | _, none => s
  | .lost, _ => s.inc MAP_ERRCNT2.LOSTWR
  | _, _ =>
    match s.preserve dpn (.mirror l resync) with
    | (true, s) => s
    | (false, s) =>
      let (b, s) := if e.state = .unbacked then s.backPage dpn else (Backed.ok, s)
      match b with
      | .noSpace => s.dropTrace dpn (l.line % 64)
      | .noRoom | .noCounter =>
        -- held as the oldest released change until room appears (R664)
        { s with snp := { s.snp with released := s.snp.released ++ [.mirror l resync] } }
      | .ok =>
        match s.cirWrite l.line l.data l.mask l.poison true .next with
        | none => { s with snp := { s.snp with released := s.snp.released ++ [.mirror l resync] } }
        | some s =>
          let s := if l.poison then s.poisonLine l.line .external (s.linePlace l.line) else s
          (s.leaveFilter dpn).heat dpn (s.policy PLC_HEATCFG.MIRWR)

/-- An engine's write through the DPA window (R471), made as a queue write: mirrored, and held where a page must be
preserved or the write has to wait (R194, R364, R444). -/
def State.engineWrite (s : State) (l : MirrorLine) : State :=
  let dpn := l.line / 64
  let wait := fun (s : State) => { s with snp := { s.snp with released := s.snp.released ++ [.engine l] } }
  let e := s.entry dpn
  match e.state, s.claimOf (dpn * 4096) with
  | _, none => s
  | .lost, _ => s.inc MAP_ERRCNT2.LOSTWR
  | _, _ =>
    if s.asyncHold then wait s
    else
      match s.preserve dpn (.engine l) with
      | (true, s) => s
      | (false, s) =>
        let (b, s) := if e.state = .unbacked then s.backPage dpn else (Backed.ok, s)
        match b with
        | .noSpace => s.dropTrace dpn (l.line % 64)
        | .noRoom | .noCounter => wait s
        | .ok =>
          match s.cirWrite l.line l.data l.mask l.poison false .recent with
          | none => wait s
          | some s => ((s.leaveFilter dpn).forgetExtra l.line).mirror l none

/-! ### MAP_UPDATE through a core's port (R76, R480) -/

/-- Core control register numbers of the map update port (R481). -/
def mupDpn : Nat := 0x080
def mupExpect : Nat := 0x088
def mupFields : Nat := 0x090
def mupLoc : Nat := 0x098
def mupResult : Nat := 0x0A8
/-- MUP_RESULT.CODE while the result has not arrived. -/
def busyPort : Nat := 7

/-- What a MAP_UPDATE carries (R76); `zenith` says that it was issued at H. -/
structure MapChange where
  dpn : Nat
  expect : Nat
  state : Nat
  sealed : Bool
  keygen : Nat
  keyid : Nat
  claim : Nat
  keep : Bool
  loc : Nat
  zenith : Bool
  deriving DecidableEq, Repr

/-- Core `n`. -/
def State.core (s : State) (n : Nat) : Core := (s.eng.cores.find n).getD {}

/-- Replace core `n`. -/
def State.setCore (s : State) (n : Nat) (c : Core) : State :=
  { s with eng := { s.eng with cores := s.eng.cores.put n c } }

/-- The update in a core's port registers (R481). -/
def Core.update (c : Core) : MapChange :=
  let f := (c.ctl.find mupFields).getD 0
  { dpn := bits ((c.ctl.find mupDpn).getD 0) 0 33, expect := bits ((c.ctl.find mupExpect).getD 0) 0 8
    state := bits f 0 4, sealed := bit f 4, keygen := bits f 5 1, keyid := bits f 6 10, claim := bits f 16 13
    keep := bit f 29, loc := (c.ctl.find mupLoc).getD 0, zenith := c.zenith }

/-- A transition that MAP_UPDATE may ask for (R70); a page may also keep its state. -/
def mayBecome : PageState → PageState → Bool
  | .unbacked, .stratus | .unbacked, .nimbus => true
  | .stratus, .unbacked | .nimbus, .unbacked | .lost, .unbacked => true
  | .unbacked, .unbacked | .stratus, .stratus | .nimbus, .nimbus => true
  | _, _ => false

/-- A location that no move brought is taken into use by a page. -/
def State.useLocation (s : State) (dpn : Nat) (l : Location) : State :=
  match l with
  | .nowhere => s
  | .frame mfn => { s with dram := { s.dram with frames := s.dram.frames.put mfn (.page dpn) } }
  | .run h c0 c1 c2 c3 =>
    match s.nmb.segments.find (h / 32768) with
    | none => s
    | some g => (s.setSegment (h / 32768) { g with live := g.live + (c0 + c1 + c2 + c3) }).heapStatus

/-- The new entry of a MAP_UPDATE replaces the old one. -/
def State.changeEntry (s : State) (u : MapChange) (st : PageState) (l : Location) : State :=
  let e := s.entry u.dpn
  if st = .unbacked ∧ e.state ≠ .unbacked then
    let s := if u.keep then (s.dropLines (u.dpn * 64) 64).mirrorUnback u.dpn 1 else s.unback u.dpn
    s.updateEntry u.dpn { freshEntry u.claim with
      version := (e.version + 1) % 256, sealed := u.sealed, keygen := u.keygen, keyid := u.keyid }
  else
    s.updateEntry u.dpn { e.bump with
      state := st, sealed := u.sealed, keygen := u.keygen, keyid := u.keyid, claim := u.claim, loc := l }

/-- The charge of a MAP_UPDATE: the new location is drawn and the old one returned (R60, R76); none where it cannot be
drawn. Nothing is charged for a location that stays, or under KEEP. -/
def State.rechargeEntry (s : State) (u : MapChange) (st : PageState) (l : Location) : Option State :=
  let e := s.entry u.dpn
  if u.keep || st == .unbacked || l == e.loc then some s
  else
    match s.drawSpace u.claim l.bytes with
    | none => none
    | some s =>
      let s := if e.loc = .nowhere then s else (s.freeLocation e.loc).returnSpace e.claim e.loc.bytes
      some (s.useLocation u.dpn l)

/-- MAP_UPDATE (R76): its result code, or none while a capture holds it (R194). -/
def State.mapUpdate (s : State) (u : MapChange) (h : HeldChange) : Option Nat × State :=
  let e := s.entry u.dpn
  if u.expect ≠ e.version then (some 1, s)
  else if e.state = .inFlight then (some 2, s.bumpMove u.dpn)
  else
    match (PageState.ofCode u.state).bind fun st => (decodeLocation st u.loc).map fun l => (st, l) with
    | none => (some 3, s)
    | some (st, l) =>
      if !mayBecome e.state st || s.claimOf (u.dpn * 4096) != some u.claim || (st != .unbacked && !s.locationOk l) then
        (some 3, s)
      else if !u.zenith && (u.sealed != e.sealed || u.keygen != e.keygen || u.keyid != e.keyid) then (some 4, s)
      else
        match s.rechargeEntry u st l with
        | none => (some 5, s.dropTrace u.dpn 0)
        | some s1 =>
          if st == .unbacked && e.state != .unbacked then
            match s.preserve u.dpn h with
            | (true, s) => (none, s)
            | (false, s) => (some 0, s.changeEntry u st l)
          else (some 0, s1.changeEntry u st l)

/-- Run the update of a core's port (R480): MUP_RESULT reads BUSY_PORT until it has a result. -/
def State.runPort (s : State) (n : Nat) : State :=
  let u := (s.core n).update
  let (code, s) := s.mapUpdate u (.port n)
  let c := s.core n
  let result := match code with
    | none => busyPort
    | some k => k + 2 ^ 8 * (s.entry u.dpn).version
  s.setCore n { c with ctl := c.ctl.put mupResult result }

/-- Apply the held changes that have been released; requests and descriptors are retried by their own rules. -/
def State.applyReleased (s : State) : State :=
  s.snp.released.foldl (fun s h =>
    match h with
    | .mirror l resync => s.applyMirror l resync
    | .update dpn => s.unback dpn
    | .engine l => s.engineWrite l
    | .port n => s.runPort n
    | .request _ | .descriptor _ _ => s) { s with snp := { s.snp with released := [] } }

/-- A MAP_UPDATE to UNBACKED: a page that must be preserved first holds it (R76, R194). -/
def State.askUnback (s : State) (dpn : Nat) : State :=
  match s.preserve dpn (.update dpn) with
  | (true, s) => s
  | (false, s) => s.unback dpn

/-! ### FREEZE (R64, R240, R276, R663) -/

/-- Free bytes of a channel that its freeze takes out of the shared pool (R64). -/
def State.frozenBytes (s : State) (c : Nat) : Nat := s.framesFree c * 4096

/-- Put a cause into FRZCAUSE and KEPT. -/
def State.setCause (s : State) (c cause : Nat) : State :=
  let s := (s.wrAt DMC_CHSTAT.FRZCAUSE c cause).raise (49 + 2 * c)
  if cause = causeCAPAR then s.putAt DMC_CHSTAT.KEPT c false else s

/-- Enter FREEZE (R240). -/
def State.enterFreeze (s : State) (c cause : Nat) : State :=
  let ch := s.chan c
  let cap : DiagCapture := ⟨s.stamp, ch.recent, ch.openRows, ch.ueLines⟩
  let ws := ch.writes
  let s := s.setChan c { ch with capture := some cap, writes := [], freezeDue := none
                                 selfRefresh := cause == causeTHERMAL, releaseWaits := false }
  let s := ((s.putAt DMC_CHSTAT.FROZEN c true).putAt DMC_CHSTAT.RELEASING c false).putAt DMC_CHSTAT.KEPT c true
  let s := s.setCause c cause
  let s := ws.foldl (fun s w => s.returnHeld ⟨w.dpaLine, w.data, ByteMask.full, w.poison, false, false⟩) s
  let s := (s.movesOn c).foldl (fun s m => s.abortMove m true true 6) s
  ({ s with map := { s.map with frozenOut := s.map.frozenOut.put c (s.frozenBytes c) } }).accounts

/-- A further cause reaches a frozen channel (R663). -/
def State.furtherCause (s : State) (c cause : Nat) : State :=
  let ch := s.chan c
  let s := s.setChan c { ch with
    freezeDue := none
    selfRefresh := ch.selfRefresh || (cause == causeTHERMAL && s.onAt DMC_CHSTAT.KEPT c) }
  if causeRank (s.rdAt DMC_CHSTAT.FRZCAUSE c) < causeRank cause then s.setCause c cause else s

/-- Carry out the freeze causes that this command noted. -/
def State.freezeAll (s : State) : State :=
  (List.range 16).foldl (fun s c =>
    match (s.chan c).freezeDue with
    | none => s
    | some cause =>
      if s.frozen c && !s.onAt DMC_CHSTAT.RELEASING c then s.furtherCause c cause else s.enterFreeze c cause) s

/-! ### Settling -/

/-- Ask the partner for the lines that a local cause has spoilt (R453). -/
def State.askRepairs (s : State) : State :=
  s.cir.repair.foldl (fun s r => (s.peerFetch ⟨r.1, none, r.2⟩).2) { s with cir := { s.cir with repair := [] } }

/-- A recovery of a breach of the claim runs. -/
def State.recovers (s : State) (c : Nat) : Bool :=
  (s.sec.whole.any fun e => s.rdAt SEC_KEYSTAT.CLAIM e.1 == c) ||
    (List.range 64).any fun r => s.onAt SEC_BREACH.VALID r && s.rdAt SEC_BREACH.PROGRESS r != 0 &&
      s.rdAt SEC_KEYSTAT.CLAIM (s.rdAt SEC_BREACH.KEYID r) == c

/-- A Zenith request is answered in its session (R543): OK, or CHECK_FAILED with its code. -/
def State.zenithEnd (s : State) (code check : Nat) : State :=
  s.send (.zenith code (if check = 0 then 0 else 5) check [])

/-- The request that runs for a slice, a seal enable by claim or a recovery by 8192 and its claim, is answered when it has ended
(R307, R311). -/
def State.answerRunning (s : State) (slice w : Nat) : State :=
  let ended := fun (s : State) => { s with mbx := { s.mbx with running := s.mbx.running.erase slice } }
  if w < 8192 then
    if s.sec.enabling.any fun e => e.2 == w then s
    else (ended s).zenithEnd 0x03 (if s.onAt MAP_CLAIMSTAT.SEAL_READY w then 0 else 0x83)
  else if s.recovers (w - 8192) then s
  else (ended s).zenithEnd 0x04 0

/-- Zenith requests that ended are answered. -/
def State.answerZenith (s : State) : State :=
  s.mbx.running.foldl (fun (s : State) e => s.answerRunning e.1 e.2) s

/-- What follows in the same step from what a command has done: freezes take effect, requests that may go on are served, released
changes are applied, packets that may go are sent, and Kamcon and Zenith requests whose result is known are answered. -/
def State.settle (s : State) : State :=
  (((s.freezeAll.serveReady).applyReleased.retry).serveReady.askRepairs).pumpSlots.sendMirack.flow.watchPeer.answerWaiting.answerZenith

/-- A command's next state. -/
def State.done (s : State) : Host.Outcome State Fault Refusal := .next s.settle

end Sys2Proof.Machine
end

