-- ==== Sys2Proof/Machine/ClaimCmds.lean ====
section
/-! DEFINITION. Claims as commands: commit, release and grants (R65, R66, R83, R323, R443), the map walk (R72–R74), the
audit (R78), and the wait for physical room (R664). -/

namespace Sys2Proof.Machine

/-! ### Commit (R65) -/

/-- Claims whose range is taken: committed or releasing (R51). -/
def State.taken (s : State) : List Nat := s.committed ++ s.releasing

/-- Sealed bytes that claims take (R302). -/
def State.sealedBytes (s : State) : Nat :=
  ((s.taken.filter fun c => s.onAt MAP_CLAIMATTR.SEALED c).map fun c => s.claimSize c).sum

/-- Bytes of a claim's leaves in one copy: 16 for each page (R68). -/
def State.leafBytes (s : State) (c : Nat) : Nat := s.claimSize c / 256

/-- The leaves fit the metadata area: those of each copy its channel (R247). -/
def State.leavesFit (s : State) (c : Nat) : Bool :=
  decide (s.leafBytes c ≤ s.framesFree (s.copyChannel .primary) * 4096) &&
    decide (s.leafBytes c ≤ s.framesFree (s.copyChannel .secondary) * 4096)

/-- The claim commit check (R65). `reserved` says that a Kamcon payload had a reserved attribute bit set (R537). -/
def State.claimCheck (s : State) (c : Nat) (reserved : Bool) : Nat :=
  let base := s.claimBase c
  let size := s.claimSize c
  let floor := s.rdAt MAP_CLAIMATTR.FLOOR c
  let on := fun f => s.onAt f c
  let clash := s.taken.any fun d =>
    d != c && decide (base < s.claimBase d + s.claimSize d) && decide (s.claimBase d < base + size)
  firstCode
    [(!s.on SYS_CTL.DEV_ENABLE, 0x2D), (on MAP_CLAIMSTAT.RELEASING, 0x20), (size == 0, 0x21),
     (decide (s.dpaCap < base + size), 0x22), (clash, 0x23),
     (floor == 0 || decide (8 < floor) || (!on MAP_CLAIMATTR.TYPE && floor != 8), 0x25),
     (!s.onAt SLC_CTL.ENABLE (s.rdAt MAP_CLAIMATTR.SLICE c), 0x26),
     ((on MAP_CLAIMATTR.SHARED && on MAP_CLAIMATTR.TYPE) || (on MAP_CLAIMATTR.SEAL_DENSE && !on MAP_CLAIMATTR.SEALED) ||
       reserved, 0x27),
     (s.grantsBad (s.rdAt MAP_CLAIMGRANT0.GRANTS c) (s.rdAt MAP_CLAIMGRANT1.GRANTS c) (on MAP_CLAIMATTR.SHARED), 0x2A),
     (on MAP_CLAIMATTR.SEALED && (decide (2 ^ 41 < s.sealedBytes + size) || s.freeKey.isNone), 0x28),
     (!s.leavesFit c, 0x29),
     (decide (s.rd MAP_CAPUSABLE.BYTES - s.rd MAP_CAPSTORMSIZE.BYTES < s.rd MAP_CAPCHARGED.BYTES + s.claimCharge c), 0x24)]

/-- Metadata of a copy grows or shrinks by the leaves of a claim. -/
def State.leafSpace (s : State) (c : Nat) (take : Bool) : State :=
  [Copy.primary, Copy.secondary].foldl (fun s k =>
    let n := s.copyChannel k
    let ch := s.chan n
    s.setChan n { ch with metaBytes := if take then ch.metaBytes + s.leafBytes c else ch.metaBytes - s.leafBytes c }) s

/-- A claim whose check passed is committed: its leaves are allocated, every page is UNBACKED, a SEALED one reserves a
KeyID (R65, R305). -/
def State.commitClaim (s : State) (c : Nat) : State :=
  let s := (s.putAt MAP_CLAIMATTR.COMMIT c true).wrAt MAP_CLAIMUSED.BYTES c 0
  let s := s.leafSpace c true
  let s := (s.wr MAP_CAPCHARGED.BYTES (s.rd MAP_CAPCHARGED.BYTES + s.claimCharge c)).accounts
  let s := match s.onAt MAP_CLAIMATTR.SEALED c, s.freeKey with
    | true, some k => s.setKey k keyReserved c
    | _, _ => s
  s.wr MAP_CHECK.CODE 0

/-- The member forwards claim commits and releases (R443). -/
def State.forwards (s : State) : Bool := s.pairState == pairMirrored || s.pairState == pairJoining

/-- Commit and release are refused while the partner is away (R443). -/
def State.claimsShut (s : State) : Bool := s.pairState == pairExposed || s.pairState == pairResync

/-- An operation goes to the partner; its result is awaited (R443). -/
def State.forward (s : State) (f : Forward) (m : CtrlMsg) : State :=
  ({ s with pair := { s.pair with fwd := s.pair.fwd ++ [f] } }.put PAR_STAT.FWD true).ctrl m

/-- The definition of a claim as CLAIMDEF carries it (R460): its base, its size and the word of MAP_CLAIMATTR. -/
def State.claimDefOf (s : State) (c : Nat) : CtrlMsg :=
  .claimDef c (s.rdAt MAP_CLAIMBASE.BASE c) (s.rdAt MAP_CLAIMSIZE.SIZE c)
    ((MAP_CLAIMATTR.TYPE :: [MAP_CLAIMATTR.FLOOR, MAP_CLAIMATTR.SHARED, MAP_CLAIMATTR.SEALED, MAP_CLAIMATTR.SEAL_DENSE,
      MAP_CLAIMATTR.PIN_ALLOWED, MAP_CLAIMATTR.SNAPSHOT_ALLOWED, MAP_CLAIMATTR.SLICE]).map fun f =>
        s.rdAt f c * 2 ^ f.lo).sum

/-- A write of 1 to COMMIT (R65, R66, R443). -/
def State.askCommit (s : State) (c : Nat) (reserved : Bool) : State :=
  if s.onAt MAP_CLAIMATTR.COMMIT c then s
  else if s.claimsShut then s.wr MAP_CHECK.CODE 0xC8
  else if s.claimCheck c reserved ≠ 0 then s.wr MAP_CHECK.CODE (s.claimCheck c reserved)
  else if s.forwards then s.forward (.commit c) (s.claimDefOf c)
  else s.commitClaim c

/-- Fields of MAP_CLAIMATTR (R82). -/
def claimAttr : List Fld :=
  [MAP_CLAIMATTR.TYPE, MAP_CLAIMATTR.FLOOR, MAP_CLAIMATTR.SHARED, MAP_CLAIMATTR.SEALED, MAP_CLAIMATTR.SEAL_DENSE,
    MAP_CLAIMATTR.PIN_ALLOWED, MAP_CLAIMATTR.SNAPSHOT_ALLOWED, MAP_CLAIMATTR.SLICE]

/-- MAP_CLAIM_COMMIT (R65): `v` is written to MAP_CLAIMATTR with COMMIT 1; the other fields are stored first (R625). -/
def execMapClaimCommit (p : Path) (v : Nat) (s : State) : Host.Outcome State Fault Refusal :=
  let c := s.rdAt MAP_CLAIMSEL.CLAIM (pathCopy p)
  ((s.storeFields claimAttr c v).askCommit c false).done

/-! ### Release (R66) -/

/-- An open request of a claim that leaves is refused as its later requests are (R66; DEDUCED for requests already
decoded). Writes that are applied only wait for their acknowledgement and stay. -/
def State.refuseOpen (s : State) (r : OpenReq) : State :=
  if r.applied then s
  else
    let s := if r.answered then s
      else s.refuse r.link r.ld r.tag (opClass r.op r.mask) refNoClaim r.dpaLine r.sampled
    let s := { s with hal := { s.hal with waitQ := s.hal.waitQ.filter fun w => w.1 != r.id
                                          atRouter := s.hal.atRouter.filter fun w => w != r.id
                                          ready := s.hal.ready.filter fun w => w != r.id } }
    (s.removeReq r.id).hostStatus r.link

/-- The KeyID of a released claim: a RESERVED one is FREE at once, an ACTIVE one retires (R305). -/
def State.releaseKeys (s : State) (c : Nat) : State :=
  let s := (s.keysOf c keyReserved).foldl (fun s k => s.setKey k keyFree 0) s
  (s.keysOf c keyActive).foldl (fun s k => s.setKey k keyRetiring c) s

/-- Placement forgets the pages of a claim: chosen moves, candidates and the filter; running moves abort, uncounted
(R133, R142). -/
def State.dropMoves (s : State) (c : Nat) : State :=
  let mine := fun (d : Nat) => s.inClaim c (d * 4096)
  let p := s.plc
  let moves := p.moves.filter fun m => mine m.dpn
  let s := { s with plc := { p with
    promo := p.promo.filter fun e => !mine e.1, promoOld := p.promoOld.filter fun e => !mine e.1
    demo := p.demo.filter fun d => !mine d, demoOld := p.demoOld.filter fun d => !mine d
    chosen := p.chosen.filter fun m => !mine m.dpn, filter := p.filter.filter fun e => !mine e.1 } }
  moves.foldl (fun s m => s.abortMove m false false stRange) s

/-- Release starts (R66 steps 1 and 2). A SHARED claim sends BISnpInv for every tracked line (R338). -/
def State.startRelease (s : State) (c : Nat) : State :=
  let lines := s.claimSize c / 64
  let s := ((s.wr MAP_CHECK.CODE 0).putAt MAP_CLAIMATTR.COMMIT c false).putAt MAP_CLAIMSTAT.RELEASING c true
  let s := s.putAt MAP_CLAIMSTAT.SEAL_READY c false
  let s := (s.reqs.filter fun r => r.claim == c).foldl State.refuseOpen s
  let s := (s.dropLines (s.claimBase c / 64) lines).dropMoves c
  let s := { s with snp := { s.snp with clearing := s.snp.clearing.remove c } }
  let s := s.releaseKeys c
  if s.onAt MAP_CLAIMATTR.SHARED c then (s.sweepClaim c .release fun e => (e.holders, true)).revoking else s

/-- The check of a release, and its start where it passes (R66, R443). -/
def State.askRelease (s : State) (c : Nat) : State :=
  if !s.onAt MAP_CLAIMATTR.COMMIT c then s
  else if s.claimsShut then s.wr MAP_CHECK.CODE 0xC8
  else if !(s.slotsOf c).isEmpty then s.wr MAP_CHECK.CODE 0x2B
  else if s.forwards then s.forward (.release c) (.claimRel c)
  else s.startRelease c

/-- MAP_CLAIM_RELEASE (R66): a write with COMMIT 0. The RWL fields are locked while the claim is committed. -/
def execMapClaimRelease (p : Path) (v : Nat) (s : State) : Host.Outcome State Fault Refusal :=
  let c := s.rdAt MAP_CLAIMSEL.CLAIM (pathCopy p)
  ((s.storeFields claimAttr c v).askRelease c).done

/-- Forget a page: its place, its seal count, and both copies' entries. -/
def State.forgetPage (s : State) (dpn : Nat) : State :=
  let e := s.entry dpn
  let s := s.freeLocation e.loc
  let s := if e.keyid = 0 then s else s.subAt SEC_KEYSTAT.PAGES e.keyid 1
  let s := { s with map := { s.map with
    primary := s.map.primary.erase dpn, secondary := s.map.secondary.erase dpn, lostBytes := s.map.lostBytes.erase dpn } }
  let s := match s.mapWay dpn with
    | some k => { s with map := { s.map with cache := s.map.cache.erase k } }
    | none => s
  { s with sec := { s.sec with trackers := s.sec.trackers.filter fun t => t.dpn != dpn
                               waiting := s.sec.waiting.filter fun t => t.dpn != dpn
                               comeBack := s.sec.comeBack.remove dpn } }

/-- Back-invalidates of a release that still run (R338). -/
def State.releaseBi (s : State) (c : Nat) : Bool :=
  (s.hal.trackers ++ s.hal.untracked).any fun t => s.inClaim c (t.line * 64)

/-- Fields of a claim that its release locks to what they were (R81, R82). -/
def claimFields : List Fld := [MAP_CLAIMBASE.BASE, MAP_CLAIMSIZE.SIZE] ++ claimAttr

/-- Release has ended: what was written to the claim's fields meanwhile is what they hold. -/
def State.takeStaged (s : State) (c : Nat) : State :=
  claimFields.foldl (fun s f =>
    match s.map.staged.find (f.key c) with
    | some v => { s with map := { s.map with staged := s.map.staged.erase (f.key c) } }.wrAt f c v
    | none => s) s

/-- The release of a claim ends: its pages, lines, salvage records and space go (R66). -/
def State.endRelease (s : State) (c : Nat) : State :=
  let s := (s.pagesOf c).foldl State.forgetPage s
  let s := s.unpoisonRange (s.claimBase c / 64) (s.claimSize c / 64)
  let s := ((s.cir.salvage.filter fun e => e.2.claim == c).map Prod.fst).foldl State.freeSalvage s
  let s := s.returnSpace c (s.rdAt MAP_CLAIMUSED.BYTES c)
  let s := (s.leafSpace c false).wr MAP_CAPCHARGED.BYTES (s.rd MAP_CAPCHARGED.BYTES - s.claimCharge c)
  ((s.putAt MAP_CLAIMSTAT.RELEASING c false).takeStaged c).accounts.revoking

/-- CLAIM_RELEASE_END (R66 steps 3 to 5): every page has returned its space, the leaves are freed, poison entries and
salvage records are gone (R102, R265), and the charges leave the admission sum. -/
def execClaimReleaseEnd (c : Nat) (s : State) : Host.Outcome State Fault Refusal :=
  if !s.onAt MAP_CLAIMSTAT.RELEASING c || s.releaseBi c then .next s
  else
    (s.endRelease c).done

/-! ### Grants (R83, R323) -/

/-- A grant write is ignored as a whole (R83). -/
def State.grantWriteBad (s : State) (c g0 g1 : Nat) : Bool :=
  s.onAt MAP_CLAIMATTR.COMMIT c && s.grantsBad g0 g1 (s.onAt MAP_CLAIMATTR.SHARED c)

/-- The revocation sweep of a SHARED claim after a grant change (R323): by a link's strongest remaining grant. -/
def State.revokeSweep (s : State) (c : Nat) : State :=
  (s.sweepClaim c .revoke fun e =>
    let gone := e.holders.filter fun n => s.linkGrant c n == grantNone
    if !gone.isEmpty then (gone, true)
    else if e.exclusive then (e.holders.filter fun n => s.linkGrant c n == grantRead, false)
    else ([], true)).revoking

/-- Replace the grants of a claim (R52, R83). The grants before the change are kept until the sweep ends. -/
def State.setGrants (s : State) (c g0 g1 : Nat) : State :=
  if s.grantWriteBad c g0 g1 then s.wr MAP_CHECK.CODE 0x2A
  else
    let old := (s.rdAt MAP_CLAIMGRANT0.GRANTS c, s.rdAt MAP_CLAIMGRANT1.GRANTS c)
    let s := (s.wrAt MAP_CLAIMGRANT0.GRANTS c g0).wrAt MAP_CLAIMGRANT1.GRANTS c g1
    if s.onAt MAP_CLAIMATTR.COMMIT c then
      let s := s.wr MAP_CHECK.CODE 0
      if s.onAt MAP_CLAIMATTR.SHARED c then
        let before := s.hal.oldGrants.get (0, 0) c
        let kept := (Nat.lor before.1 old.1, Nat.lor before.2 old.2)
        { s with hal := { s.hal with oldGrants := s.hal.oldGrants.put c kept } }.revokeSweep c
      else s
    else s

/-- MAP_CLAIMGRANT_WRITE (R83): `v` is written to MAP_CLAIMGRANT0, or to MAP_CLAIMGRANT1 where `high` is true. -/
def execMapClaimgrantWrite (p : Path) (high : Bool) (v : Nat) (s : State) : Host.Outcome State Fault Refusal :=
  let c := s.rdAt MAP_CLAIMSEL.CLAIM (pathCopy p)
  (if high then s.setGrants c (s.rdAt MAP_CLAIMGRANT0.GRANTS c) (v % 2 ^ 64)
    else s.setGrants c (v % 2 ^ 64) (s.rdAt MAP_CLAIMGRANT1.GRANTS c)).done

/-! ### Waits and walks (R72–R75, R78, R664) -/

/-- PHYSICAL_ROOM_WAIT_END (R664): room has appeared. The waiting allocations take it in the order in which they came, as
every step's settling lets them. -/
def execPhysicalRoomWaitEnd (s : State) : Host.Outcome State Fault Refusal := s.done

/-- Set of a directory in the directory cache of 1,024 sets of 8 ways (the index: PRESUMED, its low bits). -/
def dirCacheSet (dir : Nat) : Nat := dir % 1024

/-- Way of the directory cache that holds a directory entry of the primary copy. -/
def State.dirCacheWay (s : State) (dir : Nat) : Option Nat :=
  ((List.range 8).map fun w => dirCacheSet dir * 8 + w).find? fun k => s.map.dirCache.find k == some dir

/-- Put a directory entry into the directory cache (R74). -/
def State.cacheDir (s : State) (dir : Nat) : State :=
  let set := dirCacheSet dir
  let t := s.map.dirPlru.get 0 set
  let w := match s.dirCacheWay dir with
    | some k => k % 8
    | none =>
      match (List.range 8).find? fun w => (s.map.dirCache.find (set * 8 + w)).isNone with
      | some w => w
      | none => (plruVictim t fun w => decide (w < 8)).getD 0
  { s with map := { s.map with dirCache := s.map.dirCache.put (set * 8 + w) dir
                               dirPlru := s.map.dirPlru.set 0 set (plruTouch t w) } }

/-- What the walk of one copy gives: the entry, or how its directory failed. A copy on a channel in FREEZE, or releasing,
counts as bad without a read (R73, R242, R243). -/
def State.walkCopy (s : State) (k : Copy) (dpn c : Nat) (cached : Bool) (dir leaf : CopyFind) : DirFault × Option MapEntry :=
  if s.frozen (s.copyChannel k) then (.bad, none)
  else
    match if cached then DirFault.good else s.checkDir k (dpn / 512) dir with
    | .good => (.good, s.checkLeaf k dpn c leaf)
    | f => (f, none)

/-- The VERSION that a leaf read shows, where it decodes (R74). -/
def State.seenVersion (s : State) (k : Copy) (dpn c : Nat) (d : DirFault) (leaf : CopyFind) : Option Nat :=
  match d, leaf with
  | .good, .word flips => (MapEntry.decode (Nat.xor (s.leafWord k dpn c) flips)).map fun e => e.version
  | _, _ => none

/-- VERSION of a page made LOST: one above the higher one seen, or 0 (R74). -/
def lostVersion : Option Nat → Option Nat → Nat
  | none, none => 0
  | some a, none => (a + 1) % 256
  | none, some b => (b + 1) % 256
  | some a, some b => (max a b + 1) % 256

/-- The walked entry enters the map cache. An IN_FLIGHT entry without its move is rewritten to its source form (R73). -/
def State.walked (s : State) (dpn : Nat) (e : MapEntry) : State :=
  let stray := e.state == .inFlight && (s.move dpn).isNone
  let e' := match e.loc with
    | .run _ _ _ _ _ => { e with state := .nimbus }
    | _ => { e with state := .stratus }
  let s := if stray then s.writeCopies dpn e' else s
  s.installMap dpn (if stray then e' else e) false

/-- A map walk reads the primary copy, then the secondary (R72–R74). -/
def State.walkMap (s : State) (c dpn : Nat) (f : WalkFind) : State :=
  let s := match f.dirParity, s.dirCacheWay (dpn / 512) with
    | true, some k => { s with map := { s.map with dirCache := s.map.dirCache.erase k } }.raise srcMapCachePar
    | _, _ => s
  let (d1, e1) := s.walkCopy .primary dpn c (s.dirCacheWay (dpn / 512)).isSome f.dir1 f.leaf1
  match e1 with
  | some e => (s.cacheDir (dpn / 512)).walked dpn e
  | none =>
    let s := s.event Ev.secondaryWalks 0
    let (d2, e2) := s.walkCopy .secondary dpn c false f.dir2 f.leaf2
    match e2 with
    | some e =>
      let s := if s.frozen (s.copyChannel .primary) then s
        else (((s.writeLeaf .primary dpn e).inc MAP_ERRCNT.REPAIRED).flog dpn 0
          (if d1 = .pointer then flogPtr else flogRepair) 0).raise srcMapRepair
      s.walked dpn e
    | none =>
      let v := lostVersion (s.seenVersion .primary dpn c d1 f.leaf1) (s.seenVersion .secondary dpn c d2 f.leaf2)
      s.loseEntry dpn v (d1 == .good || d2 == .good)

/-- MAP_WALK (R72): the reads of the walk for a page return. -/
def execMapWalk (dpn : Nat) (f : WalkFind) (s : State) : Host.Outcome State Fault Refusal :=
  match s.claimOf (dpn * 4096) with
  | none => .next s
  | some c =>
    if (s.cached dpn).isSome then s.done
    else
      (s.walkMap c dpn f).done

/-- The bits of an entry that the audit compares: all but HEAT, HSTAMP and ECHK (R78). -/
def auditBits (w : Nat) : Nat := bits w 0 30 + bits w 38 8 * 2 ^ 38 + bits w 54 2 * 2 ^ 54 + bits w 64 64 * 2 ^ 64

/-- Maps changed behind the cache, as the audit finds them: stored words with flipped bits, by page, and directory entries
that differ. -/
def flipsOf (fs : List (Nat × Nat)) (dpn : Nat) : Nat := ((fs.find? fun f => f.1 == dpn).map Prod.snd).getD 0

/-- A mismatch (R78): the cached entry goes without writeback. -/
def State.incoherent (s : State) (dpn : Nat) : State :=
  ((s.inc MAP_ERRCNT.INCOH).flog dpn 0 flogIncoherent 0).raise srcMapIncoherent

/-- The audit of one way of the map cache. A primary copy on a frozen channel is not read. -/
def State.auditWay (s : State) (flips : List (Nat × Nat)) (k : Nat) (x : MapWay) : State :=
  let stored := Nat.xor (s.leafWord .primary x.dpn x.entry.claim) (flipsOf flips x.dpn)
  if s.frozen (s.copyChannel .primary) || x.leafless || auditBits stored == auditBits x.entry.encode then s
  else ({ s with map := { s.map with cache := s.map.cache.erase k } }).incoherent x.dpn

/-- The audit checks its next cached sets, map and directory. -/
def State.auditNext (s : State) (flips : List (Nat × Nat)) (dirs : List Nat) : State :=
  let m := s.map
  let mine := m.cache.filter fun e => decide (m.auditSet ≤ e.1 / 16) && decide (e.1 / 16 < m.auditSet + 4096)
  let mineDirs := m.dirCache.filter fun e =>
    decide (m.auditDirSet ≤ e.1 / 8) && decide (e.1 / 8 < m.auditDirSet + 512) && dirs.contains e.2
  let s := mine.foldl (fun s e => s.auditWay flips e.1 e.2) s
  let s := mineDirs.foldl (fun s e =>
    ({ s with map := { s.map with dirCache := s.map.dirCache.erase e.1 } }).incoherent (e.2 * 512)) s
  let s := { s with map := { s.map with auditSet := (m.auditSet + 4096) % 65536
                                        auditDirSet := (m.auditDirSet + 512) % 1024 } }
  s.event Ev.audits 0

/-- AUDIT_SWEEP (R78): the next 4,096 map cache sets and 512 directory cache sets are compared with the primary copy.
`flips` gives the pages, and `dirs` the directory entries, whose stored words were changed by raw writes. -/
def execAuditSweep (flips : List (Nat × Nat)) (dirs : List Nat) (s : State) : Host.Outcome State Fault Refusal :=
  (s.auditNext flips dirs).done

/-! ### Ends of grant sweeps -/

/-- The grants of a claim before its last change no longer count. -/
def State.forgetGrants (s : State) (c : Nat) : State :=
  { s with hal := { s.hal with oldGrants := s.hal.oldGrants.erase c } }

/-- REVOCATION_SWEEP_END (R323): the claim's previous grants are dropped. -/
def execRevocationSweepEnd (c : Nat) (s : State) : Host.Outcome State Fault Refusal :=
  (s.forgetGrants c).revoking.done

end Sys2Proof.Machine
end

