-- ==== Sys2Proof/Machine/HostAccess.lean ====
section
/-! DEFINITION. Host requests as commands: reads, writes, hints and clean evictions at slot decode (R21, R30–R34, R92, R115,
R326, R388), and the answer deadline (R36–R38). -/

namespace Sys2Proof.Machine

/-- A link fenced under R335 makes an HDM-DB request to a SHARED claim: counted, and answered without the directory. -/
def State.answerFenced (s : State) (r : OpenReq) : State :=
  let s := (s.inc HAL_ERRCNT.FENCEDREQ).event Ev.halFenced 0
  if isRead r.op then
    let (d, s) := s.poisonData
    (s.send (.memData r.link r.ld r.tag d true 0 r.urgency)).sample (s.sampleOf r outPoison 0) r.sampled
  else (s.send (.memDone r.link r.ld r.tag r.urgency)).sample (s.sampleOf r outWrite 0) r.sampled

/-- A request that a decoder matches is refused as outside HOME (R437): counted. -/
def State.noteNotHome (s : State) (link number hpa : Nat) : State :=
  match (s.ldIndex link number).bind fun ld => s.decoderOf ld hpa with
  | some _ => (s.inc PAR_ERRCNT.NOTHOME).event Ev.notHome 0
  | none => s

/-- A decoded request passes the router's checks and is served, or is refused (R30–R33). -/
def State.routed (s : State) (link number tag hpa : Nat) (op : MemOp) (data : Line) (mask : ByteMask) (poison : Bool)
    (f : AccessFind) : State :=
  match s.route link number hpa (isWrite op) with
  | .refused reason line => (if reason = refNoDecoder then s.noteNotHome link number hpa else s).refuse link number tag (opClass op mask) reason line f.sampled
  | .served dpa c db =>
    let r : OpenReq :=
      { id := s.nextReq, link := link, ld := number, tag := tag, op := op, dpaLine := dpa / 64, claim := c, data := data
        mask := mask, poison := poison, hdmDb := db, ts := s.time, answered := false, applied := false, stage := .walk
        granted := 0, homed := false, urgency := s.urgency link, missed := false, biWait := false, stalled := false
        sampled := f.sampled }
    if s.onAt MAP_CLAIMATTR.SHARED c && s.fenced link then s.answerFenced r else s.takeIn r f

/-- A request is decoded once it holds a token of its link's bucket (R388); until then it waits at the link. A link that is
not in L0 takes no flit (R39 step 1). -/
def State.decodeSlot (s : State) (i : Instr) (link number tag hpa : Nat) (op : MemOp) (data : Line) (mask : ByteMask)
    (poison : Bool) (f : AccessFind) : State :=
  if !s.inL0 link then s
  else if s.hasToken link && !(s.qos.port.any fun p => p.1 == link) then
    (s.takeUnits link 1).routed link number tag hpa op data mask poison f
  else { s with qos := { s.qos with port := s.qos.port ++ [(link, i)] } }

/-- MEM_READ (R115): a MemRd slot of LD `number` on a link, with the host's tag and address. -/
def execMemRead (link number tag hpa : Nat) (kind : ReadKind) (f : AccessFind) (s : State) :
    Host.Outcome State Fault Refusal :=
  (s.decodeSlot (.memRead link number tag hpa kind f) link number tag hpa kind.op 0 ByteMask.full false f).done

/-- MEM_WRITE (R92): a MemWr or MemWrPtl slot. `shared` is its MetaValue; bytes outside the mask are not written. -/
def execMemWrite (link number tag hpa : Nat) (shared : Bool) (data : Line) (mask : ByteMask) (poison : Bool)
    (f : AccessFind) (s : State) : Host.Outcome State Fault Refusal :=
  (s.decodeSlot (.memWrite link number tag hpa shared data mask poison f) link number tag hpa (.wr shared) data mask
    poison f).done

/-- MEM_SPEC_RD (R21): a hint. It starts lookups that a later request would start, sends no response and touches no
entry. -/
def execMemSpecRd (_link _number _hpa : Nat) (s : State) : Host.Outcome State Fault Refusal := .next s

/-- A clean evict that a reader without a copy sends is a protocol error. -/
def State.judgeEvict (s : State) (link number hpa : Nat) : State :=
  match s.route link number hpa false with
  | .refused _ _ => s
  | .served dpa c _ =>
    let shown := match s.dirEntry (dpa / 64) with
      | some e => e.holders.has link
      | none => false
    if s.onAt MAP_CLAIMATTR.SHARED c && s.linkGrant c link == grantRead && !shown then s.halProtocol else s

/-- MEM_CLN_EVCT (R326): a MemClnEvct slot; a READ-only sharer that the entry does not show breaks the protocol (R341). -/
def execMemClnEvct (link number tag hpa : Nat) (f : AccessFind) (s : State) : Host.Outcome State Fault Refusal :=
  ((s.judgeEvict link number hpa).decodeSlot (.memClnEvct link number tag hpa f) link number tag hpa .evict 0 ByteMask.full false
    f).done

/-- Record an expiry in the first free entry of RTR_DLLOG (R36, R49). -/
def State.logDeadline (s : State) (r : OpenReq) : State :=
  match (List.range 8).find? fun k => !s.onAt RTR_DLLOG.VALID k with
  | none => s
  | some k =>
    let s := ((s.wrAt RTR_DLLOG.TS k r.ts).wrAt RTR_DLLOG.DPALINE k r.dpaLine).wrAt RTR_DLLOG.LINK k r.link
    let s := ((s.wrAt RTR_DLLOG.LD k r.ld).wrAt RTR_DLLOG.OPCLASS k (opClass r.op r.mask)).wrAt RTR_DLLOG.CAUSE k r.stage.code
    s.putAt RTR_DLLOG.VALID k true

/-- A request leaves the halo directory's queues (R337). -/
def State.leaveHome (s : State) (r : OpenReq) : State :=
  let s := { s with hal := { s.hal with waitQ := s.hal.waitQ.filter fun w => w.1 != r.id
                                        atRouter := s.hal.atRouter.filter fun w => w != r.id
                                        ready := s.hal.ready.filter fun w => w != r.id } }
  ((s.removeReq r.id).hostStatus r.link).advanceLine r.dpaLine false 512

/-- The deadline of request `id` has passed and it has no answer (R35, R36). -/
def State.expire (s : State) (id : Nat) (r : OpenReq) : State :=
  let l := s.link r.link
  let s := (s.setLink r.link { l with expiries := l.expiries + 1 }).event Ev.expiries r.link
  let s := s.logDeadline r
  let s := if r.stage = .halo then s.inc HAL_ERRCNT.EXPIRED else s
  let (d, s) := if isRead r.op then s.poisonData else (0, s)
  let s := s.respond r d (isRead r.op) outExpired r.stage.code
  let s := (s.granted r).setReq id fun q => { q with answered := true }
  let s := s.hostStatus r.link
  if isRead r.op && r.stage == .halo then s.leaveHome r
  else if r.applied then
    let s := s.inc PAR_ERRCNT.ACKLATE
    let s := if s.sticky srcParAckLate then s else s.raise srcParAckLate
    (s.event Ev.lateAcks 0).removeReq id
  else s

/-- DEADLINE_EXPIRY (R36, R37): the deadline of open request `id` passes. A read is answered with poison; one that waits at
the home leaves its line's order (R337). A write is completed and keeps its place; one that waits for its MIRACK is
done (R445). A request that is gone, or answered, has no timer. -/
def execDeadlineExpiry (id : Nat) (s : State) : Host.Outcome State Fault Refusal :=
  match s.req id with
  | none => .next s
  | some r =>
    if r.answered then .next s
    else
      (s.expire id r).done

end Sys2Proof.Machine
end

