-- ==== Sys2Proof/Machine/HostPorts.lean ====
section
/-! DEFINITION. Host links as they train, fail and are reset (R16–R20, R29, R38–R43), and the HDM decoders (R25, R26). -/

namespace Sys2Proof.Machine

/-- A port's mode and the existence of a link (R16). -/
def State.linkExists (s : State) (n : Nat) : Bool :=
  decide (n < 8) && (n % 2 == 0 || s.rdAt LNK_PORTCFG.BIF (n / 2) == 1)

/-- The SYS_BOOT.STAGE code of PORTS_READY (R508, R520). -/
def stagePortsReady : Nat := 1

/-- A link may train (R42, R502, R508 step 5). -/
def State.mayTrain (s : State) (n : Nat) : Bool :=
  s.linkExists n && s.chip.perstOff.has (n / 2) && s.chip.hostPll.has (n / 2) &&
    decide (stagePortsReady ≤ s.rd SYS_BOOT.STAGE)

/-- Width code of a link's configuration (R16, R45). -/
def State.fullWidth (s : State) (n : Nat) : Nat := s.rdAt LNK_PORTCFG.BIF (n / 2)

/-- Flit format of a trained link (R19). -/
def State.flitFor (s : State) (n rate : Nat) (flit256 lopt : Bool) : Nat :=
  if rate = 3 then (if lopt && s.onAt LNK_PORTCFG.LOPT_ALLOW (n / 2) then 2 else 1)
  else if flit256 then 1 else 0

/-- Activity of a host link before NIGHT step 4 cancels the entry (R552); WAKE_N is released once no link stays in L2
(R553). -/
def State.linkWoke (s : State) (_link : Nat) : State :=
  let s := if 1 ≤ s.pow.night ∧ s.pow.night ≤ 3 then
      ({ s with pow := { s.pow with night := 0 } }.put PWR_STAT.PENDING false).put PWR_CTL.NIGHT false
    else s
  { s with chip := { s.chip with wakeN := s.chip.wakeN && s.links.any fun x => x.2.state == .l2 } }

/-- A link that may train reaches L0 at a rate and width (R18, R20). -/
def State.trainedTo (s : State) (link rate width : Nat) (flit256 lopt : Bool) : State :=
  let l := s.link link
  let down := l.state = .recovery ∧ !l.retrain
  let top := s.rdAt LNK_PORTCFG.MAXRATE (link / 2)
  let rate := min rate (if down then min top (s.rdAt LNK_LSTAT.RATE link) else top)
  let width := min 2 (max width (if down then max (s.fullWidth link) (s.rdAt LNK_LSTAT.WIDTH link) else s.fullWidth link))
  let bad := decide (rate < top) || decide (s.fullWidth link < width)
  let entered := bad && !s.onAt LNK_LSTAT.DEGRADED link
  let s := s.setLink link { l with state := .l0, retrain := false, creditsFresh := true }
  let s := ((s.putAt LNK_LSTAT.UP link true).wrAt LNK_LSTAT.RATE link rate).wrAt LNK_LSTAT.WIDTH link width
  let s := (s.wrAt LNK_LSTAT.FLIT link (s.flitFor link rate flit256 lopt)).putAt LNK_LSTAT.DEGRADED link bad
  let s := if entered then s.raise (srcHostLink link) else s
  (s.linkWoke link).releaseInterrupt

/-- LINK_UP (R18–R20, R552): training ends at the highest rate and width at which it passes equalization, within the port's
limits. From Recovery the device does not move upward on its own. -/
def execLinkUp (link rate width : Nat) (flit256 lopt : Bool) (s : State) : Host.Outcome State Fault Refusal :=
  let l := s.link link
  if l.state = .l0 ∨ !s.mayTrain link then .next s
  else if s.rd PWR_STAT.STATE = 3 then .next { s with pow := { s.pow with heldLinks := s.pow.heldLinks.add link } }
  else
    (s.trainedTo link rate width flit256 lopt).done

/-- LINK_RETRAIN (R18): the host sets Retrain Link; the link passes through Recovery, which is not a link down. -/
def execLinkRetrain (link : Nat) (s : State) : Host.Outcome State Fault Refusal :=
  let l := s.link link
  if l.state = .l0 then .next (s.setLink link { l with state := .recovery, retrain := true }) else .next s

/-! ### Link down (R38–R41) -/

/-- Causes of LNK_LASTDOWN (R47). -/
def downLtssm : Nat := 0
def downPerst : Nat := 1
def downIde : Nat := 2
def downCredit : Nat := 3
def downParity : Nat := 4

/-- The reads that a link down discards, and the writes that it commits without a completion (R39 steps 2 and 3). -/
def State.readsOn (s : State) (n : Nat) : List OpenReq :=
  s.reqs.filter fun r => r.link == n && !r.answered && !isWrite r.op
def State.writesOn (s : State) (n : Nat) : List OpenReq :=
  s.reqs.filter fun r => r.link == n && !r.answered && isWrite r.op

/-- The link-down rules (R39); `dropped` writes were not fully received. Every write fully received keeps its place and
is applied as if the link were up. -/
def State.linkDown (s : State) (n cause dropped : Nat) : State :=
  let reads := s.readsOn n
  let writes := s.writesOn n
  let s := { s with qos := { s.qos with port := s.qos.port.filter fun p => p.1 != n } }
  let s := reads.foldl (fun s r => s.leaveHome r) s
  let mine : List OpenReq := s.reqs.map fun (r : OpenReq) => if r.link = n then { r with answered := true } else r
  let s := { s with reqs := mine.filter fun (r : OpenReq) => !(r.link == n && r.applied) }
  let s := (s.hostStatus n).cutLink n toLinkDown
  let s := (s.wrAt LNK_LASTDOWN.READS_DISC n (min (reads.filter fun r => isRead r.op).length 0xFFFF)).wrAt
    LNK_LASTDOWN.WR_COMMIT n (min writes.length 0xFFFF)
  let s := (s.wrAt LNK_LASTDOWN.WR_DROP n (min dropped 0xFFFF)).wrAt LNK_LASTDOWN.CAUSE n cause
  let s := (s.wrAt LNK_LASTDOWN_TS.TS n s.stamp).incAt LNK_LSTAT.DOWNCNT n
  let s := (s.putAt LNK_LSTAT.UP n false).putAt LNK_LSTAT.DEGRADED n false
  let s := s.setLink n { s.link n with state := .down, retrain := false, creditsFresh := false }
  (s.event Ev.linkDowns n).raise (srcHostLink n)

/-- The link is up, in L0 or a state entered from it. -/
def State.isUp (s : State) (n : Nat) : Bool := s.onAt LNK_LSTAT.UP n

/-- LINK_DOWN (R39): the LTSSM leaves L0 for Detect, Disabled or Hot Reset. -/
def execLinkDown (link dropped : Nat) (s : State) : Host.Outcome State Fault Refusal :=
  if s.isUp link then (s.linkDown link downLtssm dropped).done else .next s

/-- CREDIT_OVERFLOW (R43). -/
def execCreditOverflow (link dropped : Nat) (s : State) : Host.Outcome State Fault Refusal :=
  if s.isUp link then
    let s := (s.setLink link { s.link link with rasOverflow := true }).raise (srcHostErr link)
    (s.linkDown link downCredit dropped).done
  else .next s

/-- LINK_INTERNAL_PARITY (R43). -/
def execLinkInternalParity (link dropped : Nat) (s : State) : Host.Outcome State Fault Refusal :=
  if s.isUp link then
    let s := (s.setLink link { s.link link with rasInternal := true }).raise (srcHostErr link)
    (s.linkDown link downParity dropped).done
  else .next s

/-- A link counts a flit error; a rollover of the replay count sends it from L0 to recovery. -/
def Link.flitError (l : Link) (rollover : Bool) : Link :=
  let l := { l with flitErrors := l.flitErrors + 1, aerCorrectable := true }
  if rollover then
    { l with rollovers := l.rollovers + 1, state := if l.state = .l0 then LinkState.recovery else l.state }
  else l

/-- FLIT_CRC_ERROR (R43): recovered by replay and counted; a rollover of the replay number sends the link into Recovery. -/
def execFlitCrcError (link : Nat) (rollover : Bool) (s : State) : Host.Outcome State Fault Refusal :=
  .next ((s.setLink link ((s.link link).flitError rollover)).event Ev.flitsReplayed link)

/-- MALFORMED_TLP (R43): a malformed TLP, an ECRC error or an unsupported CXL.io request. -/
def execMalformedTlp (link : Nat) (s : State) : Host.Outcome State Fault Refusal :=
  let l := s.link link
  .next (s.setLink link { l with ioErrors := l.ioErrors + 1, aerUncorrectable := true })

/-! ### IDE (R27–R30) -/

/-- A stream of a link. -/
def Link.stream (l : Link) : IdeSel → IdeStream
  | .mem => l.ideMem
  | .io => l.ideIo
  | .sel0 => l.ideSel0
  | .sel1 => l.ideSel1

/-- Change a stream of a link. -/
def Link.setStream (l : Link) (k : IdeSel) (x : IdeStream) : Link :=
  match k with
  | .mem => { l with ideMem := x }
  | .io => { l with ideIo := x }
  | .sel0 => { l with ideSel0 := x }
  | .sel1 => { l with ideSel1 := x }

/-- LNK_LSTAT shows the secure streams (R45). -/
def State.ideStatus (s : State) (n : Nat) : State :=
  (s.putAt LNK_LSTAT.IDE_MEM n ((s.link n).ideMem.state == .secure)).putAt LNK_LSTAT.IDE_IO n
    ((s.link n).ideIo.state == .secure)

/-- An IDE stream takes a message of key management. -/
def IdeStream.take (x : IdeStream) (m : IdeMsg) : IdeStream :=
  match m with
  | .prog true key => { x with rx := { x.rx with pending := some key } }
  | .prog false key => { x with tx := { x.tx with pending := some key } }
  | .go =>
    match x.rx.pending, x.tx.pending with
    | some a, some b => { state := .secure, rx := ⟨some a, none⟩, tx := ⟨some b, none⟩ }
    | _, _ => x
  | .stop => { state := .idle, rx := { x.rx with active := none }, tx := { x.tx with active := none } }

/-- An IDE stream of a link becomes insecure. -/
def Link.failIde (l : Link) (k : IdeSel) : Link :=
  { l.setStream k { l.stream k with state := .insecure } with rasIde := true }

/-- IDE_KM (R27): a message inside an SPDM session. KEY_PROG stores a pending key set in one direction; K_SET_GO makes the
pending sets active and the stream secure; K_SET_STOP ends it (the messages' effects: PRESUMED, the standard's). -/
def execIdeKm (link : Nat) (k : IdeSel) (m : IdeMsg) (s : State) : Host.Outcome State Fault Refusal :=
  .next ((s.setLink link ((s.link link).setStream k (((s.link link).stream k).take m))).ideStatus link)

/-- IDE_INTEGRITY_FAILURE (R29): the stream goes Insecure and the link is taken down. `dropped` counts the writes that were
not fully received; in containment mode those of the failing epoch are among them. -/
def execIdeIntegrityFailure (link : Nat) (k : IdeSel) (dropped : Nat) (s : State) : Host.Outcome State Fault Refusal :=
  if s.isUp link then
    ((((s.setLink link ((s.link link).failIde k)).ideStatus link).raise (srcHostErr link)).linkDown link downIde dropped).done
  else .next s

/-! ### PERST and function resets (R42, R335) -/

/-- LDs of a link. -/
def State.ldsOn (s : State) (link : Nat) : List Nat := (s.lds.filter fun e => e.2.link == link).map Prod.fst

/-- The HDM decoders of LDs return to their reset values: none is listed. -/
def State.resetDecoders (s : State) (lds : List Nat) : State :=
  { s with decoders := s.decoders.filter fun e => !lds.contains (e.1 / 32) }

/-- One link under PERSTp_N: the link-down rules, the fence of R335, and the link's registers other than ROS fields at
reset. The streams of IDE are configuration of the link's functions. -/
def State.perstLink (s : State) (n dropped : Nat) : State :=
  let s := if s.isUp n then s.linkDown n downPerst dropped else s
  let s := if s.linkExists n && !s.fenced n then s.fenceLink n else s
  let l := s.link n
  let s := s.setLink n { l with state := .down, ideMem := {}, ideIo := {}, ideSel0 := {}, ideSel1 := {}
                                rasOverflow := false, rasInternal := false, rasIde := false
                                aerCorrectable := false, aerUncorrectable := false }
  let s := (s.wrAt LNK_IDECTL.REQUIRE n 0).wrAt LNK_LSTAT.RATE n 0
  let s := ((s.wrAt LNK_LSTAT.WIDTH n 0).wrAt LNK_LSTAT.FLIT n 0).ideStatus n
  s.resetDecoders (s.ldsOn n)

/-- A PERSTp_N pin is deasserted or asserted. -/
def State.setPerst (s : State) (port : Nat) (off : Bool) : State :=
  { s with chip := { s.chip with perstOff := if off then s.chip.perstOff.add port else s.chip.perstOff.remove port } }

/-- PERST_ASSERT (R42); `dropped` writes of each link were not fully received. -/
def execPerstAssert (port dropped0 dropped1 : Nat) (s : State) : Host.Outcome State Fault Refusal :=
  if s.chip.perstOff.has port then
    ((((s.setPerst port false).perstLink (2 * port) dropped0).perstLink (2 * port + 1) dropped1).wrAt LNK_PORTCFG.LOPT_ALLOW port 1).done
  else .next s

/-- A link starts to train if it may. -/
def State.startTraining (s : State) (n : Nat) : State :=
  if s.mayTrain n && (s.link n).state == .down then s.setLink n { s.link n with state := .training } else s

/-- PERST_DEASSERT (R509): the port's links start training. -/
def execPerstDeassert (port : Nat) (s : State) : Host.Outcome State Fault Refusal :=
  if port < 4 then
    .next (((s.setPerst port true).startTraining (2 * port)).startTraining (2 * port + 1))
  else .next s

/-- FUNCTION_LEVEL_RESET (R42): CXL.io function state only, none of which the spec gives registers of its own; decoders,
outstanding requests and memory stay. -/
def execFunctionLevelReset (_link _ld : Nat) (s : State) : Host.Outcome State Fault Refusal := .next s

/-! ### HDM decoders (R25, R26) -/

/-- Interleave ways that are supported (R22). -/
def goodWays : List Nat := [1, 2, 3, 4, 6, 8, 12, 16]

/-- Interleave granularities that are supported: 256 B to 16 KiB (R22). -/
def goodGran : List Nat := [256, 512, 1024, 2048, 4096, 8192, 16384]

/-- DPA bytes that a decoder maps: its part of the interleave set. -/
def Decoder.dpaSize (d : Decoder) : Nat := d.size / d.ways

/-- The DPA ranges of two decoders overlap. -/
def Decoder.overlaps (d e : Decoder) : Bool :=
  decide (d.dpaBase < e.dpaBase + e.dpaSize) && decide (e.dpaBase < d.dpaBase + d.dpaSize)

/-- The committed decoders of an LD but one. -/
def State.otherDecoders (s : State) (ld k : Nat) : List Decoder :=
  ((s.decoders.filter fun e => e.1 / 32 == ld && e.1 != decoderKey ld k).map Prod.snd).filter fun d => d.committed

/-- The commit check of R26. -/
def State.decoderOk (s : State) (ld k : Nat) (d : Decoder) : Bool :=
  goodWays.contains d.ways && goodGran.contains d.gran && decide (d.dpaBase + d.dpaSize ≤ s.dpaCap) &&
    (s.otherDecoders ld k).all fun e => !d.overlaps e

/-- HDM_DECODER_COMMIT (R26): the host writes decoder `k` of an LD and its Commit bit. Decoders above the allocation do not
exist, and their registers ignore writes (R25). Commit 0 uncommits (PRESUMED: the standard's). -/
def execHdmDecoderCommit (ld k base size dpaBase ways gran : Nat) (hdmDb commit : Bool) (s : State) :
    Host.Outcome State Fault Refusal :=
  match s.lds.find ld with
  | none => .next s
  | some x =>
    if k < x.alloc ∧ k < 32 then
      let d : Decoder := { committed := commit, base, size, dpaBase, ways, gran, hdmDb }
      let d := if commit && !s.decoderOk ld k d then { d with committed := false, errorNotCommitted := true } else d
      .next { s with decoders := s.decoders.put (decoderKey ld k) d }
    else .next s

end Sys2Proof.Machine
end

