-- ==== Sys2Proof/Machine/Writeback.lean ====
section
/-! DEFINITION. Moving lines between Cirrus and a page's form: bad blocks (R179), writebacks and merges (R98–R102, R111, R170,
R176–R180), the writeback buffer (R97), flush (R113) and the excursion sweep (R114). -/

namespace Sys2Proof.Machine

/-! ### Bad blocks (R179, R266) -/

/-- The block was poisoned whole (R266). -/
def State.coarseBlock (s : State) (l : Location) (b : Nat) : Bool :=
  s.med.coarse.has (s.granuleLine (l.blockStart b))

/-- Cirrus, or a writeback that is going with it, holds the line whole and newer than DRAM. -/
def State.heldWhole (s : State) (dpaLine : Nat) : Bool :=
  match s.cirLine dpaLine with
  | some x => x.state == .dirty
  | none =>
    match s.buffered dpaLine with
    | some w => w.bvm == ByteMask.full
    | none => false

/-- A block's decode has failed for good (R179): its lines are listed, except those held DIRTY, counted and logged, and the
partner may restore them (R453). -/
def State.badBlock (s : State) (dpn b kind : Nat) : State :=
  let loc := (s.entry dpn).loc
  let g := s.granuleLine (loc.blockStart b)
  let lines := ((List.range 16).map fun i => dpn * 64 + b * 16 + i).filter fun l => !s.heldWhole l
  let s := lines.foldl (fun s l => (s.poisonLine l .internal (.block g)).wantRepair l none) s
  ((s.inc NMB_ERRCNT.BAD).nmbLog dpn b kind (loc.blockCount b) false).raise srcBlockBad

/-- Why a block or line could not be verified, as a salvage cause (R101): 0 an uncorrectable error, 1 a tag failure. -/
def mediaCause (fs : List MediaFind) : Nat :=
  if fs.any fun f => f.ecc == .uncorrectable then 0 else if fs.any fun f => !f.macOk then 1 else 0

/-! ### What is written back together (R98) -/

/-- The newest data of a block's lines that Cirrus and the buffer hold beyond DRAM: buffered writebacks oldest first, then
DIRTY and PARTIAL ways. -/
def State.gather (s : State) (dpn b : Nat) : List Writeback :=
  let mine := fun (l : Nat) => l / 16 == dpn * 4 + b
  (s.cir.buffer.filter fun w => mine w.dpaLine) ++
    ((s.cir.ways.filter fun e => mine e.2.dpaLine && !(e.2.state == .clean)).map fun e =>
      ⟨e.2.dpaLine, e.2.data, if e.2.state = .partly then e.2.bvm else ByteMask.full, e.2.poison, e.2.mirror, false⟩)

/-- Bytes of a line that gathered writebacks cover. -/
def coverOf (gs : List Writeback) (l : Nat) : ByteMask :=
  gs.foldl (fun m w => if w.dpaLine = l then m ||| w.bvm else m) 0

/-- A line with the gathered bytes over it. -/
def overlayOf (gs : List Writeback) (l : Nat) (base : Line) : Line :=
  gs.foldl (fun d w => if w.dpaLine = l then d.merge w.data w.bvm else d) base

/-- The first buffered writeback of a line has left the buffer. -/
def dropFirst (l : Nat) : List Writeback → List Writeback
  | [] => []
  | w :: ws => if w.dpaLine = l then ws else w :: dropFirst l ws

/-- A way whose line has been written back is CLEAN with the line as written, HELD no more; one that waits for retirement
goes out of service (R98, R106, R112). -/
def State.cleanWay (s : State) (k : Nat) (data : Line) (poison : Bool) : State :=
  match s.way k with
  | none => s
  | some x =>
    let s := if x.held then s.subAt CIR_HOLDCFG.HELD 0 1 else s
    let s := s.setWay k { x with state := .clean, data := data, bvm := ByteMask.full, poison := poison, mirror := false
                                 held := false }
    if s.cir.retirePending.has k then s.dropWay k else s

/-- Gathered lines have been written, or cannot be: their buffer entries go and their ways become CLEAN. -/
def State.gathered (s : State) (dpn b : Nat) (lines : List Line) (poisoned : Nat → Bool) : State :=
  let mine := fun (l : Nat) => l / 16 == dpn * 4 + b
  let s := { s with cir := { s.cir with buffer := s.cir.buffer.filter fun w => !mine w.dpaLine } }
  (s.cir.ways.filter fun e => mine e.2.dpaLine && !(e.2.state == .clean)).foldl (fun s e =>
    s.cleanWay e.1 (lines.getD (e.2.dpaLine % 16) 0) (poisoned e.2.dpaLine)) s

/-! ### STRATUS (R98, R99) -/

/-- The line that a writeback stores: whole, merged over the DRAM copy, or poisoned where the merge fails (R99). The
Boolean is its poison. -/
def State.mergeLine (s : State) (w : Writeback) (stored : Nat) (f : MediaFind) : Line × Bool × State :=
  if w.bvm = ByteMask.full then (w.data, w.poison, s)
  else
    let fail := fun (s : State) (cause : Nat) =>
      let s := (s.salvage w.dpaLine w.data w.bvm cause).poisonLine w.dpaLine .internal (.stored stored)
      (w.data, true, s.wantRepair w.dpaLine (some (w.data, w.bvm)))
    if s.breached (w.dpaLine / 64) then fail s 1
    else
      match s.readMedia stored f.ecc (s.listed w.dpaLine) with
      | (.data l, s) => if f.macOk then (l.merge w.data w.bvm, w.poison, s) else fail s.macFail 1
      | (.poison, s) => (w.data, true, s)
      | (.bad, s) => if s.listed w.dpaLine then (w.data, true, s) else fail s 0

/-- Write one line back to a frame. None while its sealing waits for a counter value (R308). A covered DIRTY line of a breach
is discarded (R310). -/
def State.writeStratus (s : State) (w : Writeback) (mfn : Nat) (f : MediaFind) : Option (Line × Bool × State) :=
  let dpn := w.dpaLine / 64
  let i := w.dpaLine % 64
  if s.breached dpn && w.bvm == ByteMask.full then some (w.data, w.poison, s.inc SEC_ERRCNT.BREACHDROP)
  else
    let (l, poison, s) := s.mergeLine w (mfn * 64 + i) f
    match s.protectWrite dpn [i] with
    | none => none
    | some s => some (l, poison, (s.queueWrite (mfn * 64 + i) l poison w.dpaLine).markMove dpn [i])

/-! ### NIMBUS (R170, R176, R177, R180) -/

/-- Copy stored granules as they are, with their poison and their pending entries. -/
def State.copyGranules (s : State) (src dst : Nat) : Nat → State
  | 0 => s
  | n + 1 =>
    let s := s.storeLine dst (s.storedLine src) (s.dram.poisoned.has src)
    let m := s.med
    let s := match m.pending.find src with
      | some t => { s with med := { m with pending := (m.pending.erase src).put dst t } }
      | none => s
    let s := if m.coarse.has src then { s with med := { s.med with coarse := (s.med.coarse.remove src).add dst } } else s
    s.copyGranules (src + 1) (dst + 1) n

/-- The counts of a run with that of block `b` replaced. -/
def Location.setCount (l : Location) (heap b c : Nat) : Location :=
  match l with
  | .run _ c0 c1 c2 c3 =>
    .run heap (if b = 0 then c else c0) (if b = 1 then c else c1) (if b = 2 then c else c2) (if b = 3 then c else c3)
  | l => l

/-- Write the granules of a block. -/
def State.writeGranules (s : State) (l : Location) (b : Nat) (bytes : List Byte) : State :=
  let g := s.granuleLine (l.blockStart b)
  let s := { s with med := { s.med with coarse := s.med.coarse.remove g } }
  s.writeLines g (cutLines (l.blockCount b) bytes)

/-- Outcome of a writeback: written, or waiting for physical room (R664) or for a counter value (R308). -/
inductive Wrote where
  | done
  | waits
  | counter
  deriving DecidableEq, Repr

/-- A grown block takes its page to new granules (R176, R177). -/
def State.relocate (s : State) (dpn b : Nat) (f : FormedBlock) : Wrote × State :=
  let e := s.entry dpn
  let c := e.loc.blockCount b
  match s.drawSpace e.claim ((f.count - c) * 64) with
  | none =>
    let s := s.event Ev.allocFailures 0
    let gs := s.gather dpn b
    let g := s.granuleLine (e.loc.blockStart b)
    let s := (gs.map fun w => w.dpaLine).eraseDups.foldl (fun s l =>
      (s.poisonLine l .internal (.block g)).wantRepair l none) s
    let s := s.gathered dpn b (gs.foldl (fun ls w => ls.set (w.dpaLine % 16) w.data) (List.replicate 16 0)) fun _ => true
    (.done, s.dropTrace dpn ((gs.head?.map fun w => w.dpaLine % 64).getD 0))
  | some s1 =>
    match s1.writebackRun (s1.locationChannel e.loc) (e.loc.granules - c + f.count) with
    | none => (.waits, s)
    | some (h, s1) =>
      let new := e.loc.setCount h b f.count
      let s1 := (List.range 4).foldl (fun s i =>
        if i = b then s
        else s.copyGranules (s.granuleLine (e.loc.blockStart i)) (s.granuleLine (new.blockStart i)) (e.loc.blockCount i)) s1
      let s1 := s1.updateEntry dpn { e.bump with loc := new }
      match s1.protectWrite dpn ((List.range f.count).map fun i => 16 * b + i) with
      | none => (.counter, s)
      | some s1 =>
        let s1 := (s1.writeGranules new b f.bytes).freeLocation e.loc
        let s1 := (s1.setMove dpn fun m => { m with src := new }).markMove dpn ((List.range 16).map fun i => 16 * b + i)
        (.done, (s1.event Ev.relocations 0).event Ev.allocations 0)

/-- Store a block in its place (R176), or relocate it. -/
def State.storeBlock (s : State) (dpn b : Nat) (block : List Byte) (mismatch : Bool) : Wrote × State :=
  let e := s.entry dpn
  let c := e.loc.blockCount b
  let (f, s1) := if c = 16 then (rawBlock block, s) else s.compress dpn b block mismatch
  if f.count ≤ c then
    match s1.protectWrite dpn ((List.range c).map fun i => 16 * b + i) with
    | none => (.counter, s)
    | some s1 =>
      let s1 := s1.writeGranules e.loc b (if c = 16 then block else padBlock f block c)
      (.done, s1.markMove dpn ((List.range 16).map fun i => 16 * b + i))
  else
    match s1.relocate dpn b f with
    | (.done, s1) => (.done, s1)
    | (w, _) => (w, s)

/-- Write a block back with all its gathered lines (R98, R170, R180, R310). -/
def State.writeBlock (s : State) (dpn b : Nat) (fs : Finds) (mismatch : Bool) : Wrote × State :=
  let e := s.entry dpn
  let gs := s.gather dpn b
  let line := fun i => dpn * 64 + b * 16 + i
  let whole := (List.range 16).all fun i => coverOf gs (line i) == ByteMask.full
  let finds := fs.run (s.granuleLine (e.loc.blockStart b)) (e.loc.blockCount b)
  let coarse := s.coarseBlock e.loc b
  if coarse && decide (poisonCapacity ≤ s.poisonEntries) && !whole then
    (.done, (s.gathered dpn b (List.replicate 16 0) fun _ => true).inc MED_POISONSTAT.COARSEDROP)
  else if s.breached dpn && !whole then
    let s := gs.foldl (fun s w =>
      if w.bvm = ByteMask.full then s.inc SEC_ERRCNT.BREACHDROP
      else ((s.salvage w.dpaLine w.data w.bvm 1).poisonLine w.dpaLine .internal (s.linePlace w.dpaLine)).wantRepair
        w.dpaLine (some (w.data, w.bvm))) s
    (.done, s.gathered dpn b ((List.range 16).map fun i => overlayOf gs (line i) 0) fun l => s.listed l)
  else
    let read : Except DecodeFault (List Byte) × State := if whole then (Except.ok [], s)
      else match s.readBlock e.loc b finds (coarse || s.listed (line 0)) with
        | (none, s) => (Except.error DecodeFault.media, s)
        | (some img, s) => (decodeStored (e.loc.blockCount b) img, s)
    let s1 := match read with
      | (.ok _, s) => s
      | (.error k, s) =>
        let s := s.badBlock dpn b k.code
        let cause := if k = DecodeFault.media then mediaCause finds else 2
        gs.foldl (fun (s : State) (w : Writeback) =>
          if w.bvm = ByteMask.full then s
          else (s.salvage w.dpaLine w.data w.bvm cause).wantRepair w.dpaLine (some (w.data, w.bvm))) s
    let good := match read with
      | (.ok _, _) => true
      | (.error _, _) => false
    let old := match read with
      | (.ok bytes, _) => cutLines 16 bytes
      | (.error _, _) => []
    let lines := (List.range 16).map fun i =>
      if good || coverOf gs (line i) == ByteMask.full then overlayOf gs (line i) (old.getD i 0) else 0
    match s1.storeBlock dpn b (joinLines lines) mismatch with
    | (.waits, _) => (.waits, s)
    | (.counter, _) => (.counter, s)
    | (.done, s1) => (.done, s1.gathered dpn b lines fun l => s1.listed l)

/-! ### One line (R98, R111) -/

/-- A writeback's target cannot be reached: its channel is in FREEZE, or its counter nodes are (R111, R242). -/
def State.targetAway (s : State) (dpn : Nat) : Bool :=
  s.treeUnreachable dpn || match s.locationChannel (s.entry dpn).loc with
    | some c => !s.serving c
    | none => false

/-- A writeback that waits for physical room is counted once (R175, R664). -/
def State.waitForRoom (s : State) (dpaLine : Nat) : State :=
  match s.cir.buffer.find? fun w => w.dpaLine == dpaLine with
  | some w =>
    if w.waitsRoom then s
    else
      ({ s with cir := { s.cir with buffer := s.cir.buffer.map fun v =>
        if v = w then { v with waitsRoom := true } else v } }).startRoomWait
  | none => s

/-- The waiters of a block's buffered writebacks have found room. -/
def State.roomFound (s : State) (before : State) (dpn b : Nat) : State :=
  (before.cir.buffer.filter fun w => w.waitsRoom && w.dpaLine / 16 == dpn * 4 + b).foldl (fun s _ => s.endRoomWait) s

/-- Write back the line that a buffered entry, or else a way, holds (R98). Lines of a page whose REFETCH runs wait for its end,
so that the page is written with all its lines (R311; DEDUCED). -/
def State.writeBack (s : State) (dpaLine : Nat) (fs : Finds) (mismatch : Bool) : State :=
  let dpn := dpaLine / 64
  let e := s.entry dpn
  let entry := s.cir.buffer.find? fun w => w.dpaLine == dpaLine
  let unbuffered := { s with cir := { s.cir with buffer := dropFirst dpaLine s.cir.buffer } }
  let way := match entry, s.cirWay dpaLine with
    | none, some k => (s.way k).map fun x => (k, x)
    | _, _ => none
  let live := entry.isSome || (match way with
    | some (_, x) => !(x.state == .clean)
    | none => false)
  if !live || s.refetching dpn then s
  else if s.targetAway dpn then
    match entry, way with
    | some w, _ => unbuffered.returnHeld w
    | none, some (k, _) => s.holdWay k
    | none, none => s
  else
    match e.loc with
    | .nowhere => unbuffered
    | .frame mfn =>
      let w : Writeback := match entry, way with
        | some w, _ => w
        | none, some (_, x) =>
          ⟨x.dpaLine, x.data, if x.state = .partly then x.bvm else ByteMask.full, x.poison, x.mirror, false⟩
        | none, none => ⟨dpaLine, 0, 0, false, false, false⟩
      match s.writeStratus w mfn (fs.line (mfn * 64 + dpaLine % 64)) with
      | none => s.raise srcCtrExhaust
      | some (l, poison, s) =>
        let s := s.claimEvent Ev.writebacks 0 e.claim
        match way with
        | some (k, _) => s.cleanWay k l poison
        | none => { s with cir := { s.cir with buffer := dropFirst dpaLine s.cir.buffer } }
    | .run _ _ _ _ _ =>
      match s.writeBlock dpn (dpaLine % 64 / 16) fs mismatch with
      | (.done, s') => (s'.claimEvent Ev.writebacks 0 e.claim).roomFound s dpn (dpaLine % 64 / 16)
      | (.waits, s') => s'.waitForRoom dpaLine
      | (.counter, s') => s'.raise srcCtrExhaust

/-- CIRRUS_WRITEBACK (R98): the write path takes the line; `fs` gives what the reads of stored lines find, `mismatch` whether
the inline checker rejects the image (R164). -/
def execCirrusWriteback (dpaLine : Nat) (fs : Finds) (mismatch : Bool) (s : State) : Host.Outcome State Fault Refusal :=
  (s.writeBack dpaLine fs mismatch).done

/-- WRITEBACK_BUFFER_FREE (R97): an entry of the bank is free, and the allocations that waited for one go on, as every step's
settling lets them. -/
def execWritebackBufferFree (s : State) : Host.Outcome State Fault Refusal := s.done

/-! ### Flush (R113) -/

/-- A line is in the scope of the flush that CIR_FLUSH describes. -/
def State.flushScope (s : State) (dpaLine : Nat) : Bool :=
  !s.on CIR_FLUSH.SCOPE || s.inClaim (s.rd CIR_FLUSH.CLAIM) (dpaLine * 64)

/-- Lines of a scope that a flush writes back: buffered ones first, then DIRTY and PARTIAL ways that are not HELD. -/
def State.flushLines (s : State) (scope : Nat → Bool) : List Nat :=
  ((s.cir.buffer.map fun w => w.dpaLine).filter scope) ++
    ((s.cir.ways.filter fun e => scope e.2.dpaLine && !(e.2.state == .clean) && !e.2.held).map fun e => e.2.dpaLine)

/-- Write back a scope, and with `inval` drop its CLEAN lines that are not PINNED. Gives the lines left HELD. -/
def State.flush (s : State) (scope : Nat → Bool) (inval : Bool) (fs : Finds) : Nat × State :=
  let lines := s.flushLines scope
  let s := lines.foldl (fun s l => s.takeUnits masterService 1 |>.writeBack l fs false) s
  let left := (s.cir.ways.filter fun e => scope e.2.dpaLine && e.2.held).length
  let drop := if inval then
      (s.cir.ways.filter fun e => scope e.2.dpaLine && e.2.state == .clean && !e.2.pinned).map Prod.fst
    else []
  (left, drop.foldl State.dropWay s)

/-- CIR_FLUSH_START (R113): a write of CIR_FLUSH with START 1. While START is 1 the write is ignored. -/
def execCirFlushStart (v : Nat) (s : State) : Host.Outcome State Fault Refusal :=
  if s.on CIR_FLUSH.START then .next s
  else
    let s := s.storeFields [CIR_FLUSH.INVAL, CIR_FLUSH.SCOPE, CIR_FLUSH.CLAIM] 0 v
    .next (s.put CIR_FLUSH.START true)

/-- FLUSH_END (R113): every write of the scope is in DRAM but those of HELD lines. -/
def execFlushEnd (fs : Finds) (s : State) : Host.Outcome State Fault Refusal :=
  if s.on CIR_FLUSH.START then
    let (left, s) := s.flush s.flushScope (s.on CIR_FLUSH.INVAL) fs
    ((s.wr CIR_FLUSH.LEFTHELD left).put CIR_FLUSH.START false).done
  else .next s

/-! ### Excursion sweep (R114) -/

/-- Start the excursion sweep. -/
def State.startSweep (s : State) (byGuard : Bool) : State :=
  ({ s with cir := { s.cir with sweep := some { byGuard := byGuard } } }).put CIR_SWEEP.START true

/-- CIR_SWEEP_START (R114). A sweep that runs goes on. -/
def execCirSweepStart (s : State) : Host.Outcome State Fault Refusal :=
  .next (if s.on CIR_SWEEP.START then s else s.startSweep false)

/-- An excursion sweep has checked the dirty lines (R114). -/
def State.endExcursion (s : State) (w : Sweep) (finds : List (Nat × CirrusFind)) : State :=
  let s := finds.foldl (fun s f =>
    match s.cirWay f.1 with
    | none => s
    | some k =>
      match s.way k with
      | none => s
      | some x =>
        if x.state = .clean then s
        else
          let s := (s.checkWay k f.2).2
          match f.2.data, s.cir.sweep with
          | .corrected _, some w => { s with cir := { s.cir with sweep := some { w with corrected := w.corrected + 1 } } }
          | .uncorrectable, some w => { s with cir := { s.cir with sweep := some { w with poisoned := w.poisoned + 1 } } }
          | _, _ => s) s
  let (corr, bad) := match s.cir.sweep with
    | some w => (w.corrected, w.poisoned)
    | none => (0, 0)
  let s := ({ s with cir := { s.cir with sweep := none } }).put CIR_SWEEP.START false
  ((s.put CIR_SWEEP.CAUSE w.byGuard).wr CIR_SWEEP.CORR (min corr 0xFFFF)).wr CIR_SWEEP.UNCORR (min bad 0xFFFF)

/-- EXCURSION_SWEEP_END (R114): every set has been visited; `finds` gives what the sweep found, by line. CLEAN lines are not
checked. -/
def execExcursionSweepEnd (finds : List (Nat × CirrusFind)) (s : State) : Host.Outcome State Fault Refusal :=
  match s.cir.sweep with
  | none => .next s
  | some w =>
    (s.endExcursion w finds).done

end Sys2Proof.Machine
end

