-- ==== Sys2Proof/Machine/ChannelCmds.lean ====
section
/-! DEFINITION. Events and commands of the DRAM channels (08_dram_channels.md): training (R237, R238), the channel commit
(R248, R510) and background initialization (R230), read data (R231), panic, refresh, temperature and power-down (R233–R236),
freeze and release (R239–R244, R663), and sparing (R245). -/

namespace Sys2Proof.Machine

/-! ### Start-up stages (R508, R522) -/

/-- SYS_BOOT.STAGE codes. -/
def stageZenith : Nat := 2
def stageHorizon : Nat := 3
def stageTraining : Nat := 4
def stageMemActive : Nat := 5
def stageEnabled : Nat := 6
def stageWarm : Nat := 7

/-- STAGE shows the last stage reached: it only rises (DEDUCED, since training and Horizon's start overlap). -/
def State.advanceStage (s : State) (n : Nat) : State :=
  if s.rd SYS_BOOT.STAGE < n then s.wr SYS_BOOT.STAGE n else s

/-! ### The channel commit (R221–R223, R248) -/

/-- Rows of a channel's DIMMs: none for an SPD that cannot be read or that is not in the table. -/
def Channel.rows (x : Channel) : List (Option Nat) := x.dimms.map fun d => d.row

/-- Highest speed of a DIMM row for a number of DIMMs; 0 where it is not supported. -/
def rowLimit (row dimms : Nat) : Nat :=
  match dimmRows[row]? with
  | some r => if dimms = 1 then r.max1 else if dimms = 2 then r.max2 else 0
  | none => 0

/-- Highest speed for a channel's population. -/
def Channel.limit (x : Channel) : Nat :=
  match x.dimms.head?.bind fun d => d.row with
  | some r => rowLimit r x.dimms.length
  | none => 0

/-- The speed that SPEED selects for a channel: AUTO takes the limit (R223). -/
def State.speedFor (s : State) (c : Nat) : Nat :=
  if s.rd DMC_CFG.SPEED = 0 then (s.chan c).limit else speedBin (s.rd DMC_CFG.SPEED)

/-- A speed is a bin of a row's type (R221). -/
def rowBin (row speed : Nat) : Bool :=
  match dimmRows[row]? with
  | some r => if r.mrdimm then [8800, 12800].contains speed else [4800, 5600, 6400, 7200, 8000, 8800].contains speed
  | none => false

/-- SPEED suits the channel: within the limit, a bin, and the rate at which it trained, if it has (R248, code 0x64). -/
def State.speedOk (s : State) (c : Nat) : Bool :=
  let x := s.chan c
  let v := s.speedFor c
  let row := (x.dimms.head?.bind fun d => d.row).getD 10
  decide (v ≤ x.limit) && rowBin row v && (!s.onAt DMC_CHSTAT.TRAINED c || x.trainedSpeed == v)

/-- Populated channels that EXCLUDE does not name. -/
def State.inService (s : State) (c : Nat) : Bool := s.populated c && !bit (s.rd DMC_CFG.EXCLUDE) c

/-- The channel commit check (R248). -/
def State.channelCheck (s : State) : Nat :=
  let chs := (List.range 16).filter s.inService
  let pairs := (List.range 8).map fun k => (s.inService (2 * k), s.inService (2 * k + 1))
  let spares := chs.filter s.spareMode
  let first := (chs.head?.map fun c => (s.chan c).rows).getD []
  let metaOk := fun c => s.inService c && s.spareMode c
  firstCode [
    (!pairs.any fun p => p.1 && p.2, 0x60),
    (pairs.any fun p => p.1 != p.2, 0x61),
    (chs.any fun c => (s.chan c).rows.any (fun r => rowLimit (r.getD 10) (s.chan c).dimms.length == 0), 0x62),
    (chs.any fun c => (s.chan c).rows != first || (s.chan c).rows.any fun r => r != first.headD none, 0x63),
    (chs.any fun c => !s.speedOk c, 0x64),
    (chs.any fun c => !s.onAt DMC_CHSTAT.TRAINED c, 0x65),
    (spares.any fun c => decide (s.rdAt DMC_CHSTAT.RANKS c < 2), 0x66),
    (decide (spares.length < 2) || decide (4 < spares.length), 0x67),
    (s.rd DMC_METACFG.PRIMARY == s.rd DMC_METACFG.SECONDARY || !metaOk (s.rd DMC_METACFG.PRIMARY) ||
      !metaOk (s.rd DMC_METACFG.SECONDARY), 0x68)]

/-- Bytes of one half of the system metadata area (R247). -/
def metadataHalf : Nat := 512 * 2 ^ 20

/-- The two halves of the system metadata area come to, or leave, their channels. -/
def State.holdHalves (s : State) (take : Bool) : State :=
  [s.rd DMC_METACFG.PRIMARY, s.rd DMC_METACFG.SECONDARY].foldl (fun s c =>
    let ch := s.chan c
    s.setChan c { ch with metaBytes := if take then ch.metaBytes + metadataHalf else ch.metaBytes - metadataHalf }) s

/-- The channels are committed: Memory_Active is set, spares are ready, and background initialization starts (R248, R230,
R510). -/
def State.commitChannels (s : State) : State :=
  let s := ((s.put DMC_COMMIT.COMMIT true).put SYS_BOOT.MEMACTIVE true).advanceStage stageMemActive
  let s := ((List.range 16).filter fun c => s.populated c && s.spareMode c).foldl (fun s c =>
    if s.rdAt DMC_CHSTAT.SPARESTAT c = 0 then s.wrAt DMC_CHSTAT.SPARESTAT c spareReady else s) s
  let s := (s.wr DMC_INITSTAT.PCT 0).put DMC_INITSTAT.DONE false
  ({ s with dram := { s.dram with init := { running := true, next := 0 } } }.holdHalves true).accounts

/-- A write of 1 to COMMIT: the check, and the commit where it passes (R248). A commit that holds stays (DEDUCED). -/
def State.askChannels (s : State) : State :=
  if s.on DMC_COMMIT.COMMIT then s
  else
    let code := s.channelCheck
    let s := s.wr DMC_COMMIT.CHECK code
    if code = 0 then s.commitChannels else s

/-- CHANNEL_COMMIT (R248): a write of 1 to DMC_COMMIT.COMMIT. -/
def execChannelCommit (s : State) : Host.Outcome State Fault Refusal := s.askChannels.done

/-- A write of 0 to COMMIT (R248). -/
def State.uncommitChannels (s : State) : State :=
  if s.on SYS_CTL.DEV_ENABLE || !s.on DMC_COMMIT.COMMIT then s
  else
    let s := { s with dram := { s.dram with init := { s.dram.init with running := false } } }
    ((s.holdHalves false).put SYS_BOOT.MEMACTIVE false).put DMC_COMMIT.COMMIT false

/-- CHANNEL_UNCOMMIT (R248): a write of 0 to DMC_COMMIT.COMMIT. -/
def execChannelUncommit (s : State) : Host.Outcome State Fault Refusal := s.uncommitChannels.done

/-- Horizon commits the channels after training, where AUTOCOMMIT is set (R508 step 10, R510). -/
def State.autoCommit (s : State) : State :=
  let ended := (List.range 16).all fun c =>
    !s.populated c || s.onAt DMC_CHSTAT.TRAINED c || s.onAt DMC_TRAIN.FAIL c
  if s.chip.autocommit && s.on ENG_STAT.HORIZON_UP && ended && (List.range 16).any s.populated then s.askChannels else s

/-! ### Background initialization (R230) -/

/-- Regions of a channel. -/
def State.regionsOf (s : State) (c : Nat) : Nat :=
  match s.geometry c with
  | some g => g.bytes / 2 ^ 21
  | none => 0

/-- The populated channels. -/
def State.channelList (s : State) : List Nat := (List.range 16).filter s.populated

/-- Regions in all. -/
def State.regionTotal (s : State) : Nat := (s.channelList.map s.regionsOf).sum

/-- Channel and region of a position in the order of initialization: region by region, over the channels. -/
def State.regionAt (s : State) (k : Nat) : Nat × Nat :=
  let chs := s.channelList
  (chs.getD (k % chs.length) 0, k / chs.length)

/-- A region has been initialized. -/
def State.regionDone (s : State) (c r : Nat) : Bool :=
  s.on DMC_INITSTAT.DONE || decide (r * s.channelList.length + s.channelList.idxOf c < s.dram.init.next)

/-- No use covers a frame of a channel. -/
def State.frameFree (s : State) (c f : Nat) : Bool :=
  !(s.usesOn c).any fun u => decide (u.1 ≤ f) && decide (f < u.1 + u.2)

/-- The line belongs to a free frame of a region not yet initialized: nothing has written it (R230, R268). -/
def State.unwritten (s : State) (line : Nat) : Bool :=
  let c := lineChannel line
  let f := line % 2 ^ 34 / 64
  s.frameFree c f && !s.regionDone c (f / 512)

/-- Background initialization zeroes its next region (R230). -/
def State.initRegion (s : State) : State :=
  let k := s.dram.init.next
  let total := s.regionTotal
  let (c, r) := s.regionAt k
  let s := if s.frozen c then s
    else
      match s.geometry c with
      | none => s
      | some g =>
        let fs := ((List.range 512).map fun i => r * 512 + i).filter fun f => g.frameOk f && s.frameFree c f
        fs.foldl (fun s f => s.zeroLines (c * 2 ^ 34 + f * 64) 64) (s.takeUnits masterService (fs.length * 64))
  let fin := decide (total ≤ k + 1)
  let s := { s with dram := { s.dram with init := { running := !fin, next := k + 1 } } }
  (s.wr DMC_INITSTAT.PCT (if total = 0 then 100 else 100 * (k + 1) / total)).put DMC_INITSTAT.DONE fin

/-- BACKGROUND_INITIALIZATION (R230): the next region's free frames are written with zeros. A region of a channel in FREEZE is
passed over (DESIGN CHOICE). -/
def execBackgroundInitialization (s : State) : Host.Outcome State Fault Refusal :=
  if !s.dram.init.running then .next s
  else if s.panicHolds masterService (s.regionAt s.dram.init.next).1 then (s.holdUnits masterService 1).done
  else
    s.initRegion.done

/-! ### Read data (R231, R99, R453) -/

/-- A read whose stored line gives nothing: the partner's copy, or poison. -/
def State.readFailed (s : State) (r : OpenReq) (overlay : Option (Line × ByteMask)) : State :=
  match s.peerFetch ⟨r.dpaLine, some r.id, overlay⟩ with
  | (true, s) => s.waitAt r.id .room
  | (false, s) => s.completePoison r

/-- The bytes of a line that Cirrus or the writeback buffer holds beside DRAM. -/
def State.heldBytes (s : State) (dpaLine : Nat) : Option (Line × ByteMask) :=
  match s.cirLine dpaLine with
  | some x => if x.state = .partly then some (x.data, x.bvm) else none
  | none => (s.buffered dpaLine).map fun w => (w.data, w.bvm)

/-- A merge-read whose DRAM copy cannot be read (R99): the host's bytes are salvaged, and the line stays DIRTY and
poisoned. -/
def State.mergeFailed (s : State) (dpaLine : Nat) (cause : Nat) : State :=
  match s.heldBytes dpaLine with
  | none => s
  | some (d, m) =>
    let s := s.salvage dpaLine d m cause
    match s.cirWay dpaLine with
    | none => s
    | some k =>
      match s.way k with
      | some x => if x.state = .partly then s.setWay k { x with state := .dirty, bvm := ByteMask.full, poison := true } else s
      | none => s

/-- A Stratus read's data returns from its channel. -/
def State.dataReturned (s : State) (r : OpenReq) (mfn : Nat) (f : MediaFind) : State :=
  let line := mfn * 64 + r.dpaLine % 64
  let held := s.heldBytes r.dpaLine
  let lost := fun (s : State) (cause : Nat) =>
    let s := s.poisonLine r.dpaLine .internal (.stored line)
    (if held.isSome then s.mergeFailed r.dpaLine cause else s).readFailed r held
  match s.readMedia line f.ecc (s.listed r.dpaLine) with
  | (.poison, s) =>
    let s := s.settlePending line r.dpaLine
    ((if held.isSome then s else s.cirFill r.dpaLine (s.storedLine line) true .recent)).completePoison r
  | (.bad, s) => lost s 0
  | (.data l, s) =>
    if !f.macOk then (if held.isSome then lost s.macFail 1 else s.macFail.readFailed r none)
    else
      let d := overlayOf s.cir.buffer r.dpaLine l
      let s := (s.cirFill r.dpaLine d false .recent).heat (r.dpaLine / 64) (s.policy PLC_HEATCFG.RD)
      let out := match s.cirLine r.dpaLine with
        | some x => (x.data, x.poison)
        | none => (d, false)
      if out.2 then s.completePoison r else s.complete r out.1 false outStratus

/-- DRAM_DATA_RETURN (R231): the data of open request `id` returns, and its check finds `f`. -/
def execDramDataReturn (id : Nat) (f : MediaFind) (s : State) : Host.Outcome State Fault Refusal :=
  match s.req id with
  | none => .next s
  | some r =>
    if r.stage != .dram || !isRead r.op then .next s
    else
      let s := { s with dram := { s.dram with master := r.link } }
      let whole := match s.cirLine r.dpaLine with
        | some x => x.state != .partly
        | none => match s.buffered r.dpaLine with
          | some w => w.bvm == ByteMask.full
          | none => false
      match (s.entry (r.dpaLine / 64)).loc with
      | .frame mfn => if whole || s.listed r.dpaLine then (s.attempt id {}).done else (s.dataReturned r mfn f).done
      | _ => (s.attempt id {}).done

/-! ### Panic, refresh, temperature, power-down (R233–R236) -/

/-- PANIC_WAIT_EXPIRY (R233): an urgent read of channel `c` has waited PANIC_WAIT, or its write queue has reached WQ_PANIC. -/
def execPanicWaitExpiry (c : Nat) (read : Bool) (s : State) : Host.Outcome State Fault Refusal :=
  let ch := s.chan c
  let s' := s.setChan c (if read then { ch with panicRead := true } else { ch with panicWrite := true })
  ((if ch.panic then s' else s'.event Ev.panics c).showPanic c true).done

/-- PANIC_END (R233): both causes have cleared for 1 µs. -/
def execPanicEnd (c : Nat) (s : State) : Host.Outcome State Fault Refusal :=
  ((s.setChan c { s.chan c with panicRead := false, panicWrite := false }).showPanic c false).done

/-- No field of a media address. -/
def noAddr : MediaAddr := ⟨0, 0, 0, 0, 0, 0⟩

/-- REFRESH (R233, R234): a refresh interval of channel `c` ends. In panic it is postponed, at most 4 times in a row. -/
def execRefresh (c : Nat) (s : State) : Host.Outcome State Fault Refusal :=
  let ch := s.chan c
  if ch.selfRefresh || !s.populated c then .next s
  else if ch.panic && decide (ch.refreshDebt < 4) then
    .next ((s.setChan c { ch with refreshDebt := ch.refreshDebt + 1 }).event Ev.postponements c)
  else
    let same := s.rdAt DMC_CHCFG.REFMODE c == 2
    let rows := if same then ch.openRows.filter fun e => e.1 % 4 != ch.refreshes % 4 else []
    let s := s.setChan c { ch with refreshDebt := 0, refreshes := ch.refreshes + ch.refreshDebt + 1, openRows := rows }
    .next (s.recordCmd c (if same then cmdRefSb else cmdRefAb) noAddr 0 0 15)

/-- The throttle point in force (R252). -/
def State.dimmThrottle (s : State) : Nat :=
  if s.rd DMC_THERM.CRIT ≤ s.rd DMC_THERM.THROTTLE then s.rd DMC_THERM.CRIT - 5 else s.rd DMC_THERM.THROTTLE

/-- Every DIMM of the channel is at or below THROTTLE − 5 °C. -/
def State.dimmsCool (s : State) (c : Nat) : Bool :=
  decide (s.rdAt DMC_TEMP.DIMM0 c ≤ s.dimmThrottle - 5) && decide (s.rdAt DMC_TEMP.DIMM1 c ≤ s.dimmThrottle - 5)

/-- A run-time row repair is at work on the channel (R274). -/
def State.repairBusy (s : State) (c : Nat) : Bool :=
  s.on MED_PPRSTAT.BUSY && s.rd MED_PPRCTL.CHANNEL == c

/-- A release is accepted (R243 step 1): the recorded UE lines are written poisoned first (R278). -/
def State.acceptRelease (s : State) (c : Nat) : State :=
  let ch := s.chan c
  let s := { s with dram := { s.dram with poisoned := ch.ueLines.foldl (fun t l => NSet.add t l) s.dram.poisoned } }
  let s := s.setChan c { ch with selfRefresh := false, releaseWaits := false, ueLines := [] }
  let s := if ch.selfRefresh then s.recordCmd c cmdSrx noAddr 0 0 15 else s
  (s.putAt DMC_CHSTAT.RELREFUSED c false).putAt DMC_CHSTAT.RELEASING c true

/-- A release is asked for (R243, R244, R274, R663). The Boolean says whether KEPT allows it. -/
def State.askChannelRelease (s : State) (c : Nat) : State :=
  if !s.frozen c || s.onAt DMC_CHSTAT.RELEASING c then s
  else if !s.onAt DMC_CHSTAT.KEPT c then s.putAt DMC_CHSTAT.RELREFUSED c true
  else
    let s := s.putAt DMC_FRZCTL.RELEASE c true
    if s.repairBusy c || ((s.chan c).selfRefresh && !s.dimmsCool c) then
      s.setChan c { s.chan c with releaseWaits := true }
    else s.acceptRelease c

/-- A release that waits goes on when nothing holds it any more. -/
def State.retryRelease (s : State) (c : Nat) : State :=
  if (s.chan c).releaseWaits && !s.repairBusy c && (!(s.chan c).selfRefresh || s.dimmsCool c) then s.acceptRelease c else s

/-- The two DIMM sensors of a channel are read (R235). -/
def State.takeTemps (s : State) (c t0 t1 : Nat) : State :=
  let s := (s.wrAt DMC_TEMP.DIMM0 c t0).wrAt DMC_TEMP.DIMM1 c t1
  let s := s.setChan c { s.chan c with hotRefresh := decide (85 < max t0 t1) }
  let hot := decide (s.dimmThrottle ≤ max t0 t1)
  let s := if hot && !s.onAt DMC_CHSTAT.THROTTLED c then (s.putAt DMC_CHSTAT.THROTTLED c true).raise (49 + 2 * c)
    else if s.dimmsCool c then s.putAt DMC_CHSTAT.THROTTLED c false
    else s
  if s.rd DMC_THERM.CRIT ≤ max t0 t1 then s.noteFreeze c causeTHERMAL
  else if !s.dimmsCool c then s
  else if s.frozen c && s.onAt DMC_CHSTAT.KEPT c && !s.onAt DMC_CHSTAT.RELEASING c &&
      s.rdAt DMC_CHSTAT.FRZCAUSE c == causeTHERMAL then (s.acceptRelease c)
  else
    let s := s.retryRelease c
    let ch := s.chan c
    let s := if s.frozen c && ch.selfRefresh then (s.setChan c { ch with selfRefresh := false }).recordCmd c cmdSrx noAddr 0 0 15
      else s
    s

/-- DIMM_TEMPERATURE_READ (R235, R243, R663): the sensors of channel `c` read `t0` and `t1`, 0 for an empty slot. -/
def execDimmTemperatureRead (c t0 t1 : Nat) (s : State) : Host.Outcome State Fault Refusal :=
  (s.takeTemps c t0 t1).done

/-- POWER_DOWN_ENTRY (R236): a rank has received no command for PDTIMER. -/
def execPowerDownEntry (c rank : Nat) (s : State) : Host.Outcome State Fault Refusal :=
  let ch := s.chan c
  if s.rd DMC_PWR.PDTIMER = 0 ∨ ch.selfRefresh ∨ ch.poweredDown.has rank ∨ s.rdAt DMC_CHSTAT.RANKS c ≤ rank then .next s
  else
    let rows := ch.openRows.filter fun e => e.1 / 64 != rank
    let s := s.setChan c { ch with poweredDown := ch.poweredDown.add rank, openRows := rows }
    .next ((s.recordCmd c cmdPde { noAddr with rank := rank } 0 0 15).event Ev.powerDowns c)

/-! ### PLLs and training (R237, R238, R508) -/

/-- DRAM_PLL_LOCK (R508 step 7): the PLL of channel pair `k` locks, and training starts on its channels. -/
def execDramPllLock (k : Nat) (s : State) : Host.Outcome State Fault Refusal :=
  .next ((s.wr CLK_STAT.DRAM (setBit (s.rd CLK_STAT.DRAM) k true)).advanceStage stageTraining)

/-- Rows of the repair list that name a channel. -/
def State.repairRows (s : State) (c : Nat) : List RepairRow := s.med.repairList.filter fun r => r.channel == c

/-- Training has passed: TRAINED is set and the results are stored (R237 step 9). -/
def State.trainingPassed (s : State) (c : Nat) : State :=
  let ch := s.chan c
  let v := s.speedFor c
  let s := s.setChan c { ch with trainedSpeed := v }
  let s := { s with chip := { s.chip with repairing := s.chip.repairing.remove c
                                          training := s.chip.training.put c (ch.dimms.map (fun (d : Dimm) => d.serial), v) } }
  ((s.putAt DMC_CHSTAT.TRAINED c true).wrAt DMC_TRAIN.PHASE c 9).autoCommit

/-- Repair rows whose DIMM is no longer there leave the list unapplied (R273). -/
def State.dropStale (s : State) (c : Nat) : State :=
  let serials := (s.chan c).dimms.map fun (d : Dimm) => d.serial
  { s with med := { s.med with repairList := s.med.repairList.filter fun (r : RepairRow) =>
      r.channel != c || serials.contains r.serial } }

/-- TRAINING_STEP_END (R237, R238): a training step ends on channel `c`. -/
def execTrainingStepEnd (c : Nat) (t : TrainStep) (s : State) : Host.Outcome State Fault Refusal :=
  if !bit (s.rd CLK_STAT.DRAM) (c / 2) || s.onAt DMC_CHSTAT.TRAINED c || s.onAt DMC_TRAIN.FAIL c then .next s
  else
    let phase := s.rdAt DMC_TRAIN.PHASE c
    match t with
    | .spd dimms =>
      if phase ≠ 0 ∨ dimms = [] ∨ bit (s.rd DMC_CFG.EXCLUDE) c then .next s
      else
        let s := s.setChan c { s.chan c with dimms := dimms }
        let ranks := match s.geometry c with
          | some g => g.ranks
          | none => 0
        .next (((s.putAt DMC_CHSTAT.POP c true).wrAt DMC_CHSTAT.RANKS c ranks).wrAt DMC_TRAIN.PHASE c 1)
    | .passed step ms =>
      if phase = 0 ∨ step ≠ phase + 1 ∨ 8 < step then .next s
      else
        let s := (s.wrAt DMC_TRAIN.PHASE c step).wrAt DMC_TRAIN.DURATION c ms
        if step < 8 then .next s
        else
          let s := s.dropStale c
          if (s.repairRows c).isEmpty then (s.trainingPassed c).done
          else .next { s with chip := { s.chip with repairing := s.chip.repairing.add c } }
    | .failed step rank ms =>
      if phase = 0 then .next s
      else
        let s := ((s.wrAt DMC_TRAIN.PHASE c step).wrAt DMC_TRAIN.FAILRANK c rank).wrAt DMC_TRAIN.DURATION c ms
        ((s.putAt DMC_TRAIN.FAIL c true).raise (49 + 2 * c)).autoCommit.done
    | .stored ok =>
      let same := s.chip.training.find c == some ((s.chan c).dimms.map (fun (d : Dimm) => d.serial), s.speedFor c)
      if phase = 3 && same && ok then .next ((s.wrAt DMC_TRAIN.PHASE c 7).putAt DMC_TRAIN.FAST c true) else .next s

/-! ### CA parity (R239) -/

/-- CA_PARITY_ERROR (R239): `retries` retries of a command met a CA parity error; the third in a row freezes the channel. -/
def execCaParityError (c retries : Nat) (s : State) : Host.Outcome State Fault Refusal :=
  let s := s.addAt DMC_ERRCNT.CAPAR c (min retries 3)
  (if 3 ≤ retries then s.noteFreeze c causeCAPAR else s).done

/-! ### Release (R243) -/

/-- DMC_FRZCTL_RELEASE (R243, R244): a write of 1 to DMC_FRZCTLn.RELEASE. -/
def execDmcFrzctlRelease (c : Nat) (s : State) : Host.Outcome State Fault Refusal := (s.askChannelRelease c).done

/-- One copy of the map takes units of the other: those of a list, or all (R243 step 3). -/
def State.rebuildCopy (s : State) (k : Copy) (units : Option (List Nat)) : State :=
  let mine := fun (dpn : Nat) =>
    match units with
    | some us => us.contains (dpn / 512)
    | none => true
  let mixed := fun (old new : Table Nat) =>
    (new.filter fun e => mine e.1).foldl (fun t e => Table.put t e.1 e.2) (old.filter fun e => !mine e.1)
  match k with
  | .primary => { s with map := { s.map with primary := mixed s.map.primary s.map.secondary } }
  | .secondary => { s with map := { s.map with secondary := mixed s.map.secondary s.map.primary } }

/-- The metadata of a channel is brought up to date from the other copy (R243 step 3). -/
def State.rebuildMeta (s : State) (c : Nat) : State :=
  let units := if s.onAt DMC_CHSTAT.STALEFULL c then none else some (s.chan c).stale
  let s := if s.copyChannel .primary = c then s.rebuildCopy .primary units else s
  let s := if s.copyChannel .secondary = c then s.rebuildCopy .secondary units else s
  s.setChan c { s.chan c with stale := [] }

/-- HELD lines whose pages lie on a channel. -/
def State.heldFor (s : State) (c : Nat) : List Nat :=
  (s.cir.ways.filter fun e => e.2.held && s.locationChannel (s.entry (e.2.dpaLine / 64)).loc == some c).map fun e =>
    e.2.dpaLine

/-- The held lines of a released channel are written, and it serves again (R244). -/
def State.endChannelRelease (s : State) (c : Nat) (fs : Finds) : State :=
  let s := (s.heldFor c).foldl (fun s l => s.writeBack l fs false) s
  if (s.chan c).freezeDue.isSome then s
  else
    let s := s.rebuildMeta c
    let s := ((s.putAt DMC_CHSTAT.FROZEN c false).putAt DMC_CHSTAT.RELEASING c false).putAt DMC_CHSTAT.STALEFULL c false
    let s := s.putAt DMC_FRZCTL.RELEASE c false
    { s with map := { s.map with frozenOut := s.map.frozenOut.erase c } }.accounts

/-- CHANNEL_RELEASE_END (R243 steps 2 to 4): the HELD lines are written back, the metadata is rewritten, and the channel
serves again. -/
def execChannelReleaseEnd (c : Nat) (fs : Finds) (s : State) : Host.Outcome State Fault Refusal :=
  if !s.onAt DMC_CHSTAT.RELEASING c then .next s
  else
    (s.endChannelRelease c fs).done

/-! ### Sparing (R245) -/

/-- Index of the spare rank. -/
def State.spareRank (s : State) (c : Nat) : Nat := s.rdAt DMC_CHSTAT.RANKS c - 1

/-- Start sparing of a rank where SPARESTAT is READY and it is not the spare. -/
def State.askSparing (s : State) (c rank : Nat) : State :=
  if s.rdAt DMC_CHSTAT.SPARESTAT c = spareReady ∧ rank < s.spareRank c then s.startSparing c rank else s

/-- Sparing of the rank in DMC_SPARECTL is asked for; START reads 1 while it copies (R245, R253). -/
def State.askSpareRank (s : State) (c : Nat) : State :=
  let s := s.askSparing c (s.rdAt DMC_SPARECTL.RANK c)
  if s.rdAt DMC_CHSTAT.SPARESTAT c = spareCopying then s.putAt DMC_SPARECTL.START c true else s

/-- DMC_SPARECTL_START (R245): `v` is written to DMC_SPARECTLn with START 1. -/
def execDmcSparectlStart (c v : Nat) (s : State) : Host.Outcome State Fault Refusal :=
  .next ((s.storeFields [DMC_SPARECTL.RANK] c v).askSpareRank c)

/-- Line number within the channel of the `k`-th line of a rank. -/
def Geometry.rankLine (g : Geometry) (rank k : Nat) : Nat :=
  let low := 2 ^ (g.bits.takeWhile fun b => !(b.1 == .rank)).length
  k / low * (low * g.ranks) + rank * low + k % low

/-- The sparing copy ends: the rank's index maps to the spare, and its device marks are cleared (R245, R259). -/
def State.endSparing (s : State) (c rank : Nat) : State :=
  let s := (s.wrAt DMC_CHSTAT.SPARESTAT c spareUsed).putAt DMC_SPARECTL.START c false
  (((s.setMark c rank 0 15).setMark c rank 1 15).wrAt DMC_CHSTAT.RETIRED c rank).raise (49 + 2 * c)

/-- Sparing copies the next line of the retired rank (R246). -/
def State.spareStep (s : State) (c : Nat) (g : Geometry) (f : Ecc) : State :=
  let rank := s.rdAt DMC_CHSTAT.RETIRED c
  let k := (s.chan c).sparePos
  let line := c * 2 ^ 34 + g.rankLine rank k
  let s := if s.unwritten line then s
    else
      match (s.takeUnits masterService 1).readMedia line f (s.med.pending.find line).isSome with
      | (.bad, s) => (s.poisonPending line).issue line cmdWr 0
      | (_, s) => s.issue line cmdWr 0
  let s := (s.setChan c { s.chan c with sparePos := k + 1 }).wrAt DMC_CHSTAT.SPARECUR c ((k + 1) / 64)
  if g.rankBytes / 64 ≤ k + 1 then s.endSparing c rank else s

/-- SPARING_COPY (R245): the copy moves its next line, whose read finds `f`. A line that nothing has written is skipped; the
copy stands still while the channel is in FREEZE. -/
def execSparingCopy (c : Nat) (f : Ecc) (s : State) : Host.Outcome State Fault Refusal :=
  match s.geometry c with
  | none => .next s
  | some g =>
    if s.rdAt DMC_CHSTAT.SPARESTAT c ≠ spareCopying ∨ s.frozen c then .next s
    else if s.panicHolds masterService c then (s.holdUnits masterService 1).done
    else
      (s.spareStep c g f).done

end Sys2Proof.Machine
end

