-- ==== Sys2Proof/Machine/MediaCmds.lean ====
section
/-! DEFINITION. Range scrub (R268–R272) and row repair (R273–R275). -/

namespace Sys2Proof.Machine

/-! ### The summary record (R270) -/

/-- STATUS codes of a summary. -/
def scrubComplete : Nat := 0
def scrubStopped : Nat := 1
def scrubInvalid : Nat := 2

/-- The 128 bytes of a summary. -/
def ScrubSummary.bytes (x : ScrubSummary) : List Byte :=
  let w := x.scrub
  let ues := w.ueAddr.take 8
  let flags := flag w.logical + 2 * flag w.verify + 4 * ues.length + 64 * x.status
  toBytes w.startTs 8 ++ toBytes x.endTs 8 ++ toBytes w.lines 8 ++ toBytes w.skipped 8 ++ toBytes w.ce 4 ++ toBytes w.ue 4 ++
    toBytes w.poisoned 4 ++ toBytes flags 4 ++ ((List.range 8).flatMap fun k => toBytes (ues.getD k 0) 8) ++ toBytes 0 16

/-! ### Starting and ending a scrub (R268–R270) -/

/-- The range of a request is one that R270 accepts. -/
def State.scrubRangeOk (s : State) (logical : Bool) (channel start len : Nat) : Bool :=
  start % 4096 == 0 && len % 4096 == 0 &&
  (if logical then len != 0 && decide (start + len ≤ s.dpaCap)
   else s.populated channel && match s.geometry channel with
    | some g => decide (start + len ≤ g.bytes) && decide (start < g.bytes)
    | none => false)

/-- End of a request's range: length 0 means to the end of the channel in physical scope (R283). -/
def State.scrubEnd (s : State) (logical : Bool) (channel start len : Nat) : Nat :=
  if logical || len != 0 then start + len
  else match s.geometry channel with
    | some g => g.bytes
    | none => start

/-- Hand a finished scrub's summary to whoever asked for it (R270, R370, R541). -/
def State.reportScrub (s : State) (w : Scrub) (status : Nat) : State :=
  let x : ScrubSummary := ⟨w, s.stamp, status⟩
  match w.owner with
  | .registers =>
    let bs := x.bytes
    let s := (List.range 16).foldl (fun s k => s.wrAt MED_SCRUBSUM.BYTES k (ofBytes ((bs.drop (8 * k)).take 8))) s
    (s.put MED_SCRUBCTL.START false).put MED_SCRUBCTL.STOP false
  | .descriptor q i =>
    match s.desc q i with
    | none => s
    | some d =>
      let st := if status = scrubComplete then stOk else if status = scrubStopped then stStopped else stInvalidField
      let s := if status = scrubInvalid then s else s.send (.dmaWrite (s.rdAt QUE_CFG.LINK q) d.slice d.addr1 x.bytes)
      s.finishDesc q i st w.ue
  | .scanMedia k | .kamcon k =>
    let s := s.setCci k { s.cci k with summary := some x, ueList := w.ueAddr }
    s.endBackground k (if status = scrubStopped then rcAborted else rcSuccess)

/-- The context that a request may take: 0 for the registers, else the lowest free one of 1 to 7 (R268). -/
def State.freeContext (s : State) (o : ScrubOwner) : Option Nat :=
  match o with
  | .registers => if (s.med.scrubs.find 0).isNone then some 0 else none
  | _ => (List.range 7).map (· + 1) |>.find? fun k => (s.med.scrubs.find k).isNone

/-- Put a scrub into a context. -/
def State.setScrub (s : State) (k : Nat) (w : Scrub) : State :=
  let s := { s with med := { s.med with scrubs := s.med.scrubs.put k w } }
  if k = 0 then s.wr MED_SCRUBCUR.CURSOR (w.cursor / 4096) else s

/-- Start a scrub, or let it wait for a context (R268). -/
def State.takeContext (s : State) (w : Scrub) : State :=
  match s.freeContext w.owner with
  | some k => s.setScrub k { w with startTs := s.stamp }
  | none => { s with med := { s.med with scrubWait := s.med.scrubWait ++ [w] } }

/-- A request for a scrub (R268, R270). -/
def State.startScrub (s : State) (o : ScrubOwner) (logical verify : Bool) (channel start len : Nat) : State :=
  let w : Scrub := { owner := o, logical := logical, verify := verify, channel := channel, start := start
                     stop := s.scrubEnd logical channel start len, cursor := start, startTs := s.stamp }
  if s.scrubRangeOk logical channel start len then s.takeContext w else s.reportScrub w scrubInvalid

/-- A context ends; the oldest request that waits takes it (R268). -/
def State.endScrub (s : State) (k status : Nat) : State :=
  match s.med.scrubs.find k with
  | none => s
  | some w =>
    let s := { s with med := { s.med with scrubs := s.med.scrubs.erase k } }.reportScrub w status
    if k = 0 then s
    else
      match s.med.scrubWait with
      | [] => s
      | n :: ns => { s with med := { s.med with scrubWait := ns } }.takeContext n

/-- The scrub of an owner stops, at work or waiting (R269, R542). -/
def State.stopScrub (s : State) (o : ScrubOwner) : State :=
  match s.med.scrubs.find? fun e => e.2.owner == o with
  | some (k, _) => s.endScrub k scrubStopped
  | none =>
    match s.med.scrubWait.find? fun w => w.owner == o with
    | some w => { s with med := { s.med with scrubWait := s.med.scrubWait.filter fun v => v.owner != o } }.reportScrub w
        scrubStopped
    | none => s

/-- Context 0 starts on what its registers name (R268). -/
def State.askScrub (s : State) : State :=
  (s.put MED_SCRUBCTL.START true).startScrub .registers (s.on MED_SCRUBCTL.SCOPE) (s.on MED_SCRUBCTL.VERIFY)
    (s.rd MED_SCRUBCTL.CHANNEL) (s.rd MED_SCRUBBASE.ADDR * 4096) (s.rd MED_SCRUBLEN.LEN * 4096)

/-- MED_SCRUBCTL_START (R268, R282): `v` is written to MED_SCRUBCTL with START 1; it is ignored while START is 1. -/
def execMedScrubctlStart (v : Nat) (s : State) : Host.Outcome State Fault Refusal :=
  if s.on MED_SCRUBCTL.START then .next s
  else (s.storeFields [MED_SCRUBCTL.SCOPE, MED_SCRUBCTL.VERIFY, MED_SCRUBCTL.CHANNEL] 0 v).askScrub.done

/-- MED_SCRUBCTL_STOP (R269): a write of 1 to STOP ends context 0. -/
def execMedScrubctlStop (s : State) : Host.Outcome State Fault Refusal :=
  if s.on MED_SCRUBCTL.START then (s.stopScrub .registers).done else .next s

/-! ### Reading (R268, R269) -/

/-- A line was read and checked. -/
def Scrub.read (w : Scrub) : Scrub := { w with lines := w.lines + 1 }
/-- A line was passed over. -/
def Scrub.skip (w : Scrub) (n : Nat) : Scrub := { w with skipped := w.skipped + n }
/-- A line was found unreadable; the first 512 addresses are kept (R270, R271). -/
def Scrub.found (w : Scrub) (a : Nat) : Scrub :=
  { w with ue := w.ue + 1, ueAddr := if w.ueAddr.length < 512 then w.ueAddr ++ [a] else w.ueAddr }

/-- The read of a stored line meets the array and needs correction. -/
def State.correctedRead (s : State) (line : Nat) (f : Ecc) : Bool :=
  (s.queuedWrite line).isNone && !s.dram.poisoned.has line && (match f with
    | .corrected _ => true
    | _ => false)

/-- One line of a physical scrub: a UE becomes a pending entry and is written poisoned (R264, R269). -/
def State.scrubLine (s : State) (w : Scrub) (line : Nat) (f : MediaFind) : Scrub × State :=
  if s.frozen (lineChannel line) || s.unwritten line then (w.skip 1, s)
  else
    let ce := s.correctedRead line f.ecc
    match s.readMedia line f.ecc (s.med.pending.find line).isSome with
    | (.poison, s) => ({ w.read with poisoned := w.poisoned + 1 }, s)
    | (.data _, s) => ({ w.read with ce := w.ce + flag ce }, s)
    | (.bad, s) => (w.read.found line, s.poisonPending line)

/-- One line of a STRATUS page in a logical scrub; with VERIFY a tag that differs is handled as on a host read (R268). -/
def State.scrubPlain (s : State) (w : Scrub) (dpaLine line : Nat) (f : MediaFind) : Scrub × State :=
  let ce := s.correctedRead line f.ecc
  let bad := fun (s : State) =>
    (w.read.found dpaLine, (s.poisonLine dpaLine .internal (.stored line)).wantRepair dpaLine none)
  if s.listed dpaLine then ({ w.read with poisoned := w.poisoned + 1 }, s)
  else
    match s.readMedia line f.ecc false with
    | (.poison, s) => ({ w.read with poisoned := w.poisoned + 1 }, s.settlePending line dpaLine)
    | (.data _, s) =>
      if w.verify && !f.macOk then (w.read.found dpaLine, s.macFail.wantRepair dpaLine none) else ({ w.read with ce := w.ce + flag ce }, s)
    | (.bad, s) => bad s

/-- One block of a NIMBUS page in a logical scrub: a granule that cannot be read, or with VERIFY a block that does not decode,
makes the block bad (R179, R268). -/
def State.scrubBlock (s : State) (w : Scrub) (dpn b : Nat) (fs : Finds) : Scrub × State :=
  let loc := (s.entry dpn).loc
  let n := loc.blockCount b
  let g := s.granuleLine (loc.blockStart b)
  let lines := (List.range 16).map fun i => dpn * 64 + b * 16 + i
  if s.coarseBlock loc b || lines.all fun l => s.listed l then ({ w with lines := w.lines + n, poisoned := w.poisoned + n }, s)
  else
    let finds := (fs.run g n).map fun f => if w.verify then f else { f with macOk := true }
    let ce := ((List.range n).filter fun i => s.correctedRead (g + i) (finds.getD i {}).ecc).length
    let ues := (finds.filter fun f => f.ecc == .uncorrectable).length
    let w := { w with lines := w.lines + n, ce := w.ce + ce }
    let bad := fun (w : Scrub) (s : State) (kind : Nat) =>
      let fresh := lines.filter fun l => !s.heldWhole l && !s.listed l
      let w := if w.verify then fresh.foldl (fun w l => w.found l) w
        else (List.replicate ues (dpn * 64 + b * 16)).foldl (fun w l => w.found l) w
      (w, s.badBlock dpn b kind)
    match s.readBlock loc b finds false with
    | (none, s) => bad w s DecodeFault.media.code
    | (some img, s) =>
      if !w.verify then (w, s)
      else
        match decodeStored n img with
        | .ok _ => (w, s)
        | .error k => bad w s k.code

/-- One page of a logical scrub. -/
def State.scrubPage (s : State) (w : Scrub) (dpn : Nat) (fs : Finds) : Scrub × State :=
  let e := s.entry dpn
  let live := (s.claimOf (dpn * 4096)).isSome && match s.locationChannel e.loc with
    | some c => !s.frozen c
    | none => false
  if !live || e.state == .unbacked || e.state == .lost then (w.skip 64, s)
  else
    match e.loc with
    | .frame mfn =>
      (List.range 64).foldl (fun (x : Scrub × State) i => x.2.scrubPlain x.1 (dpn * 64 + i) (mfn * 64 + i) (fs.line (mfn * 64 + i)))
        (w, s)
    | .run _ _ _ _ _ => (List.range 4).foldl (fun (x : Scrub × State) b => x.2.scrubBlock x.1 dpn b fs) (w, s)
    | .nowhere => (w.skip 64, s)

/-- One frame of a physical scrub; `metaUes` uncorrectable errors in map copies or system metadata are rewritten from the
other copy and counted as map repairs (R269). -/
def State.scrubFrame (s : State) (w : Scrub) (f : Nat) (fs : Finds) (metaUes : Nat) : Scrub × State :=
  let c := w.channel
  let base := c * 2 ^ 34 + f * 64
  let usable := match s.geometry c with
    | some g => g.frameOk f
    | none => false
  if !usable then (w, s)
  else
    let (w, s) := (List.range 64).foldl (fun (x : Scrub × State) i => x.2.scrubLine x.1 (base + i) (fs.line (base + i))) (w, s)
    if s.frozen c then (w, s)
    else
      (List.range metaUes).foldl (fun (x : Scrub × State) _ =>
        (x.1.found base, ((x.2.ueFound base).inc MAP_ERRCNT.REPAIRED).raise srcMapRepair)) (w, s)

/-- A scrub context reads its next page or frame (R268, R269). -/
def State.scrubStep (s : State) (k : Nat) (w : Scrub) (c : Option Nat) (fs : Finds) (metaUes : Nat) : State :=
  let (w', s) := if w.logical then s.scrubPage w (w.cursor / 4096) fs
    else s.scrubFrame w (w.cursor / 4096) fs metaUes
  let n := w'.lines - w.lines
  let s := (s.takeUnits masterScrub n).occur Ev.scrubLines (c.getD 0) n none
  let w' := { w' with cursor := w'.cursor + 4096 }
  let s := s.setScrub k w'
  if w'.stop ≤ w'.cursor then s.endScrub k scrubComplete else s

/-- SCRUB_READ (R268, R269): context `k` reads its next 4 KiB, and `fs` gives what its reads find. -/
def execScrubRead (k : Nat) (fs : Finds) (metaUes : Nat) (s : State) : Host.Outcome State Fault Refusal :=
  match s.med.scrubs.find k with
  | none => .next s
  | some w =>
    let c := if w.logical then s.locationChannel (s.entry (w.cursor / 4096)).loc else some w.channel
    if c.any fun c => s.panicHolds masterScrub c then (s.holdUnits masterScrub 1).done
    else
    (s.scrubStep k w c fs metaUes).done

/-! ### The policy of Horizon (R272) -/

/-- Scrub rate that finishes the in-service capacity in the window, in units of 16 MB/s. -/
def State.policyRate (s : State) : Nat :=
  min (ceilDiv (ceilDiv (s.installed - s.spareBytes) (s.med.policyWindow * 3600)) 16000000) 4095

/-- Serial number of the DIMM that holds a rank (R224). -/
def State.rankSerial (s : State) (c rank : Nat) : Nat :=
  let per := match s.geometry c with
    | some g => g.dimm.ranks
    | none => 1
  ((s.chan c).dimms[rank / per]?.map fun (d : Dimm) => d.serial).getD 0

/-- Add a row to the pending repair list, which holds 32 (R273). -/
def State.addRepair (s : State) (r : RepairRow) : State :=
  if s.med.repairList.contains r || decide (32 ≤ s.med.repairList.length) then s
  else { s with med := { s.med with repairList := s.med.repairList ++ [r] } }

/-- What Horizon does with the log once a pass over a channel has ended: flagged rows go to the repair list, and a device mark
on a SPARE-mode channel starts sparing of its rank (R272). -/
def State.policyFollow (s : State) (c : Nat) : State :=
  let s := if !s.med.policyQueue then s
    else ((List.range 32).filter fun k => s.onAt MED_CELOG2.VALID k && s.onAt MED_CELOG2.ROWFLAG k &&
        s.rdAt MED_CELOG2.CHANNEL k == c).foldl (fun s k =>
      s.addRepair ⟨c, s.rdAt MED_CELOG2.SUBCH k, s.rdAt MED_CELOG2.RANK k, s.rdAt MED_CELOG2.BG k, s.rdAt MED_CELOG2.BANK k,
        s.rdAt MED_CELOG2.ROW k, s.rankSerial c (s.rdAt MED_CELOG2.RANK k)⟩) s
  if s.med.policySpare && s.spareMode c then
    match (List.range 8).find? fun r => s.mark c r 0 != 15 || s.mark c r 1 != 15 with
    | some r => s.askSparing c r
    | none => s
  else s

/-- The scrub policy goes on to its next channel (R272). -/
def State.policyPass (s : State) : State :=
  let s := if s.med.policyRuns then s.policyFollow s.med.policyChannel else s
  let start := if s.med.policyRuns then s.med.policyChannel + 1 else 0
  match (List.range 16).find? fun c => decide (start ≤ c) && s.populated c with
  | none => { s with med := { s.med with policyRuns := false, policyChannel := 0 } }
  | some c =>
    let s := { s with med := { s.med with policyRuns := true, policyChannel := c } }
    let s := ((s.wr MED_SCRUBCFG.RATE (max s.policyRate 1)).wr MED_SCRUBBASE.ADDR 0).wr MED_SCRUBLEN.LEN 0
    let s := ((s.put MED_SCRUBCTL.SCOPE false).put MED_SCRUBCTL.VERIFY false).wr MED_SCRUBCTL.CHANNEL c
    (s.put MED_SCRUBCTL.START true).startScrub .registers false false c 0 0

/-- SCRUB_POLICY_PASS (R272): Horizon's next step: it follows up the channel whose scrub has ended, and starts a physical
scrub of the next populated channel on context 0. After the last channel the pass is over. -/
def execScrubPolicyPass (s : State) : Host.Outcome State Fault Refusal :=
  if !s.med.policyOn || !s.on ENG_STAT.HORIZON_UP || s.on MED_SCRUBCTL.START then .next s
  else
    s.policyPass.done

/-! ### Row repair (R273–R275) -/

/-- RESULT codes of R275. -/
def pprOk : Nat := 0
def pprNotFrozen : Nat := 1
def pprNoResource : Nat := 2
def pprVerifyFail : Nat := 3
def pprInvalid : Nat := 4

/-- A hard repair of a row is logged. -/
def State.noteRepair (s : State) (c : Nat) (r : RepairRow) (ok : Bool) : State :=
  { s with
    med := { s.med with repairList := s.med.repairList.erase r
                        repairLog := s.med.repairLog ++ [(r, if ok then pprOk else pprNoResource, s.stamp)] }
    chip := { s.chip with repaired := s.chip.repaired.set 0 c (s.chip.repaired.get 0 c + 1) } }

/-- HPPR_ROW_END (R273): the repair of the oldest listed row of channel `c` ends. After the fourth row, or the last, training
passes. -/
def execHpprRowEnd (c : Nat) (ok : Bool) (s : State) : Host.Outcome State Fault Refusal :=
  if !s.chip.repairing.has c then .next s
  else
    match (s.repairRows c).head? with
    | none => (s.trainingPassed c).done
    | some r =>
      let s := s.noteRepair c r ok
      (if (s.repairRows c).isEmpty || decide (4 ≤ s.chip.repaired.get 0 c) then s.trainingPassed c else s).done

/-- Place a field of a media address back into its line number. -/
def placeField (f : MediaField) (v : Nat) : List (MediaField × Nat) → Nat
  | [] => 0
  | (f', i) :: bs => (if f' = f ∧ v.testBit i then 1 else 0) + 2 * placeField f v bs

/-- The line number of a media address: the inverse of the decode (R226). -/
def Geometry.lineOf (g : Geometry) (a : MediaAddr) : Nat :=
  let bg := if g.order = 3 then Nat.xor a.bg (a.row % 8) else a.bg
  let bank := if g.order = 3 then Nat.xor a.bank (a.row / 8 % 4) else a.bank
  placeField .col a.col g.bits + placeField .sub a.sub g.bits + placeField .bg bg g.bits + placeField .bank bank g.bits +
    placeField .rank a.rank g.bits + placeField .row a.row g.bits

/-- The internal lines of a row on its subchannel. -/
def State.rowLines (s : State) (r : RepairRow) : List Nat :=
  match s.geometry r.channel with
  | none => []
  | some g => (List.range (2 ^ g.dimm.colBits)).map fun col =>
      r.channel * 2 ^ 34 + g.lineOf ⟨col, r.subch, r.bg, r.bank, r.rank, r.row⟩

/-- The row that MED_PPRCTL names. -/
def State.namedRow (s : State) : RepairRow :=
  let c := s.rd MED_PPRCTL.CHANNEL
  ⟨c, s.rd MED_PPRCTL.SUBCH, s.rd MED_PPRCTL.RANK, s.rd MED_PPRCTL.BG, s.rd MED_PPRCTL.BANK, s.rd MED_PPRCTL.ROW,
    s.rankSerial c (s.rd MED_PPRCTL.RANK)⟩

/-- A row lies in its channel's geometry, outside the spare rank. -/
def State.rowOk (s : State) (r : RepairRow) : Bool :=
  match s.geometry r.channel with
  | none => false
  | some g => decide (r.rank < (if g.spare then g.ranks - 1 else g.ranks)) && decide (r.row < 2 ^ g.dimm.rowBits)

/-- A channel's rows can be repaired: it is frozen for a UE, keeps its contents, and is not in self-refresh (R273). -/
def State.repairReady (s : State) (c : Nat) : Bool :=
  s.frozen c && s.onAt DMC_CHSTAT.KEPT c && s.rdAt DMC_CHSTAT.FRZCAUSE c == causeUE &&
    !s.onAt DMC_CHSTAT.RELEASING c && !(s.chan c).selfRefresh

/-- The repair of a row begins. -/
def State.beginRepair (s : State) (r : RepairRow) : State :=
  ({ s with med := { s.med with pprRow := some r } }.put MED_PPRSTAT.BUSY true).put MED_PPRCTL.START true

/-- Start a run-time repair of the row that MED_PPRCTL names: the condition of R274 step 1, then the row (R275). -/
def State.startRepair (s : State) : State :=
  let r := s.namedRow
  let c := r.channel
  if !s.repairReady c then s.wr MED_PPRSTAT.RESULT pprNotFrozen
  else if !s.rowOk r then s.wr MED_PPRSTAT.RESULT pprInvalid
  else s.beginRepair r

/-- MED_PPRCTL_START (R274): `v` is written to MED_PPRCTL with START 1. While BUSY is 1 it is ignored. -/
def execMedPprctlStart (v : Nat) (s : State) : Host.Outcome State Fault Refusal :=
  if s.on MED_PPRSTAT.BUSY then .next s
  else
    (s.storeFields [MED_PPRCTL.CHANNEL, MED_PPRCTL.SUBCH, MED_PPRCTL.RANK, MED_PPRCTL.BG, MED_PPRCTL.BANK, MED_PPRCTL.ROW] 0
      v).startRepair.done

/-- The stored line's DPA is known, and it is listed already. -/
def State.knownPoison (s : State) (line : Nat) : Bool :=
  match s.dram.frames.find (line / 64) with
  | some (.page dpn) => s.listed (dpn * 64 + line % 64)
  | _ => (s.med.pending.find line).isSome

/-- A line of a row under repair is written poisoned (R258, R264). -/
def State.poisonRowLine (s : State) (line : Nat) : State :=
  let s := { s with dram := { s.dram with poisoned := s.dram.poisoned.add line } }
  if s.knownPoison line then s else s.poisonPending line

/-- A soft post-package repair ends (R274, R275). -/
def State.endRepair (s : State) (r : RepairRow) (noResource : Bool) (ues mismatches : List Nat) : State :=
  let s := { s with med := { s.med with pprRow := none } }
  let idle := fun (s : State) => ((s.put MED_PPRSTAT.BUSY false).put MED_PPRCTL.START false).retryRelease r.channel
  let lines := s.rowLines r
  let bad := ues.filterMap fun i => lines[i]?
  let s := (bad.filter fun l => !s.dram.poisoned.has l).foldl (fun s l => s.ueFound l) s
  if noResource then idle (s.wr MED_PPRSTAT.RESULT pprNoResource)
  else
    let s := bad.foldl (fun s l => s.poisonRowLine l) s
    let s := (mismatches.filterMap fun i => lines[i]?).foldl (fun s l => s.poisonRowLine l) s
    let n := (lines.filter fun l => s.dram.poisoned.has l).length
    let s := (s.wr MED_PPRSTAT.POISONED n).wr MED_PPRSTAT.RESULT (if mismatches.isEmpty then pprOk else pprVerifyFail)
    idle (s.addRepair r)

/-- PPR_END (R274 steps 2 to 6): `ues` and `mismatches` are the columns of lines that had a UE, and of lines that did not read
back as written. -/
def execPprEnd (noResource : Bool) (ues mismatches : List Nat) (s : State) : Host.Outcome State Fault Refusal :=
  match s.med.pprRow with
  | none => .next s
  | some r =>
    (s.endRepair r noResource ues mismatches).done

end Sys2Proof.Machine
end

