-- ==== Sys2Proof/Machine/NimbusCmds.lean ====
section
/-! DEFINITION. Events of the codec array and the heap (06_nimbus_compression.md): a block's decode and its retry (R162, R178,
R179), a pipe that fails (R181), and the rebuilding of a heap directory entry (R172). -/

namespace Sys2Proof.Machine

/-- A decode job is over. -/
def State.dropJob (s : State) (job : Nat) : State :=
  { s with nmb := { s.nmb with jobs := s.nmb.jobs.erase job } }

/-- The requests that wait for a block. -/
def State.blockWaiters (s : State) (dpn b : Nat) : List OpenReq :=
  s.reqs.filter fun r => r.stage == .nimbus && r.dpaLine / 16 == dpn * 4 + b

/-- The block of a job can still be read: its page is a run on a channel that serves. -/
def State.blockReadable (s : State) (dpn : Nat) : Bool :=
  match (s.entry dpn).loc with
  | .run _ _ _ _ _ =>
    match s.locationChannel (s.entry dpn).loc with
    | some c => s.serving c
    | none => false
  | _ => false

/-- Read a block's granules and decode them; `fault` is the kind of a failure inside the pipe or of a transient one. -/
def State.decodeBlock (s : State) (dpn b : Nat) (fs : Finds) (fault : Option Nat) : Except Nat (List Line) × State :=
  let loc := (s.entry dpn).loc
  let n := loc.blockCount b
  let g := s.granuleLine (loc.blockStart b)
  let known := s.coarseBlock loc b || (List.range 16).all fun i => s.listed (dpn * 64 + b * 16 + i)
  match s.readBlock loc b (fs.run g n) known with
  | (none, s) => (Except.error DecodeFault.media.code, s)
  | (some img, s) =>
    match fault with
    | some k => (Except.error k, s)
    | none =>
      match decodeStored n img with
      | .error k => (Except.error k.code, s)
      | .ok bytes => (Except.ok (cutLines 16 bytes), s)

/-- A decoded block is filled into Cirrus, with the bytes of buffered writebacks over it, and the reads that waited for it are
answered (R92, R96, R127, R169). -/
def State.deliverBlock (s : State) (dpn b : Nat) (lines : List Line) : State :=
  let raw := (s.entry dpn).loc.blockCount b == 16
  let rs := s.blockWaiters dpn b
  let base := dpn * 64 + b * 16
  let lines := (List.range 16).map fun i => overlayOf s.cir.buffer (base + i) (lines.getD i 0)
  let want := (rs.head?.map fun r => r.dpaLine).getD base
  let absent := ((List.range 16).map fun i => base + i).filter fun l => l != want && (s.cirWay l).isNone
  let s := s.fillBlock dpn b want lines
  let s := if raw then s else s.event Ev.decompressed 0
  let s := if rs.isEmpty then s
    else
      let s := s.event Ev.blockFetches 0
      let extra := absent.filter fun l => (s.cirWay l).isSome
      { s with plc := { s.plc with fetches := s.plc.fetches + 1
                                   extra := extra.foldl (fun t l => NSet.add t l) s.plc.extra } }
  rs.foldl (fun s r =>
    let s := s.heat dpn (s.policy PLC_HEATCFG.NFETCH)
    let (d, p) := match s.cirLine r.dpaLine with
      | some x => (x.data, x.poison)
      | none => (lines.getD (r.dpaLine % 16) 0, s.listed r.dpaLine)
    if p then s.completePoison r else s.complete r d false (if raw then outRaw else outNimbus)) s

/-- A block is bad: the reads that fetched it are served from the partner's copy or answered with poison (R179, R453). -/
def State.failBlock (s : State) (dpn b kind : Nat) : State :=
  let rs := s.blockWaiters dpn b
  let s := s.badBlock dpn b kind
  rs.foldl (fun s r =>
    match s.peerFetch ⟨r.dpaLine, some r.id, none⟩ with
    | (true, s) => s.waitAt r.id .room
    | (false, s) => s.completePoison r) s

/-- A block's job runs: a raw block needs no pipe; with no decompress pipe in service the others wait (R181). -/
def State.pipeReady (s : State) (dpn b : Nat) : Bool :=
  (s.entry dpn).loc.blockCount b == 16 || s.canDecompress

/-- The first attempt of a job has failed. -/
def State.failJob (s : State) (job : Nat) (j : DecodeJob) (kind : Nat) : State :=
  { s with nmb := { s.nmb with jobs := s.nmb.jobs.put job { j with failed := some kind } } }

/-- NIMBUS_DECODE (R162): the granules that job `job` reads return. -/
def execNimbusDecode (job : Nat) (fs : Finds) (fault : Option Nat) (s : State) : Host.Outcome State Fault Refusal :=
  match s.nmb.jobs.find job with
  | none => .next s
  | some j =>
    if !s.blockReadable j.dpn then (s.dropJob job).done
    else if j.failed.isSome || !s.pipeReady j.dpn j.block then .next s
    else
      match s.decodeBlock j.dpn j.block fs fault with
      | (.ok lines, s) => ((s.dropJob job).deliverBlock j.dpn j.block lines).done
      | (.error k, s) =>
        if k = DecodeFault.media.code then ((s.dropJob job).failBlock j.dpn j.block k).done
        else ((s.failJob job j k).event Ev.decodeRetries 0).done

/-- DECODE_RETRY (R178): the second and last attempt of a job that failed. -/
def execDecodeRetry (job : Nat) (fs : Finds) (fault : Option Nat) (s : State) : Host.Outcome State Fault Refusal :=
  match s.nmb.jobs.find job with
  | none => .next s
  | some j =>
    match j.failed with
    | none => .next s
    | some first =>
      if !s.blockReadable j.dpn then (s.dropJob job).done
      else if !s.pipeReady j.dpn j.block then .next s
      else
        let count := (s.entry j.dpn).loc.blockCount j.block
        match s.decodeBlock j.dpn j.block fs fault with
        | (.ok lines, s) =>
          let s := ((s.inc NMB_ERRCNT.RETRY).nmbLog j.dpn j.block first count true).raise srcNmbRetry
          ((s.dropJob job).deliverBlock j.dpn j.block lines).done
        | (.error k, s) => ((s.dropJob job).failBlock j.dpn j.block k).done

/-- A pipe goes out of service. -/
def State.dropPipe (s : State) (compressor : Bool) (pipe : Nat) : State :=
  if compressor then s.wr NMB_PIPESTAT.CMP (setBit (s.rd NMB_PIPESTAT.CMP) pipe false)
  else s.wr NMB_PIPESTAT.DCMP (setBit (s.rd NMB_PIPESTAT.DCMP) pipe false)

/-- NMB_PIPE_FAIL (R181): a parity error takes pipe `pipe` out of service; the job in it, if it is a decode, fails with kind
PIPE. -/
def execNmbPipeFail (compressor : Bool) (pipe : Nat) (job : Option Nat) (s : State) : Host.Outcome State Fault Refusal :=
  let s := s.dropPipe compressor pipe
  let s := match job.bind fun k => (s.nmb.jobs.find k).map fun j => (k, j) with
    | some (k, j) => if compressor || j.failed.isSome then s else s.failJob k j DecodeFault.pipe.code
    | none => s
  (s.raise srcPipeFail).done

/-- Runs that lie in a segment: those of pages in NIMBUS form, and those that moves fill. -/
def State.runsIn (s : State) (segment : Nat) : List (Nat × Nat) :=
  let at_ := fun (l : Location) =>
    match l with
    | .run h c0 c1 c2 c3 => if h / 32768 = segment then some (h % 32768, c0 + c1 + c2 + c3) else none
    | _ => none
  (s.listedPages.filterMap fun d => at_ (s.entry d).loc) ++ s.plc.moves.filterMap fun (m : Move) => at_ m.dest

/-- The entry of a segment as the map gives it. -/
def State.rebuilt (s : State) (segment : Nat) (g : Segment) : Segment :=
  let rs := s.runsIn segment
  { g with fill := rs.foldl (fun n r => max n (r.1 + r.2)) 0, live := (rs.map Prod.snd).sum, rebuilding := false }

/-- HEAP_DIRECTORY_REBUILD (R172): a segment entry has an uncorrectable error and its scan starts, or the scan ends and the
fill pointer and live count come from the map. -/
def execHeapDirectoryRebuild (segment : Nat) (started : Bool) (s : State) : Host.Outcome State Fault Refusal :=
  match s.nmb.segments.find segment with
  | none => .next s
  | some g =>
    if started then .next (s.setSegment segment { g with rebuilding := true })
    else if !g.rebuilding then .next s
    else
      let g := s.rebuilt segment g
      ((s.setSegment segment g).heapStatus.emptySegment segment g).done

end Sys2Proof.Machine
end

