-- ==== Sys2Proof/Machine/PlaceCmds.lean ====
section
/-! DEFINITION. Placement's events (05_placement_and_migration.md): the epoch cycle (R132–R135), the cold scan (R130), moves and
their switch (R139–R144), drift pins (R145), and the policy apply (R146). -/

namespace Sys2Proof.Machine

/-! ### The policy apply (R146) -/

/-- The placement policy check. -/
def State.policyCheck (s : State) : Nat :=
  firstCode [
    (s.plc.applying, 0x41),
    (!s.plc.drift, 0x42),
    (decide (s.rd PLC_THRESH.PROMOTE_T ≤ s.rd PLC_THRESH.DEMOTE_T) || decide (s.rd PLC_THRESH.PIN_T < s.rd PLC_THRESH.PROMOTE_T),
      0x40)]

/-- The staged policy waits for the next epoch, and the drift programs choose again. -/
def State.applyPolicy (s : State) : State :=
  let s := { s with plc := { s.plc with applying := true, missed := 0 } }
  (s.put PLC_APPLY.APPLY true).put PLC_STATUS.FALLBACK false

/-- A write of 1 to APPLY: the staged block waits for the boundary where the check passes, and FALLBACK ends (R135, R146). -/
def State.askApply (s : State) : State :=
  let code := s.policyCheck
  let s := s.wr PLC_APPLY.CHECK code
  if code = 0 then s.applyPolicy else s

/-- PLC_APPLY (R146): a write of 1 to PLC_APPLY.APPLY. -/
def execPlcApply (s : State) : Host.Outcome State Fault Refusal := s.askApply.done

/-- At a boundary the staged block becomes active where an apply waits, and so do the claims' modes (R146). -/
def State.takePolicy (s : State) : State :=
  let modes := s.regs.filter fun e => decide (PLC_CLAIMPOL.MODE.key 0 ≤ e.1) && decide (e.1 ≤ PLC_CLAIMPOL.MODE.key 8191) &&
    e.1 % 64 == PLC_CLAIMPOL.MODE.key 0 % 64
  let isMode := fun (k : Nat) => decide (PLC_CLAIMPOL.MODE.key 0 ≤ k) && decide (k ≤ PLC_CLAIMPOL.MODE.key 8191) &&
    k % 64 == PLC_CLAIMPOL.MODE.key 0 % 64
  let kept := s.plc.active.filter fun e => !isMode e.1
  let active := modes.foldl (fun t e => Table.put t e.1 e.2) kept
  if s.plc.applying then
    let block := stagedFields.foldl (fun t f => Table.set t (f.resetAt 0) (f.key 0) (s.rd f)) active
    ({ s with plc := { s.plc with active := block, applying := false } }).put PLC_APPLY.APPLY false
  else { s with plc := { s.plc with active := active } }

/-! ### Drift pins (R145) -/

/-- Lines of a page that Cirrus holds. -/
def State.presentLines (s : State) (dpn : Nat) : List Nat :=
  (s.cir.ways.filter fun e => e.2.dpaLine / 64 == dpn).map fun e => e.2.dpaLine

/-- Drift programs pin the lines of hot pages and unpin those of cooled ones, by the heat of the epoch that ends. -/
def State.driftPins (s : State) : State :=
  let t := s.policy PLC_THRESH.PIN_T
  let cooled := (s.cir.ways.filter fun e => e.2.pinned && e.2.pinSrc == driftPin &&
    decide ((s.entry (e.2.dpaLine / 64)).effHeat s.epoch < t / 2)).map Prod.fst
  let s := cooled.foldl (fun s k =>
    match s.way k with
    | some x => s.unpinWay k x
    | none => s) s
  let hot := (s.map.cache.filter fun e => decide (t ≤ e.2.entry.effHeat s.epoch)).map fun e => e.2.dpn
  (hot.flatMap s.presentLines).foldl (fun s l =>
    match s.pinLine l driftPin with
    | (.pinned, s) => s.event Ev.driftPins 0
    | (_, s) => s) s

/-! ### The boundary (R132) -/

/-- Write the report of the epoch before the one that ends (R147). -/
def State.writeReport (s : State) (epoch amp carried : Nat) : State :=
  let r := s.plc.report
  let sat := fun (n : Nat) => min n 0xFFFF
  let s := ((s.wr PLC_EPOCHREP0.PROMOTED (sat r.promoted)).wr PLC_EPOCHREP0.DEMOTED (sat r.demoted)).wr
    PLC_EPOCHREP0.COMPACTED (sat r.compacted)
  let s := ((s.wr PLC_EPOCHREP0.ABORTED (sat r.aborted)).wr PLC_EPOCHREP1.DEFERRED (sat r.deferred)).wr
    PLC_EPOCHREP1.INCOMP (sat r.incomp)
  let s := ((s.wr PLC_EPOCHREP1.SWITCH_MAX (sat r.switchMax)).wr PLC_EPOCHREP1.AMP amp).wr PLC_EPOCHREP2.EPOCH epoch
  let s := s.wr PLC_EPOCHREP2.CARRIED (sat carried)
  if r.selected < 16 * r.aborted then s.raise srcAbortHigh else s

/-- NIMBUS pages with the hot hint are posted again at each boundary (R136). -/
def State.repostHinted (s : State) : State :=
  (s.listedPages.filter fun d => (s.entry d).hint == hintHot && (s.entry d).state == .nimbus).foldl (fun s d =>
    s.postPromotion d ((s.entry d).effHeat s.epoch)) s

/-- An epoch ends (R131–R134, R147). -/
def State.endEpoch (s : State) : State :=
  let n := s.epoch
  let s := if s.plc.drift && !s.on PLC_STATUS.FALLBACK && s.policy PLC_MOVECFG.PIN_EN == 1 then s.driftPins else s
  let prev := (n + 2 ^ 32 - 1) % 2 ^ 32
  let waiting := s.plc.chosen.filter fun m => m.explicit.isNone
  let s := { s with plc := { s.plc with
    chosen := s.plc.chosen.filter fun (m : Chosen) => m.explicit.isSome
    report := { s.plc.report with deferred := s.plc.report.deferred + waiting.length } } }
  let carried := (s.plc.moves.filter fun m => m.explicit.isNone && m.epoch == prev).length
  let s := s.writeReport prev s.plc.ampOld carried
  let amp := amplification s.plc.fetches s.plc.useful
  let s := { s with plc := { s.plc with
    promoOld := s.plc.promo, demoOld := s.plc.demo, promo := [], demo := [], amp := amp, ampOld := amp, fetches := 0
    useful := 0, extra := [], report := s.plc.nextReport, nextReport := {}
    selecting := s.plc.drift && !s.on PLC_STATUS.FALLBACK } }
  let s := s.wr PLC_EPOCH.NUM ((n + 1) % 2 ^ 32)
  let s := waiting.foldl (fun s m => s.repost m) s
  let s := s.repostHinted
  let s := if s.on PLC_STATUS.SCANNING then s
    else { s with plc := { s.plc with scanAt := 0 } }.put PLC_STATUS.SCANNING true
  s.takePolicy

/-- EPOCH_BOUNDARY (R132): the end of an epoch, steps 1 to 3; selection follows. -/
def execEpochBoundary (s : State) : Host.Outcome State Fault Refusal :=
  if !s.clearState then s.done else
  s.endEpoch.done

/-! ### The cold scan (R126, R130) -/

/-- Demotion threshold of a claim. -/
def State.demoteThreshold (s : State) (c : Nat) : Nat :=
  if s.mode c = modeDense then s.policy PLC_THRESH.PROMOTE_T / 4 else s.policy PLC_THRESH.DEMOTE_T

/-- The first page from `d` on that lies in a committed claim. -/
def State.nextPage (s : State) (d : Nat) : Option Nat :=
  ((s.committed.map fun c =>
    (max d (s.claimBase c / 4096), (s.claimBase c + s.claimSize c) / 4096)).filter fun (p : Nat × Nat) => p.1 < p.2).foldl
    (fun (best : Option Nat) p =>
      match best with
      | some b => some (min b p.1)
      | none => some p.1) none

/-- An uncached entry as the scan writes it back (R126). -/
def MapEntry.restamped (e : MapEntry) (epoch : Nat) : MapEntry :=
  let h := if e.hstamp = epoch % 256 then e.heat / 2 else e.effHeat epoch
  { e with heat := h, hstamp := epoch % 256 }

/-- The scan reads one entry. -/
def State.scanEntry (s : State) (dpn : Nat) : State :=
  let e := s.entry dpn
  let (heat, s) := match s.cached dpn with
    | some e => (e.effHeat s.epoch, s)
    | none => ((e.restamped s.epoch).heat, if e.state = PageState.unbacked then s else s.writeCopies dpn (e.restamped s.epoch))
  if e.state = PageState.stratus && decide (heat ≤ s.demoteThreshold e.claim) && e.hint != hintHot && s.nimbusAllowed e.claim &&
      !e.snap && !s.filtered dpn then s.postDemotion dpn
  else s

/-- The scan has passed the whole map. -/
def State.endScan (s : State) : State :=
  (s.put PLC_STATUS.SCANNING false).wr PLC_STATUS.SCANPASS ((s.rd PLC_STATUS.SCANPASS + 1) % 2 ^ 32)

/-- The scan visits the entries of a leaf from page `p` on. -/
def State.scanLeaf (s : State) (p : Nat) : State :=
  let lo := p / 512 * 512
  let s := (s.takeUnits masterDrift 128).event Ev.coldLeaves 0
  let pages := s.listedPages.filter fun d => decide (p ≤ d) && decide (d < lo + 512) && (s.claimOf (d * 4096)).isSome
  pages.foldl State.scanEntry { s with plc := { s.plc with scanAt := lo + 512 } }

/-- COLD_SCAN (R130): the scan reads the next leaf. Pages that nothing has written have nothing to restamp. -/
def execColdScan (s : State) : Host.Outcome State Fault Refusal :=
  if !s.on PLC_STATUS.SCANNING || s.on PLC_STATUS.PAUSED || !s.clearState then .next s
  else
    match s.nextPage s.plc.scanAt with
    | none => .next s.endScan
    | some p => (s.scanLeaf p).done

/-! ### Selection (R128, R132, R133, R144, R174) -/

/-- The page has a move selected and not yet started, or running. -/
def State.inMove (s : State) (dpn : Nat) : Bool :=
  (s.move dpn).isSome || s.plc.chosen.any fun m => m.dpn == dpn

/-- Amplification of the epoch just ended exceeds its limit (R128). -/
def State.ampHigh (s : State) : Bool := decide (s.policy PLC_THRESH.AMP_MAX < s.plc.amp)

/-- Promotions in ranking order. -/
def State.rankPromotions (s : State) : List Nat :=
  let t := if s.ampHigh then s.policy PLC_THRESH.PROMOTE_T / 2 else s.policy PLC_THRESH.PROMOTE_T
  let ok := s.plc.promoOld.filter fun p =>
    let e := s.entry p.1
    e.state == .nimbus && !e.snap && !s.inMove p.1 && e.hint != hintCold && (e.hint == hintHot || decide (t ≤ p.2))
  let ranked := sortBy (fun (a b : Nat × Nat) =>
    let ha := (s.entry a.1).hint == hintHot
    let hb := (s.entry b.1).hint == hintHot
    if ha == hb then decide (b.2 ≤ a.2) else ha) ok
  ((ranked.map Prod.fst).eraseDups).take (s.policy PLC_BUDGET.PROMOTE_MAX)

/-- Demotions in ranking order. -/
def State.rankDemotions (s : State) : List Nat :=
  let ok := s.plc.demoOld.filter fun d =>
    let e := s.entry d
    e.state == .stratus && !e.snap && !s.inMove d && e.hint != hintHot && s.nimbusAllowed e.claim && !s.filtered d
  let cold := ok.filter fun d => (s.entry d).hint == hintCold
  let rest := ok.filter fun d => !((s.entry d).hint == hintCold)
  let n := s.policy PLC_BUDGET.DEMOTE_MAX
  (cold ++ rest).eraseDups.take (if s.ampHigh then n / 2 else n)

/-- Wholly free 2 MiB regions of a channel (R173). -/
def State.freeRegions (s : State) (c : Nat) : Nat :=
  s.regionsOf c - ((s.usesOn c).map fun u => u.1 / 512).eraseDups.length

/-- Compaction is due (R144): granules free in segments in use, against all free heap granules, wholly free regions included
(DEDUCED); or it is urgent (R174). -/
def State.compactionDue (s : State) : Bool :=
  let held := (s.nmb.segments.map fun e => 32768 - e.2.live).sum
  let free := held + ((s.channelList.map s.freeRegions).sum) * 32768
  s.nmb.urgent || (s.policy PLC_MOVECFG.COMPACT_EN == 1 && decide (s.policy PLC_SCANCFG.FRAG_T * free < 100 * held))

/-- Segments from which pages are taken, least occupied first: those that take no new runs and are not frozen. -/
def State.sparseSegments (s : State) : List Nat :=
  (sortBy (fun (a b : Nat × Segment) => decide (a.2.live ≤ b.2.live)) (s.nmb.segments.filter fun e =>
    (e.2.state == .full || e.2.state == .compacting) && !e.2.rebuilding && !s.frozen e.2.channel)).map Prod.fst

/-- Segment that holds a page's run. -/
def State.segmentOf (s : State) (dpn : Nat) : Option Nat :=
  match (s.entry dpn).loc with
  | .run h _ _ _ _ => some (h / 32768)
  | _ => none

/-- Compactions, by segment. -/
def State.rankCompactions (s : State) : List Nat :=
  if !s.compactionDue then []
  else
    let pages := s.listedPages.filter fun d =>
      (s.entry d).state == .nimbus && !(s.entry d).snap && !s.inMove d
    let all := s.sparseSegments.flatMap fun g => pages.filter fun d => s.segmentOf d == some g
    if s.nmb.urgent then all else all.take (s.policy PLC_BUDGET.COMPACT_MAX)

/-- Three lists in turn. -/
def interleave : List Chosen → List Chosen → List Chosen → List Chosen
  | [], bs, cs => (bs.zip cs).flatMap (fun (p : Chosen × Chosen) => [p.1, p.2]) ++ bs.drop cs.length ++ cs.drop bs.length
  | a :: as, bs, cs => a :: (bs.take 1 ++ cs.take 1 ++ interleave as (bs.drop 1) (cs.drop 1))

/-- Drift selects the moves of the ended epoch (R132). -/
def State.selectMoves (s : State) : State :=
  let ended := (s.epoch + 2 ^ 32 - 1) % 2 ^ 32
  let ps := if s.policy PLC_MOVECFG.PROMOTE_EN = 1 then s.rankPromotions else []
  let ds := if s.policy PLC_MOVECFG.DEMOTE_EN = 1 then s.rankDemotions else []
  let cs := s.rankCompactions.filter fun d => !ps.contains d
  let mk := fun (k : MoveKind) (ds : List Nat) => ds.map fun d => (⟨d, k, ended, none⟩ : Chosen)
  let s := (cs.filterMap s.segmentOf).eraseDups.foldl (fun s g =>
    match s.nmb.segments.find g with
    | some x => s.setSegment g { x with state := .compacting }
    | none => s) s
  let picks := interleave (mk .promote ps) (mk .demote ds) (mk .compact cs)
  { s.heapStatus with plc := { s.plc with
    chosen := s.plc.chosen ++ picks, promoOld := [], demoOld := [], selecting := false, missed := 0
    report := { s.plc.report with selected := s.plc.report.selected + picks.length } } }

/-- SELECTION_COMPLETE (R132 steps 4 and 5): the drift programs hand over the selected moves. -/
def execSelectionComplete (s : State) : Host.Outcome State Fault Refusal :=
  if !s.plc.selecting then .next s
  else
    s.selectMoves.done

/-- A drift program has missed its window: what it would have chosen is dropped. -/
def State.missWindow (s : State) : State :=
  { s with plc := { s.plc with selecting := false, missed := s.plc.missed + 1, promoOld := [], demoOld := [] } }.inc PLC_ERRCNT.HANG

/-- The built-in selection takes over from the drift programs. -/
def State.fallBack (s : State) : State :=
  ({ s with plc := { s.plc with drift := false } }.put PLC_STATUS.FALLBACK true).raise srcDriftHang

/-- SELECTION_WINDOW_EXPIRY (R135): the window ends; a selection still open is discarded, and the second in a row enters
FALLBACK. -/
def execSelectionWindowExpiry (s : State) : Host.Outcome State Fault Refusal :=
  if !s.plc.selecting then .next s
  else
    .next (if s.plc.missed = 0 then s.missWindow else s.missWindow.fallBack)

/-- INCOMPRESSIBLE_FILTER_EXPIRY (R138): entries leave the filter 64 epochs after entry. -/
def execIncompressibleFilterExpiry (s : State) : Host.Outcome State Fault Refusal :=
  .next { s with plc := { s.plc with filter := s.plc.filter.filter fun f => (s.epoch + 2 ^ 32 - f.2) % 2 ^ 32 < 64 } }

/-! ### Move start (R137, R139 step 1, R142, R303) -/

/-- Move trackers, and those that explicit moves may hold (R137). -/
def trackerCount : Nat := 4096
def explicitCount : Nat := 2048

/-- Status of a page that an explicit move need not or cannot move (R367): none where it is to be moved. -/
def State.rangePageStatus (s : State) (dpn : Nat) (k : MoveKind) : Option Nat :=
  let e := s.entry dpn
  match e.state with
  | .unbacked => some 1
  | .lost => some 5
  | .stratus =>
    if k = .promote then some 0 else if !s.nimbusAllowed e.claim then some 3 else if e.snap then some 4 else none
  | .nimbus => if k = .demote then some 0 else if e.snap then some 4 else none
  | .inFlight => none

/-- A chosen move may start now: its page is not in flight and no rewrite tracker works on it (R137, R292). -/
def State.startable (s : State) (m : Chosen) : Bool := (s.move m.dpn).isNone && !s.tracked m.dpn

/-- Take the destination at full size (R139 step 1). -/
def State.moveDest (s : State) (m : Chosen) : Option (Location × State) :=
  match m.kind with
  | .promote => (s.takeFrame (.destination m.dpn)).map fun (f, s) => (.frame f, s)
  | _ => (s.moveRun 64).map fun (h, s) => (.run h 16 16 16 16, s)

/-- A chosen move is over before it starts (R142). -/
def State.dropChosen (s : State) (m : Chosen) : State :=
  { s with plc := { s.plc with chosen := s.plc.chosen.filter fun (x : Chosen) => x != m } }

/-- The move starts: STATE becomes IN_FLIGHT, and a sealed page's destination takes a fresh major into a shadow leaf (R139
step 1, R303). None where it finds no room. -/
def State.beginMove (s : State) (m : Chosen) : Option State :=
  let e := s.entry m.dpn
  match s.moveDest m with
  | none => none
  | some (dest, s) =>
    let leaf := if e.keyid = 0 ∨ m.kind = .compact then some (none, s)
      else (s.freshLeaf e.keyid).map fun (l, s) => (some l, s)
    leaf.map fun (l, s) =>
      let t : Move := { dpn := m.dpn, kind := m.kind, epoch := m.epoch, explicit := m.explicit, src := e.loc, dest := dest
                        leaf := l }
      { s.updateEntry m.dpn { e.bump with state := .inFlight } with
        plc := { s.plc with moves := s.plc.moves ++ [t] } }.moveStatus

/-- MOVE_START (R139): a tracker is free; the first of the autonomous or of the explicit moves that can start does. -/
def execMoveStart (explicit : Bool) (s : State) : Host.Outcome State Fault Refusal :=
  let running := (s.plc.moves.filter fun m => m.explicit.isSome).length
  if s.on PLC_STATUS.PAUSED || decide (trackerCount ≤ s.plc.moves.length) || (explicit && decide (explicitCount ≤ running)) then
    .next s
  else
    match s.plc.chosen.find? fun m => m.explicit.isSome == explicit && s.startable m with
    | none => .next s
    | some m =>
      match s.rangePageStatus m.dpn m.kind with
      | some st => ((s.dropChosen m).pageStatus m.explicit m.dpn st).done
      | none =>
        let away := match s.locationChannel (s.entry m.dpn).loc with
          | some c => s.frozen c
          | none => false
        if away then
          let s := (s.dropChosen m).countMove m fun r => { r with aborted := r.aborted + 1 }
          (((s.event Ev.moveAborts 0).pageStatus m.explicit m.dpn 6).repost m).done
        else
          match s.beginMove m with
          | some s' => (s'.dropChosen m).done
          | none => if explicit then ((s.dropChosen m).pageStatus m.explicit m.dpn 6).done else .next s

/-! ### Copying (R139, R143, R177) -/

/-- A source line cannot be verified (R143): counted, raised, poisoned; the partner may restore it. -/
def State.moveUe (s : State) (dpaLine : Nat) (place : PoisonPlace) : State :=
  let s := (s.inc PLC_ERRCNT.MOVEUE).raise srcMoveUe
  (s.poisonLine dpaLine .internal place).wantRepair dpaLine none

/-- The shadow leaf after one encryption of each item (R303). -/
def SealLeaf.bumped (l : SealLeaf) (items : List Nat) : SealLeaf :=
  { l with minors := items.foldl (fun t i => Table.put t i (Table.get t 0 i + 1)) l.minors }

/-- Items of the destination were encrypted. -/
def State.shadow (s : State) (dpn : Nat) (items : List Nat) : State :=
  s.setMove dpn fun m => { m with leaf := m.leaf.map fun l => l.bumped items }

/-- One line of a frame as a move reads it: its data, or none where it cannot be verified. Lines already listed carry their
poison and count for nothing more. -/
def State.moveLine (s : State) (dpaLine line : Nat) (f : MediaFind) : Option Line × State :=
  if s.listed dpaLine || s.breached (dpaLine / 64) then (none, s)
  else
    match s.readMedia line f.ecc false with
    | (.data l, s) => if f.macOk then (some l, s) else (none, (s.macFail).moveUe dpaLine (.stored line))
    | (.poison, s) => (none, s.settlePending line dpaLine)
    | (.bad, s) => (none, s.moveUe dpaLine (.stored line))

/-- Lines of a frame, in order: zeros where they cannot be read, with those lines named. -/
def State.moveLines (s : State) (dpn mfn : Nat) (fs : Finds) : List Nat → List Line × NSet × State
  | [] => ([], [], s)
  | i :: is =>
    let (got, s) := s.moveLine (dpn * 64 + i) (mfn * 64 + i) (fs.line (mfn * 64 + i))
    let (ls, bad, s) := s.moveLines dpn mfn fs is
    match got with
    | some l => (l :: ls, bad, s)
    | none => (0 :: ls, bad.add i, s)

/-- A block of a run as a move reads it. -/
def State.moveBlock (s : State) (dpn b : Nat) (src : Location) (fs : Finds) : Option (List Line) × State :=
  let n := src.blockCount b
  let g := s.granuleLine (src.blockStart b)
  let lines := (List.range 16).map fun i => dpn * 64 + b * 16 + i
  let fail := fun (s : State) => (none, lines.foldl (fun s l => if s.heldWhole l then s else s.poisonLine l .internal (.block g))
    ((s.inc PLC_ERRCNT.MOVEUE).raise srcMoveUe))
  if s.coarseBlock src b || lines.all fun l => s.listed l then (none, s)
  else
    match s.readBlock src b (fs.run g n) false with
    | (none, s) => fail s
    | (some img, s) =>
      match decodeStored n img with
      | .ok bytes => (some (cutLines 16 bytes), s)
      | .error _ => fail s

/-- Granules of a demotion's destination as they stand, by block. -/
def State.destBlocks (s : State) (m : Move) : List (List Byte) :=
  match m.dest with
  | .run h _ _ _ _ =>
    (List.range 4).map fun b =>
      let start := (m.counts.take b).sum
      (List.range (m.counts.getD b 0)).flatMap fun i => (s.storedLine (s.granuleLine (h + start + i))).bytes
  | _ => []

/-- Write the blocks of a demotion one behind the other, and keep their counts. -/
def State.putBlocks (s : State) (m : Move) (blocks : List (List Byte)) : State :=
  match m.dest with
  | .run h _ _ _ _ =>
    let counts := blocks.map fun b => b.length / 64
    let s := s.writeLines (s.granuleLine h) (cutLines counts.sum blocks.flatten)
    s.setMove m.dpn fun m => { m with counts := counts }
  | _ => s

/-- Rebuild a block of a demotion's destination from its frame. -/
def State.demoteBlock (s : State) (m : Move) (mfn : Nat) (fs : Finds) (mismatches : List Nat) (done : List (List Byte)) (b : Nat) :
    List (List Byte) × State :=
  let (lines, _, s) := s.moveLines m.dpn mfn fs ((List.range 16).map fun i => b * 16 + i)
  let (f, s) := s.compress m.dpn b (joinLines lines) (mismatches.contains b)
  (done.set b f.bytes, s.shadow m.dpn ((List.range f.count).map fun g => 16 * b + g))

/-- Rebuild blocks of a demotion's destination from its frame. -/
def State.demoteBlocks (s : State) (m : Move) (mfn : Nat) (fs : Finds) (mismatches : List Nat) (bs : List Nat)
    (done : List (List Byte)) : List (List Byte) × State :=
  bs.foldl (fun (x : List (List Byte) × State) b => x.2.demoteBlock m mfn fs mismatches x.1 b) (done, s)

/-- Copy lines of a promotion to its frame. -/
def State.promoteLines (s : State) (m : Move) (mfn : Nat) (fs : Finds) (want : Nat → Bool) : List Nat → State
  | [] => s
  | b :: bs =>
    let is := ((List.range 16).map fun i => b * 16 + i).filter want
    if is.isEmpty then s.promoteLines m mfn fs want bs
    else
      let (got, s) := s.moveBlock m.dpn b m.src fs
      let s := is.foldl (fun s i =>
        let d := (got.getD []).getD (i % 16) 0
        s.storeLine (mfn * 64 + i) d (got.isNone || s.listed (m.dpn * 64 + i))) s
      (s.shadow m.dpn is).promoteLines m mfn fs want bs

/-- Read the granules of blocks that a compaction copies; one that cannot be read makes its block unverifiable. -/
def State.compactBlocks (s : State) (m : Move) (fs : Finds) : List Nat → State
  | [] => s
  | b :: bs =>
    let n := m.src.blockCount b
    let g := s.granuleLine (m.src.blockStart b)
    let lines := (List.range 16).map fun i => m.dpn * 64 + b * 16 + i
    let s := if s.coarseBlock m.src b || lines.all fun l => s.listed l then s
      else
        match s.readLines g (fs.run g n) false n with
        | (some _, s) => s
        | (none, s) => lines.foldl (fun s l => if s.heldWhole l then s else s.poisonLine l .internal (.block g))
            ((s.inc PLC_ERRCNT.MOVEUE).raise srcMoveUe)
    s.compactBlocks m fs bs

/-- One pass over the given lines of a page (R139 steps 2 and 4): a block that holds one is rebuilt or read whole. -/
def State.copyLines (s : State) (m : Move) (lines : NSet) (fs : Finds) (mismatches : List Nat) : State :=
  let blocks := (List.range 4).filter fun b => lines.any fun i => i / 16 == b
  let s := s.takeUnits masterDrift (2 * lines.length)
  match m.kind, m.src, m.dest with
  | .demote, .frame mfn, _ =>
    let old := if m.copied then s.destBlocks m else List.replicate 4 []
    let (bs, s) := s.demoteBlocks m mfn fs mismatches blocks old
    s.putBlocks m bs
  | .promote, _, .frame mfn => s.promoteLines m mfn fs lines.has blocks
  | .compact, _, _ => s.compactBlocks m fs blocks
  | _, _, _ => s

/-! ### The switch (R140, R141) -/

/-- Granules that the destination keeps: those of its blocks, or the source's for a compaction. -/
def Move.counts' (m : Move) : List Nat :=
  match m.kind, m.src with
  | .compact, .run _ c0 c1 c2 c3 => [c0, c1, c2, c3]
  | _, _ => m.counts

/-- The destination at the size used. -/
def Move.final' (m : Move) : Location :=
  match m.dest with
  | .run h _ _ _ _ =>
    let c := m.counts'
    .run h (c.getD 0 0) (c.getD 1 0) (c.getD 2 0) (c.getD 3 0)
  | l => l

/-- Draw space for placement: from the reservation and then from the shared pool, never from the storm reserve (R140). -/
def State.drawPlain (s : State) (c bytes : Nat) : Option State :=
  let used := s.rdAt MAP_CLAIMUSED.BYTES c
  let take := fun (s : State) => (s.wrAt MAP_CLAIMUSED.BYTES c (used + bytes)).accounts
  if s.resvUsed c + bytes ≤ s.reservation c && !s.frozenShortfall then
    some (take { s with map := { s.map with resvUsed := s.map.resvUsed.set 0 c (s.resvUsed c + bytes) } })
  else if bytes ≤ s.sharedFree then some (take { s with map := { s.map with sharedUsed := s.map.sharedUsed + bytes } })
  else none

/-- Recharge a page from its source's size to its destination's (R140). -/
def State.recharge (s : State) (m : Move) : Option State :=
  let c := (s.entry m.dpn).claim
  let old := m.src.bytes
  let new := m.final'.bytes
  if new ≤ old then some (s.returnSpace c (old - new)) else s.drawPlain c (new - old)

/-- After a pass or a cancelled switch: recopy, abort, or start the switch (R138, R139 steps 3 to 6, R140). -/
def State.advanceMove (s : State) (m : Move) : State :=
  let total := m.counts'.sum
  if m.kind = .demote && m.explicit.isNone && decide (s.policy PLC_MOVECFG.MINGAIN < total) then
    let s := (s.abortMove m true true 6).enterFilter m.dpn
    s.countMove m.chosen fun r => { r with incomp := r.incomp + 1 }
  else if m.kind = .demote && m.explicit.isSome && total == 64 then s.abortMove m false false 2
  else if s.policy PLC_MOVECFG.SWITCHMAX < m.dirty.length then
    if m.passes < s.policy PLC_MOVECFG.MAXPASS then s else s.abortMove m true true 6
  else if s.on PLC_STATUS.PAUSED then s
  else if (s.recharge m).isNone then s.abortMove m true true 6
  else s.setMove m.dpn fun m => { m with switching := true, holdStart := s.time }

/-- The move can read its source: a demotion needs a compress pipe, and a promotion of a compressed block a decompress pipe
(R181). -/
def State.moveNeedsPipe (s : State) (m : Move) : Bool :=
  match m.kind with
  | .promote => !s.canDecompress && ([0, 1, 2, 3].any fun b => m.src.blockCount b < 16)
  | _ => false

/-- A copy pass of a move ends (R139). -/
def State.endPass (s : State) (m : Move) (dpn : Nat) (fs : Finds) (mismatches : List Nat) : State :=
  let lines := if m.copied then m.dirty else List.range 64
  let s := if m.copied then s.setMove dpn fun m => { m with dirty := [], passes := m.passes + 1 } else s
  let s := (s.copyLines m lines fs mismatches).setMove dpn fun m => { m with copied := true }
  match s.move dpn with
  | none => s
  | some m => s.advanceMove m

/-- COPY_PASS_END (R139 steps 2 to 6): a copy or recopy pass of a page's move ends. `mismatches` names the blocks whose image
the inline checker rejects. -/
def execCopyPassEnd (dpn : Nat) (fs : Finds) (mismatches : List Nat) (s : State) : Host.Outcome State Fault Refusal :=
  match s.move dpn with
  | none => .next s
  | some m =>
    if m.switching || s.on PLC_STATUS.PAUSED || s.moveNeedsPipe m then .next s
    else if m.kind = .demote && !s.canCompress then (s.abortMove m true true 6).done
    else if [m.src, m.dest].any fun l => (s.locationChannel l).any fun c => s.panicHolds masterDrift c then
      (s.holdUnits masterDrift 1).done
    else
      (s.endPass m dpn fs mismatches).done

/-- Count a finished move (R147, R148). -/
def State.countDone (s : State) (m : Move) : State :=
  let ns := 5 * (s.time - m.holdStart) / 2
  let s := s.countMove m.chosen fun r =>
    { r with
      promoted := if m.kind = .promote then r.promoted + 1 else r.promoted
      demoted := if m.kind = .demote then r.demoted + 1 else r.demoted
      compacted := if m.kind = .compact then r.compacted + 1 else r.compacted
      switchMax := max r.switchMax ns }
  let ev := match m.kind with
    | .promote => Ev.promotions
    | .demote => Ev.demotions
    | .compact => Ev.compactions
  (s.event ev 0).occur Ev.switchHold 0 (ns / 10) none

/-- The switch (R141 steps 3 to 6, R139 step 7): the entry takes the destination, the charge follows, a shadow leaf replaces
the page's leaf (R303), and the source is freed. -/
def State.finishSwitch (s : State) (m : Move) : State :=
  let e := s.entry m.dpn
  match s.recharge m with
  | none => s.abortMove m true true 6
  | some s =>
    let loc := m.final'
    let s := match m.kind, m.src, loc with
      | .compact, .run h _ _ _ _, .run h' _ _ _ _ => s.copyGranules (s.granuleLine h) (s.granuleLine h') m.counts'.sum
      | _, _, _ => s
    let st : PageState := match loc with
      | .run _ _ _ _ _ => .nimbus
      | _ => .stratus
    let s := s.updateEntry m.dpn { e.bump with state := st, loc := loc, keygen := s.rd SEC_VEILSTAT.GEN }
    let s := match m.leaf with
      | some l => s.setLeaf e.keyid (s.pageIndex e.claim m.dpn) l
      | none => s
    let s := match loc with
      | .run h _ _ _ _ => s.trimRun h 64 (64 - m.counts'.sum)
      | .frame f => { s with dram := { s.dram with frames := s.dram.frames.put f (.page m.dpn) } }
      | .nowhere => s
    (((s.freeLocation m.src).endMove m.dpn).countDone m).pageStatus m.explicit m.dpn pageMoved

/-- The switch of a move ends (R141). -/
def State.endSwitch (s : State) (m : Move) (dpn : Nat) (fs : Finds) (mismatches : List Nat) : State :=
  let s := if m.dirty.isEmpty then s else s.copyLines m m.dirty fs mismatches
  match s.move dpn with
  | none => s
  | some m => s.finishSwitch m

/-- SWITCH_END (R141): the lines of the final mask are copied and the switch is done. -/
def execSwitchEnd (dpn : Nat) (fs : Finds) (mismatches : List Nat) (s : State) : Host.Outcome State Fault Refusal :=
  match s.move dpn with
  | none => .next s
  | some m =>
    if !m.switching then .next s
    else
      (s.endSwitch m dpn fs mismatches).done

/-- The switch of a move is cancelled: the move copies on, or aborts after SWITCHTRY cancels. -/
def State.cancelSwitch (s : State) (dpn : Nat) (m : Move) : State :=
  let s := (s.inc PLC_ERRCNT.SWCANCEL).event Ev.switchCancels 0
  let m := { m with switching := false, tries := m.tries + 1 }
  let s := s.setMove dpn fun _ => m
  if s.policy PLC_MOVECFG.SWITCHTRY ≤ m.tries then s.abortMove m true true 6 else s.advanceMove m

/-- SWITCH_CANCEL (R141): step 3 has not finished by 150 ns; the accesses that waited go on against the source. -/
def execSwitchCancel (dpn : Nat) (s : State) : Host.Outcome State Fault Refusal :=
  match s.move dpn with
  | none => .next s
  | some m =>
    if !m.switching then .next s
    else
      (s.cancelSwitch dpn m).done

end Sys2Proof.Machine
end

