-- ==== Sys2Proof/Machine/SnapCmds.lean ====
section
/-! DEFINITION. Snapshot commands and events (07_snapshots_and_export.md): arming (R189, R190), the cut (R191), the eager cursor and
captures (R193–R196), export (R199–R202), abort and release (R210, R211), and the records of an import (R212, R213). -/

namespace Sys2Proof.Machine

/-! ### Arming (R189, R190, R665) -/

/-- Bytes of the index of a slot on a claim (R665). -/
def State.indexBytes (s : State) (c : Nat) : Nat := ceilDiv (4096 + 16 * ceilDiv (s.claimSize c) (2 ^ 21)) 4096 * 4096

/-- The slot may not be armed on its claim beside the claim's live slots (R188, R189). -/
def State.liveLimit (s : State) (c : Nat) : Bool :=
  decide (2 ≤ (s.slotsOf c).length) || s.snp.clearing.has c ||
    (s.slotsOf c).any fun m => [slotArming, slotArmed, slotPreserving, slotAborting].contains (s.slotState m)

/-- The arm check (R189), but for the partner's answer. -/
def State.armCheck (s : State) (n : Nat) (waited : Bool) : Nat :=
  let c := s.rdAt SNP_ARM.CLAIM n
  let t := s.rdAt SNP_ARM.TARGET n
  let live := (s.liveSlots.map fun m => s.indexBytes (s.rdAt SNP_ARM.CLAIM m)).sum
  firstCode
    [(!s.on SYS_CTL.DEV_ENABLE, 0x58), (s.slotState n != slotFree || ((s.slot n).waitPartner && !waited), 0x50),
     (!s.onAt MAP_CLAIMATTR.COMMIT c || s.onAt MAP_CLAIMSTAT.RELEASING c || !s.onAt MAP_CLAIMATTR.SNAPSHOT_ALLOWED c,
      0x51),
     (s.liveLimit c, 0x52), (decide (s.rdAt SNP_RESERVE.SIZE n < 128), 0x53),
     (t == 3 || (t == targetPartner && s.pairState != pairMirrored), 0x54),
     (s.onAt MAP_CLAIMATTR.SEALED c && (s.slot n).keyRef.isNone, 0x57),
     (decide (2 ^ 28 < live + s.indexBytes c), 0x59),
     (decide (s.rd MAP_CAPUSABLE.BYTES - s.rd MAP_CAPSTORMSIZE.BYTES < s.rd MAP_CAPCHARGED.BYTES + s.reserveBytes n),
      0x56)]

/-- The slot is armed: its reserve is charged, and the device starts to mark the claim's pages (R189, R197). -/
def State.finishArm (s : State) (n peer : Nat) : State :=
  let s := s.setSlot n { keyRef := (s.slot n).keyRef }
  let s := ((s.putAt SNP_ARM.ARM n true).wrAt SNP_STATUS.CHECK n 0).wrAt SNP_STATUS.STATE n slotArming
  let s := ((s.wrAt SNP_STATUS.CURSOR n 0).wrAt SNP_STATUS.PEER n peer).wrAt SNP_BYTES.BYTES n 0
  (s.wr MAP_CAPCHARGED.BYTES (s.rd MAP_CAPCHARGED.BYTES + s.reserveBytes n)).accounts.slotUse n

/-- A slot takes a stream number; an export to the partner asks it for a receive slot. -/
def State.startArm (s : State) (n : Nat) : State :=
  let s := (s.wrAt SNP_STREAMID.STREAMID n s.snp.nextStream)
  let s := { s with snp := { s.snp with nextStream := (s.snp.nextStream + 1) % 2 ^ 64 } }
  if s.rdAt SNP_ARM.TARGET n = targetPartner then
    let c := s.rdAt SNP_ARM.CLAIM n
    (s.onSlot n fun x => { x with waitPartner := true }).ctrl
      (.rxOpen (s.rdAt SNP_STREAMID.STREAMID n % 2 ^ 32) n (s.rdAt MAP_CLAIMATTR.SLICE c) (s.rdAt SNP_RESERVE.SIZE n)
        c (s.rdAt SNP_STREAMID.STREAMID n))
  else s.finishArm n 0

/-- Run the arm check. A PARTNER target waits for the partner's receive slot (R201, R413). -/
def State.askArm (s : State) (n : Nat) : State :=
  match s.armCheck n false with
  | 0 => s.startArm n
  | code => s.wrAt SNP_STATUS.CHECK n code

/-- The partner has answered an arm check, or has not within 100 ms (R413): `answer` holds its receive slot where it gave
one. The export key of a sealed claim goes to the partner's Zenith (R208). -/
def State.armAnswer (s : State) (n : Nat) (answer : Option Nat) : State :=
  let code := s.armCheck n true
  let s := s.onSlot n fun x => { x with waitPartner := false }
  match answer with
  | none => s.wrAt SNP_STATUS.CHECK n 0x55
  | some peer =>
    if code = 0 then
      let s := s.finishArm n peer
      match (s.slot n).keyRef with
      | some ref => s.ctrl (.xkey ref n ((s.exportKey ref).getD 0))
      | none => s
    else (s.wrAt SNP_STATUS.CHECK n code).ctrl (.rxClose (s.rdAt SNP_STREAMID.STREAMID n % 2 ^ 32) peer 0)

/-- SNP_ARM_ARM (R189): a write of SNP_ARM of the selected slot. -/
def execSnpArmArm (p : Path) (v : Nat) (s : State) : Host.Outcome State Fault Refusal :=
  let n := s.rdAt SNP_SLOTSEL.SLOT (pathCopy p)
  let s := s.storeFields [SNP_ARM.TARGET, SNP_ARM.CLAIM] n v
  if SNP_ARM.ARM.set v then (s.askArm n).done else s.done

/-- The backed pages of an arming slot's claim are marked; it is ARMED once none of them is IN_FLIGHT. -/
def State.markPages (s : State) (n : Nat) : State :=
  let pages := (s.pagesOf (s.rdAt SNP_ARM.CLAIM n)).filter fun p => (s.entry p).state != .unbacked
  let s := pages.foldl (fun s p => if (s.entry p).snap then s else s.setSnap p true) s
  if pages.any fun p => (s.entry p).state == .inFlight then s else s.wrAt SNP_STATUS.STATE n slotArmed

/-- ARMING_COMPLETE (R190): the walk has passed the end of the claim: every backed page is marked, and the slot is ARMED
once no marked page is IN_FLIGHT. -/
def execArmingComplete (n : Nat) (s : State) : Host.Outcome State Fault Refusal :=
  if s.slotState n = slotArming then
    (s.markPages n).done
  else s.done

/-! ### The cut and the eager cursor (R191, R193, R198) -/

/-- First page of a slot's claim. -/
def State.slotBase (s : State) (n : Nat) : Nat := s.claimBase (s.rdAt SNP_ARM.CLAIM n) / 4096

/-- Pages of a slot's claim that the cursor treats from its position on, as page indexes: marked ones and captures (R193). -/
def State.cursorPages (s : State) (n : Nat) : List Nat :=
  let base := s.slotBase n
  let marked := ((s.pagesOf (s.rdAt SNP_ARM.CLAIM n)).filter fun p => (s.entry p).snap).map fun p => p - base
  let all : NSet := marked.foldl NSet.add ((s.slot n).captures.map Prod.fst)
  all.filter fun p => decide (s.rdAt SNP_STATUS.CURSOR n ≤ p)

/-- Stream bytes of a SHADOW slot are delivered when they are in its reserve (R202, R218). -/
def State.shadowBytes (s : State) (n : Nat) : State :=
  if s.rdAt SNP_ARM.TARGET n = targetShadow then s.wrAt SNP_BYTES.BYTES n ((s.slot n).stream.length % 2 ^ 48) else s

/-- The cursor passes the end of the claim: END joins the stream, and the slot drains; a SHADOW slot is DONE (R187, R193,
R207). -/
def State.endStream (s : State) (n : Nat) : State :=
  let x := s.slot n
  let s := s.emitStream n (endFrame false 0 x.records (x.base + x.stream.length) x.crc)
  let s := s.onSlot n fun x => { x with ended := true }
  let s := s.wrAt SNP_STATUS.CURSOR n (s.claimSize (s.rdAt SNP_ARM.CLAIM n) / 4096)
  let st := if s.rdAt SNP_ARM.TARGET n = targetShadow then slotDone else slotDraining
  (s.wrAt SNP_STATUS.STATE n st).shadowBytes n

/-- The cursor moves to the next page it has to treat; pages between have nothing to emit. -/
def State.cursorOn (s : State) (n : Nat) : State :=
  match s.cursorPages n with
  | [] => s.endStream n
  | p :: _ => s.wrAt SNP_STATUS.CURSOR n p

/-- The cut of an ARMED slot (R191): the stream starts with its header. -/
def State.cutSlot (s : State) (n : Nat) : State :=
  let s := (s.wrAt SNP_CUTTS.CUTTS n s.stamp).wrAt SNP_STATUS.STATE n slotPreserving
  let s := ((s.wrAt SNP_COUNT.CAPTURES n 0).wrAt SNP_COUNT.HOLDMAX n 0).wrAt SNP_USE.PEAK n 0
  ((s.emitStream n (s.streamHeader n)).shadowBytes n).wrAt SNP_STATUS.CURSOR n 0

/-- Lines that a copy could not read although their page is reachable enter the poison list as any read's do (R179, R263,
R453); a tag failure alone leaves no entry (R296). -/
def State.settleCopy (s : State) (dpn : Nat) (p : PageCopy) (fs : Finds) : State :=
  let e := s.entry dpn
  let reachable := match s.locationChannel e.loc with
    | some c => s.serving c
    | none => false
  if e.state = .lost || !reachable || s.breached dpn then s
  else
    match e.loc with
    | .run _ _ _ _ _ =>
      (p.blocks.zipIdx).foldl (fun s b =>
        let lost := (fs.run (s.granuleLine (e.loc.blockStart b.2)) b.1.1).any fun f => f.ecc == .uncorrectable
        if b.1.2.isEmpty && lost && !((List.range 16).all fun i => s.listed (dpn * 64 + b.2 * 16 + i)) then
          s.badBlock dpn b.2 DecodeFault.media.code
        else s) s
    | _ =>
      p.bad.foldl (fun s i =>
        let l := dpn * 64 + i
        let tagOnly := match e.loc with
          | .frame mfn => (fs.line (mfn * 64 + i)).ecc != .uncorrectable
          | _ => true
        if s.listed l || s.heldWhole l || tagOnly then s
        else (s.poisonLine l .internal (s.linePlace l)).wantRepair l none) s

/-- Read a page for a copy, and count what could not be verified (R193, R195, R196). -/
def State.takeCopy (s : State) (dpn : Nat) (fs : Finds) : PageCopy × State :=
  let (p, s) := s.copyPage dpn fs
  (p, (s.settleCopy dpn p fs).countBad p)

/-- A slot whose reserve cannot take what was staged aborts (R198). -/
def State.checkReserve (s : State) (n : Nat) : State :=
  if s.reserveBytes n < s.slotUsed n then s.abortSlot n abortReserve else s

/-- The cursor of a slot emits the record of a page (R193). -/
def State.cursorStep (s : State) (n p dpn : Nat) (fs : Finds) : State :=
  let s := match (s.slot n).captures.find p with
    | some c =>
      let s := s.onSlot n fun x => { x with captures := x.captures.erase p, captureSize := x.captureSize.erase p }
      s.emitRecord n p c
    | none =>
      let (c, s) := s.takeCopy dpn fs
      ((s.emitRecord n p c).setSnap dpn false).releaseHeld n dpn
  let s := ((s.wrAt SNP_STATUS.CURSOR n (p + 1)).shadowBytes n).pumpSlots.checkReserve n
  if s.slotState n = slotPreserving then (s.cursorOn n) else s

/-- The cursor of a slot is at a page of its claim. -/
def State.cursorAt (s : State) (n p : Nat) (fs : Finds) : State :=
  let s := s.wrAt SNP_STATUS.CURSOR n p
  let dpn := s.slotBase n + p
  let waited := (s.slot n).held.any fun h => h.1 == p
  if s.capturing n dpn || s.behindEarlier n p then s
  else if !waited && (s.locationChannel (s.entry dpn).loc).any fun c => s.panicHolds masterSnapx c then
    s.holdUnits masterSnapx 1
  else s.cursorStep n p dpn fs

/-- EAGER_CURSOR_READ (R193, R194, R198, R209): the read of the cursor's next page ends, or the cursor passes the end. -/
def execEagerCursorRead (n : Nat) (fs : Finds) (s : State) : Host.Outcome State Fault Refusal :=
  if !s.cursorRuns n then s.done
  else
    match s.cursorPages n with
    | [] => (s.endStream n).done
    | p :: _ =>
      (s.cursorAt n p fs).done

/-! ### Captures (R195) -/

/-- The slot and page whose capture has waited longest for a tracker. -/
def State.nextCapture (s : State) : Option (Nat × Nat) :=
  let all := s.snp.slots.flatMap fun e => e.2.noTracker.map fun p => (e.2.since.get 0 p, e.1, p)
  (all.foldl (fun (best : Option (Nat × Nat × Nat)) c =>
    match best with
    | none => some c
    | some b => if c.1 < b.1 then some c else some b) none).map fun c => (c.2.1, c.2.2)

/-- Waiting captures take free trackers in arrival order (R195 step 2). -/
def State.giveTrackers (s : State) : Nat → State
  | 0 => s
  | fuel + 1 =>
    if 64 ≤ s.snp.tracking.length then s
    else
      match s.nextCapture with
      | none => s
      | some (n, p) => (s.takeTracker n p).giveTrackers fuel

/-- CAPTURE_TRACKER_FREE (R195 steps 2 and 3): trackers have become free. -/
def execCaptureTrackerFree (s : State) : Host.Outcome State Fault Refusal := (s.giveTrackers 64).done

/-- A capture tracker has read a page (R195). -/
def State.endCapture (s : State) (n dpn : Nat) (fs : Finds) : State :=
  let (c, s) := s.takeCopy dpn fs
  let hold := (s.time - (s.slot n).since.get s.time dpn) * 5 / 2
  let s := s.onSlot n fun x => { x with captures := x.captures.put (dpn - s.slotBase n) c }
  let s := (s.incAt SNP_COUNT.CAPTURES n).wrAt SNP_COUNT.HOLDMAX n (max (s.rdAt SNP_COUNT.HOLDMAX n) (min hold 0xFFFF))
  let s := { s with snp := { s.snp with tracking := s.snp.tracking.filter fun t => t != (n, dpn) } }
  let s := ((s.setSnap dpn false).slotUse n).releaseHeld n dpn
  ((s.event Ev.captures 0)).occur Ev.captureHold 0 hold none

/-- CAPTURE_END (R195 steps 4 to 7): the page is copied, its mark goes, and the held changes are released. -/
def execCaptureEnd (n dpn : Nat) (fs : Finds) (s : State) : Host.Outcome State Fault Refusal :=
  if s.snp.tracking.contains (n, dpn) && s.slotState n == slotPreserving then
    (s.endCapture n dpn fs).done
  else s.done

/-- CAPTURE_TIME (R195): a capture has not ended by 950 ns; the slot aborts. -/
def execCaptureTime (n dpn : Nat) (s : State) : Host.Outcome State Fault Refusal :=
  if s.capturing n dpn && s.slotState n == slotPreserving then (s.abortSlot n abortTime).done else s.done

/-! ### Export (R199–R202) -/

/-- The stream bytes that a slot has for its front buffer now, up to a 4 KiB boundary of the buffer, and whether they end
the stream. -/
def State.nextChunk (s : State) (n : Nat) : Option (List Byte × Bool) :=
  let x := s.slot n
  match x.buffers with
  | [] => none
  | b :: _ =>
    let want := min (4096 - b.filled % 4096) (b.len - b.filled)
    let kept := x.receive || s.rdAt SNP_ARM.TARGET n == targetShadow
    let live := if kept then s.slotState n == slotDone
      else s.rdAt SNP_ARM.TARGET n == targetHost && (s.slotState n == slotPreserving || s.slotState n == slotDraining)
    let rest := if kept then x.stream.drop (x.pass.getD 0) else x.stream
    if live && !s.onAt SNP_STATUS.PAUSED n && !rest.isEmpty then
      some (rest.take want, x.ended && decide (rest.length ≤ want))
    else none

/-- A chunk of a stream has reached the host's buffers. -/
def State.deliverChunk (s : State) (n : Nat) (bs : List Byte) (last : Bool) : State :=
  let s := s.fillBuffers n bs (if last then some (stOk, false) else none) 2
  let x := s.slot n
  if x.receive || s.rdAt SNP_ARM.TARGET n == targetShadow then
    s.onSlot n fun x => { x with pass := if last then none else some (x.pass.getD 0 + bs.length) }
  else
    let s := s.delivered n bs.length
    if last then (s.wrAt SNP_STATUS.STATE n slotDone).dropBuffers n stOk else s

/-- EXPORT_DMA_COMPLETE (R199, R202): a chunk of the stream has been written to the front buffer. -/
def execExportDmaComplete (n : Nat) (s : State) : Host.Outcome State Fault Refusal :=
  match s.nextChunk n, (s.slot n).buffers with
  | some (bs, last), b :: _ =>
    if (s.maskUp b.mask).isEmpty then s.done
    else
      (s.deliverChunk n bs last).done
  | _, _ => s.done

/-- An export cannot go on: the slot aborts, or only the pass of a DONE slot ends (R200). -/
def State.failExport (s : State) (n : Nat) : State :=
  if s.slotState n = slotDone then
    match (s.slot n).buffers with
    | [] => s
    | b :: rest =>
      (s.finishDesc b.queue b.index stDmaError b.filled).onSlot n fun x => { x with buffers := rest, pass := none }
  else s.abortSlot n abortTarget

/-- EXPORT_DMA_ERROR (R200): an export DMA write failed. -/
def execExportDmaError (n : Nat) (s : State) : Host.Outcome State Fault Refusal :=
  match s.nextChunk n with
  | some _ => ((s.inc SNP_ERRCNT.DMAERR).failExport n).done
  | none => s.done

/-- EXPORT_LINK_TIMEOUT (R200): for 10 ms the slot had bytes to write and no link of the buffer's mask was up. -/
def execExportLinkTimeout (n : Nat) (s : State) : Host.Outcome State Fault Refusal :=
  match s.nextChunk n, (s.slot n).buffers with
  | some _, b :: _ => if (s.maskUp b.mask).isEmpty then (s.failExport n).done else s.done
  | _, _ => s.done

/-- A SNAP_EXPORT reaches a slot (R199, R202, R210): queued, or completed at once with the status given. A PARTNER slot has no
bytes for a host buffer: SNAP_STATE (DESIGN CHOICE). -/
def State.exportTo (s : State) (n : Nat) (b : ExportBuffer) : State :=
  let st := s.slotState n
  let kept := (s.slot n).receive || s.rdAt SNP_ARM.TARGET n == targetShadow
  if st = slotFree then s.finishDesc b.queue b.index stSnapState 0
  else if st = slotAborting ∨ st = slotAborted then s.finishDesc b.queue b.index stSnapAborted 0
  else if !kept && s.rdAt SNP_ARM.TARGET n == targetPartner then s.finishDesc b.queue b.index stSnapState 0
  else if st = slotDone && !kept then s.finishDesc b.queue b.index stOk 0
  else (s.onSlot n fun x => { x with buffers := x.buffers ++ [b] }).slotUse n

/-! ### Abort and release (R210, R211) -/

/-- The marks of an aborting slot are cleared: it is ABORTED, or FREE where its release waited. -/
def State.endAbort (s : State) (n : Nat) : State :=
  let s := if (s.slot n).receive then s else s.clearMarks (s.rdAt SNP_ARM.CLAIM n)
  if (s.slot n).releasing then s.freeSlot n
  else (s.closePeer n (s.rdAt SNP_STATUS.ABORTCAUSE n)).wrAt SNP_STATUS.STATE n slotAborted

/-- ABORT_MARKS_CLEARED (R210 steps 5 and 6, R211): the pass over the claim's marks has ended. -/
def execAbortMarksCleared (n : Nat) (s : State) : Host.Outcome State Fault Refusal :=
  if s.slotState n = slotAborting then
    (s.endAbort n).done
  else s.done

/-- The clearing of a claim's marks ends. -/
def State.endMarkClear (s : State) (claim : Nat) : State :=
  let s := s.clearMarks claim
  { s with snp := { s.snp with clearing := s.snp.clearing.remove claim } }

/-- SNAP_MARK_CLEAR_END (R210): the background pass after a warm reset has passed the end of a claim. -/
def execSnapMarkClearEnd (claim : Nat) (s : State) : Host.Outcome State Fault Refusal :=
  if !s.on RST_CTL.WARM && s.snp.clearing.has claim then
    (s.endMarkClear claim).done
  else s.done

/-- Release of a slot (R211); gives the status of the command. -/
def State.releaseSlot (s : State) (n : Nat) : Nat × State :=
  let st := s.slotState n
  let leave := fun (s : State) => s.onSlot n fun x => { x with releasing := true }
  if st = slotArmed then
    (stOk, leave ((s.dropBuffers n stSnapAborted).wrAt SNP_STATUS.STATE n slotAborting))
  else if st = slotPreserving ∨ st = slotDraining then (stOk, leave (s.abortSlot n abortRelease))
  else if st = slotDone ∨ st = slotAborted then (stOk, s.freeSlot n)
  else (stSnapState, s)

/-! ### IMPORT (R212, R213) -/

/-- The import of a descriptor. -/
def State.importOf (s : State) (q i : Nat) : Option ImportJob := s.snp.imports.find? fun j => j.queue == q && j.index == i

/-- Replace an import. -/
def State.setImport (s : State) (j : ImportJob) : State :=
  { s with snp := { s.snp with
    imports := s.snp.imports.map fun k => if k.queue = j.queue ∧ k.index = j.index then j else k } }

/-- An import ends with a status (R213). -/
def State.endImport (s : State) (j : ImportJob) (st : Nat) : State :=
  let s := { s with snp := { s.snp with imports := s.snp.imports.filter fun k => k.queue != j.queue || k.index != j.index } }
  s.finishDesc j.queue j.index st (j.imported + j.skipped * 2 ^ 32)

/-- The four block images of a record, or none for one that does not decode (R206, R213). -/
def cutImages (lens : List Nat) (body : List Byte) : List (List Byte) :=
  match lens with
  | [] => []
  | n :: ns => body.take (8 * n) :: cutImages ns (body.drop (8 * n))

/-- A decoded block with the form in which the device stores its image (R212); none where decoding fails. -/
def importBlock (img : List Byte) : Option (List Byte × FormedBlock) :=
  if img.length < 16 ∨ 1032 < img.length then none
  else
    match decodeImage img false with
    | .error _ => none
    | .ok block =>
      let count := ceilDiv img.length 64
      let h := ofBytes (img.take 4)
      let tlen := bits h 8 11
      if bit h 4 || decide (16 ≤ count) then some (block, rawBlock block)
      else some (block, ⟨count, imageOf false ((img.drop 4).take tlen) block (count * 64)⟩)

/-- What storing an imported page comes to. -/
inductive Stored where
  | stored
  | noSpace
  | waits
  deriving DecidableEq, Repr

/-- Store an imported page as NIMBUS or STRATUS (R212). -/
def State.storeImport (s : State) (c dpn : Nat) (blocks : List (List Byte × FormedBlock)) : Stored × State :=
  if s.nimbusAllowed c then
    let counts := blocks.map fun b => b.2.count
    let total := counts.sum
    match s.drawSpace c (64 * total) with
    | none => (.noSpace, s)
    | some s1 =>
      match s1.writebackRun none total with
      | none => (.waits, s)
      | some (heap, s2) =>
        let loc : Location := .run heap (counts.getD 0 16) (counts.getD 1 16) (counts.getD 2 16) (counts.getD 3 16)
        let s3 := s2.updateEntry dpn (s2.backedEntry dpn .nimbus loc)
        match s3.protectWrite dpn (pageItems loc) with
        | none => (.waits, s)
        | some s4 => (.stored, (blocks.zipIdx).foldl (fun s b => s.writeGranules loc b.2 b.1.2.bytes) s4)
  else
    match s.backPage dpn with
    | (.ok, s) =>
      match (s.entry dpn).loc with
      | .frame mfn => (.stored, s.writeLines (mfn * 64) (cutLines 64 (blocks.map fun b => b.1).flatten))
      | _ => (.stored, s)
    | (.noSpace, s) => (.noSpace, s)
    | _ => (.waits, s)

/-- The partner learns an imported page that is homed here: RSW lines while it is mirrored, else its stripes are marked
(R444, R450). -/
def State.mirrorImport (s : State) (dpn : Nat) (poison : Nat) (lines : List Line) : State :=
  if !s.homeFor (dpn * 4096) then s
  else if s.mirroring then
    (List.range 4).foldl (fun s b =>
      s.queuePacket (.rsw ((List.range 16).map fun i =>
        ⟨dpn * 64 + 16 * b + i, lines.getD (16 * b + i) 0, ByteMask.full, bit poison (16 * b + i)⟩))) s
  else if s.pairState = pairExposed then s.markStripe (dpn * 64)
  else s

/-- Apply a good record to its page (R212, R213). Gives the job and whether it was applied; it waits for room otherwise. -/
def State.applyRecord (s : State) (j : ImportJob) (page poison : Nat) (images : List (List Byte)) : Option (ImportJob × State) :=
  let dpn := s.claimBase j.claim / 4096 + j.offset + page
  if (s.entry dpn).state != .unbacked then some ({ j with skipped := j.skipped + 1, partly := true }, s)
  else
    let zeros : List Byte := List.replicate 1024 0
    let got := images.map importBlock
    let blocks := got.map fun g => g.getD (zeros, formBlock zeros)
    let failed := ((got.zipIdx).map fun g => if g.1.isNone then (2 ^ 16 - 1) * 2 ^ (16 * g.2) else 0).sum
    match s.storeImport j.claim dpn blocks with
    | (.waits, _) => none
    | (.noSpace, s) => some ({ j with partly := true }, s.dropTrace dpn 0)
    | (.stored, s) =>
      let s := if failed = 0 then s else s.inc SNP_ERRCNT.IMPBAD
      let bad := Nat.lor poison failed
      let s := (List.range 64).foldl (fun s i =>
        if bit bad i then s.poisonLine (dpn * 64 + i) .internal (s.linePlace (dpn * 64 + i)) else s) s
      let s := s.mirrorImport dpn bad (cutLines 64 (blocks.map fun b => b.1).flatten)
      some ({ j with imported := j.imported + 1, partly := j.partly || bad != 0 }, s.event Ev.importRecords 0)

/-- The images of a record's body, opened with the export key where the stream is sealed (R208). A body whose tag does not
match gives images that do not decode (DEDUCED). -/
def State.openBody (s : State) (j : ImportJob) (lens : List Nat) (head body : List Byte) : List (List Byte) :=
  if j.sealedStream then
    match (s.heldKey j.keyRef).bind fun key => Config.gcmOpen key (j.streamId % 2 ^ 32 * 2 ^ 64 + j.records + 1) head body with
    | some plain => cutImages lens plain
    | none => lens.map fun _ => []
  else cutImages lens body

/-- What the next frame of a stream, given the bytes that are left, tells an import. -/
inductive Frame where
  | bad
  | record (size page poison : Nat) (lens : List Nat)
  | fin (status : Nat) (scrc : Nat)
  deriving DecidableEq, Repr

/-- Frame the front of a byte list (R205, R207, R213). -/
def readFrame (isSealed : Bool) (bs : List Byte) : Frame :=
  let w := ofBytes (bs.take 8)
  if bits w 0 8 = 2 && decide (24 ≤ bs.length) && ofBytes ((bs.drop 12).take 4) == crc32c (bs.take 12) then
    let lens := (List.range 4).map fun b => (bs.getD (8 + b) 0).toNat
    let size := 24 + 8 * lens.sum + (if isSealed then 16 else 0)
    if bs.length < size then .bad else .record size (bits w 16 36) (ofBytes ((bs.drop 16).take 8)) lens
  else if bits w 0 8 = 3 && decide (32 ≤ bs.length) && ofBytes ((bs.drop 28).take 4) == crc32c (bs.take 28) then
    .fin (bits w 8 2) (ofBytes ((bs.drop 24).take 4))
  else .bad

/-- The bytes of a source from an import's position on: of a slot's stream, or as read from the host buffer, which ends at
its length. -/
def State.importBytes (s : State) (j : ImportJob) (host : List Byte) : List Byte :=
  match j.src with
  | some n => ((s.slot n).stream.drop j.bytes).take 4200
  | none => host.take (j.len - j.bytes)

/-- One frame of an import (R212, R213). -/
def State.stepImport (s : State) (j : ImportJob) (host : List Byte) : State :=
  let bs := s.importBytes j host
  match readFrame j.sealedStream bs with
  | .bad => (if decide (24 ≤ bs.length) then s.inc SNP_ERRCNT.IMPBAD else s).endImport j stStreamInvalid
  | .fin st scrc =>
    if st = 0 ∧ scrc = Nat.xor j.crc 0xFFFFFFFF then s.endImport j (if j.partly then stPartial else stOk)
    else s.endImport j stStreamInvalid
  | .record size page poison lens =>
    let step := fun (j : ImportJob) => { j with
      bytes := j.bytes + size, crc := crcMore j.crc (bs.take size), records := j.records + 1, last := some page
      waitsRoom := false }
    let badPage := decide (j.pages ≤ page) || (match j.last with
      | some l => decide (page ≤ l)
      | none => false)
    if badPage then (s.inc SNP_ERRCNT.IMPBAD).setImport { step j with partly := true }
    else
      let body := (bs.take size).drop 24
      match s.applyRecord j page poison (s.openBody j lens (bs.take 24) body) with
      | some (j', s) => (if j.waitsRoom then s.endRoomWait else s).setImport (step j')
      | none =>
        -- the record waits for room; the next command of this kind tries it again (R664)
        if j.waitsRoom then s else s.startRoomWait.setImport { j with waitsRoom := true }

/-- IMPORT_RECORD (R212, R213): the next frame of an import's stream has been read. The import stops when its claim is being
released (R366). -/
def execImportRecord (queue index : Nat) (bytes : List Byte) (s : State) : Host.Outcome State Fault Refusal :=
  match s.importOf queue index with
  | none => s.done
  | some j =>
    let c := j.claim
    if s.onAt MAP_CLAIMATTR.COMMIT c && !s.onAt MAP_CLAIMSTAT.RELEASING c then (s.stepImport j bytes).done
    else (s.endImport j stRange).done

end Sys2Proof.Machine
end

