-- ==== Sys2Proof/Machine/QueueCmds.lean ====
section
/-! DEFINITION. Slices, doorbell pages and queues (12_queues_and_slices.md): enable, remove and reset of slices (R348, R373, R374),
doorbells (R350–R355), queue enable, disable and resize (R352, R375, R376), the fetch and check of descriptors (R357–R362), and
their completion (R356, R360, R372). -/

namespace Sys2Proof.Machine

/-! ### Slices (R348, R374) -/

/-- The slice enable check (R348). -/
def State.sliceCheck (s : State) (n : Nat) : Nat :=
  firstCode
    [(!s.on SYS_CTL.DEV_ENABLE, 0xA0), (n == 0, 0xA2), (s.onAt SLC_STAT.RESETTING n, 0xA5),
     ((s.copiesWith SLC_CTL.ENABLE 1).any fun m => m != n && s.rdAt SLC_CFG.PASID m == s.rdAt SLC_CFG.PASID n, 0xA1)]

/-- A write of 1 to SLC_CTL.ENABLE of a slice; it has no effect on an enabled one. -/
def State.askSlice (s : State) (n : Nat) : State :=
  if s.onAt SLC_CTL.ENABLE n then s
  else
    let code := s.sliceCheck n
    let s := s.wrAt SLC_CTL.CHECK n code
    if code = 0 then s.putAt SLC_CTL.ENABLE n true else s

/-- SLC_ENABLE (R348): a write of 1 to SLC_CTL.ENABLE of the selected slice. -/
def execSlcEnable (p : Path) (s : State) : Host.Outcome State Fault Refusal :=
  (s.askSlice (s.rdAt SLC_SEL.SLICE (pathCopy p))).done

/-- Pins of a slice are released (R110). -/
def State.dropPins (s : State) (slice : Nat) : State :=
  (s.cir.ways.filter fun e => e.2.pinned && e.2.pinSrc == slice).foldl (fun s e => s.unpinWay e.1 e.2) s

/-- Everything of a slice's descriptors that a unit still holds is dropped: imports, buffers queued on slots, read-out passes,
scrubs, and explicit moves not started (R373 steps 2 and 3). -/
def State.dropWork (s : State) (mine : Nat → Nat → Bool) : State :=
  let s := { s with
    snp := { s.snp with imports := s.snp.imports.filter fun j => !mine j.queue j.index }
    plc := { s.plc with chosen := s.plc.chosen.filter fun (m : Chosen) => match m.explicit with
      | some (q, i) => !mine q i
      | none => true } }
  let s := (s.snp.slots.map Prod.fst).foldl (fun s n =>
    if (s.slot n).buffers.any fun b => mine b.queue b.index then
      s.onSlot n fun x => { x with buffers := x.buffers.filter fun b => !mine b.queue b.index, pass := none }
    else s) s
  (s.que.descs.filter fun d => d.op == 0x10 && d.status.isNone && mine d.queue d.index).foldl (fun s d =>
    s.stopScrub (.descriptor d.queue d.index)) s

/-- A queue belongs to a slice. -/
def State.queueOf (s : State) (slice q : Nat) : Bool := s.queueOwner q == some slice

/-- Slice reset, steps 1 to 4 (R373). `warm`: the snapshot slots have already aborted (R514). -/
def State.startSliceReset (s : State) (n : Nat) (warm : Bool) : State :=
  let s := (s.putAt SLC_STAT.RESETTING n true).putAt SLC_CTL.RESET n true
  let s := s.wrAt SLC_STAT.GEN n ((s.rdAt SLC_STAT.GEN n + 1) % 2 ^ 16)
  let slots := s.liveSlots.filter fun m => s.slotSlice m == n
  let s := if warm then s
    else slots.foldl (fun s m =>
      if s.slotState m = slotPreserving ∨ s.slotState m = slotDraining then s.abortSlot m abortSlice
      else if s.slotState m = slotDone then s.onSlot m fun x => { x with pass := none }
      else s) s
  (s.dropWork fun q i => match s.desc q i with
    | some d => d.slice == n
    | none => false).dropPins n

/-- A slice reset is asked for: ignored unless the slice is enabled and not resetting (R373). -/
def State.askSliceReset (s : State) (n : Nat) : State :=
  if !s.onAt SLC_CTL.ENABLE n || s.onAt SLC_STAT.RESETTING n then s else s.startSliceReset n false

/-- SLC_RESET (R373): a write of 1 to SLC_CTL.RESET of the selected slice. -/
def execSlcReset (p : Path) (s : State) : Host.Outcome State Fault Refusal :=
  (s.askSliceReset (s.rdAt SLC_SEL.SLICE (pathCopy p))).done

/-- A queue is DISABLED with heads and tails at 0 and PHASE 1. -/
def State.clearQueue (s : State) (q : Nat) : State :=
  let s := ((s.wrAt QUE_STAT.SQHEAD q 0).wrAt QUE_STAT.CQTAIL q 0).wrAt QUE_STAT.PHASE q 1
  let s := { s with que := { s.que with sqTail := s.que.sqTail.erase q, cqHead := s.que.cqHead.erase q } }
  s.queueStatus q

/-- Slice reset, step 5 (R373): the slice's queues are DISABLED; descriptors that finished carry the old generation and are
discarded (R372). -/
def State.endSliceReset (s : State) (n : Nat) : State :=
  let late := (s.que.descs.filter fun d => d.slice == n && d.status.isSome).length
  let s := { s with que := { s.que with descs := s.que.descs.filter fun d => d.slice != n } }
  let s := (s.addAt SLC_LATE.DROPS n late).addAt QUE_ERRCNT.LATEDROP 0 late
  let s := s.occur Ev.completionsLate 0 late (some n)
  let s := if 0 < late && !s.sticky srcQueLate then s.raise srcQueLate else s
  let s := (s.activeQueues n).foldl (fun s q =>
    ((s.clearQueue q).putAt QUE_CTL.ENABLE q false).putAt QUE_CTL.RESIZE q false |>.setQueue q queDisabled) s
  (s.putAt SLC_STAT.RESETTING n false).putAt SLC_CTL.RESET n false

/-- SLICE_RESET_END (R373 step 5). -/
def execSliceResetEnd (slice : Nat) (s : State) : Host.Outcome State Fault Refusal :=
  if s.onAt SLC_CTL.RESET slice && !s.que.removing.has slice then (s.endSliceReset slice).done else s.done

/-- A slice owns a committed or releasing claim, or a live snapshot slot (R374). -/
def State.sliceInUse (s : State) (n : Nat) : Bool :=
  ((s.committed ++ s.releasing).any fun c => s.rdAt MAP_CLAIMATTR.SLICE c == n) ||
    s.liveSlots.any fun m => s.slotSlice m == n

/-- The removal of a slice begins with its reset. -/
def State.removeSlice (s : State) (n : Nat) : State :=
  let s := s.wrAt SLC_CTL.CHECK n 0
  let s := if s.onAt SLC_STAT.RESETTING n then s else s.startSliceReset n false
  { s with que := { s.que with removing := s.que.removing.add n } }

/-- A write of 0 to SLC_CTL.ENABLE of a slice; it has no effect on slice 0 and on one that is not enabled. -/
def State.askRemove (s : State) (n : Nat) : State :=
  if n = 0 ∨ s.onAt SLC_CTL.ENABLE n = false then s
  else if s.sliceInUse n then s.wrAt SLC_CTL.CHECK n 0xA6
  else s.removeSlice n

/-- SLC_REMOVE (R374): a write of 0 to SLC_CTL.ENABLE of the selected slice. -/
def execSlcRemove (p : Path) (s : State) : Host.Outcome State Fault Refusal :=
  (s.askRemove (s.rdAt SLC_SEL.SLICE (pathCopy p))).done

/-- The removal of a slice ends (R374). -/
def State.endRemoval (s : State) (slice : Nat) : State :=
  let s := s.endSliceReset slice
  let s := (s.pagesOwned slice).foldl (fun s p => (s.putAt SLC_DBOWN.OWNED p false).wrAt SLC_DBOWN.OWNER p 0) s
  let s := ((s.wrAt CIR_PINQUOTA.QUOTA slice 0).putAt SLC_CFG.TEL_USER slice false).putAt SLC_CTL.ENABLE slice false
  { s with que := { s.que with removing := s.que.removing.remove slice }
           mbx := { s.mbx with bindings := s.mbx.bindings.erase slice } }

/-- SLICE_REMOVE_END (R374): the reset has ended; the slice's pages are freed, its quota and TEL_USER are 0, and ENABLE
clears. -/
def execSliceRemoveEnd (slice : Nat) (s : State) : Host.Outcome State Fault Refusal :=
  if s.que.removing.has slice then
    (s.endRemoval slice).done
  else s.done

/-! ### Doorbell pages (R350) -/

/-- The check of an assignment of a doorbell page (R350). -/
def State.assignCheck (s : State) (page : Nat) : Nat :=
  let slice := s.rdAt SLC_DBOWN.SLICE page
  firstCode [(s.onAt SLC_DBOWN.OWNED page, 0xA3), (!s.onAt SLC_CTL.ENABLE slice || s.onAt SLC_STAT.RESETTING slice, 0xA4)]

/-- A doorbell page is assigned to the slice that its SLC_DBOWN.SLICE names (R350). -/
def State.assignPage (s : State) (page : Nat) : State :=
  let slice := s.rdAt SLC_DBOWN.SLICE page
  let code := s.assignCheck page
  let s := s.wrAt SLC_DBOWN.CHECK page code
  if code = 0 then (s.putAt SLC_DBOWN.OWNED page true).wrAt SLC_DBOWN.OWNER page slice else s

/-- A queue of a doorbell page is not DISABLED. -/
def State.pageBusy (s : State) (page : Nat) : Bool :=
  (List.range 64).any fun i => s.rdAt QUE_STAT.STATE (64 * page + i) != queDisabled

/-- A doorbell page is freed (R350). -/
def State.freePage (s : State) (page : Nat) : State :=
  let busy := s.pageBusy page
  let s := s.wrAt SLC_DBOWN.CHECK page (if busy then 0xA7 else 0)
  if busy then s else (s.putAt SLC_DBOWN.OWNED page false).wrAt SLC_DBOWN.OWNER page 0

/-- DB_ASSIGN (R350): a write of SLC_DBOWN with ASSIGN 1, for the selected page. -/
def execDbAssign (p : Path) (v : Nat) (s : State) : Host.Outcome State Fault Refusal :=
  let page := s.rdAt SLC_DBSEL.PAGE (pathCopy p)
  ((s.storeFields [SLC_DBOWN.SLICE] page v).assignPage page).done

/-- DB_FREE (R350): a write of SLC_DBOWN with FREE 1, for the selected page. -/
def execDbFree (p : Path) (v : Nat) (s : State) : Host.Outcome State Fault Refusal :=
  let page := s.rdAt SLC_DBSEL.PAGE (pathCopy p)
  ((s.storeFields [SLC_DBOWN.SLICE] page v).freePage page).done

/-! ### Queue enable, disable, resize (R352, R375, R376) -/

/-- The rings of a queue overlap. -/
def ringsOverlap (sq cq depthLog : Nat) : Bool :=
  let a := sq * 4096
  let b := cq * 4096
  decide (a < b + 16 * 2 ^ depthLog) && decide (b < a + 64 * 2 ^ depthLog)

/-- The queue enable check on ring bases and depth (R352). Whether the function of the queue's link has Bus Master Enable and
MSI-X set is what its configuration space holds: `bme` and `msix`. -/
def State.queueCheck (s : State) (q sq cq depthLog : Nat) (bme msix : Bool) : Nat :=
  let owned := match s.queueOwner q with
    | some k => s.onAt SLC_CTL.ENABLE k && !s.onAt SLC_STAT.RESETTING k
    | none => false
  firstCode
    [(!owned, 0xA8), (decide (depthLog < 4) || decide (12 < depthLog), 0xA9), (ringsOverlap sq cq depthLog, 0xAA),
     (!s.linkExists (s.rdAt QUE_CFG.LINK q) || !bme || (s.onAt QUE_CFG.INTEN q && !msix), 0xAB)]

/-- The queue enable check on the rings that the queue has. -/
def State.enableCheck (s : State) (q : Nat) (bme msix : Bool) : Nat :=
  s.queueCheck q (s.rdAt QUE_SQBASE.ADDR q) (s.rdAt QUE_CQBASE.ADDR q) (s.rdAt QUE_CFG.DEPTHLOG q) bme msix

/-- A queue is ENABLED, empty and without an error. -/
def State.openQueue (s : State) (q : Nat) : State :=
  (((s.clearQueue q).putAt QUE_CTL.ENABLE q true).wrAt QUE_STAT.ERRCAUSE q 0).setQueue q queEnabled

/-- A write of 1 to QUE_CTL.ENABLE of a queue; it has no effect on one that is not DISABLED (DESIGN CHOICE). -/
def State.askQueue (s : State) (q : Nat) (bme msix : Bool) : State :=
  if s.onAt QUE_CTL.ENABLE q || s.rdAt QUE_STAT.STATE q != queDisabled then s
  else
    let code := s.enableCheck q bme msix
    let s := s.wrAt QUE_CTL.CHECK q code
    if code = 0 then s.openQueue q else s

/-- QUE_CTL_ENABLE (R352): a write of 1 to QUE_CTL.ENABLE of the selected queue. -/
def execQueCtlEnable (p : Path) (bme msix : Bool) (s : State) : Host.Outcome State Fault Refusal :=
  (s.askQueue (s.rdAt QUE_SEL.QID (pathCopy p)) bme msix).done

/-- A running descriptor stops with a status (R366, R376): what it has done stays, and the units that hold work for it drop
it. -/
def State.stopDesc (s : State) (d : Desc) (st : Nat) : State :=
  let mine := fun (q i : Nat) => q == d.queue && i == d.index
  let result := if d.op = 0x08 ∨ d.op = 0x09 then rangeResult (d.statuses.map fun x => if x = pageOpen then 6 else x)
    else if d.op = 0x19 then
      ((s.snp.slots.flatMap fun e => e.2.buffers.filter fun b => mine b.queue b.index).map fun b => b.filled).sum
    else if d.op = 0x1B then
      match s.importOf d.queue d.index with
      | some j => j.imported + j.skipped * 2 ^ 32
      | none => d.result
    else if d.op ≤ 0x03 then d.cursor else d.result
  let s := s.dropWork mine
  match s.desc d.queue d.index with
  | some d' => if d'.status.isSome then s else s.finishDesc d.queue d.index st result
  | none => s

/-- Opcodes that a queue's disable lets complete (R376). -/
def completesOnDisable (op : Nat) : Bool := op == 0x00 || op == 0x18 || op == 0x1A || op == 0x1F

/-- A queue stops: its descriptors stop, but those that complete. -/
def State.stopQueue (s : State) (q : Nat) : State :=
  let s := ((s.putAt QUE_CTL.ENABLE q false).putAt QUE_CTL.RESIZE q false).setQueue q queStopping
  (s.que.descs.filter fun d => d.queue == q && d.status.isNone && !completesOnDisable d.op).foldl (fun s d =>
    s.stopDesc d stStopped) s

/-- Disable a queue (R376); a pending resize is cancelled (R375). -/
def State.disableQueue (s : State) (q : Nat) : State :=
  let st := s.rdAt QUE_STAT.STATE q
  if st = queEnabled ∨ st = queError then s.stopQueue q
  else s.putAt QUE_CTL.ENABLE q false

/-- QUE_CTL_DISABLE (R376): a write of 0 to QUE_CTL.ENABLE of the selected queue. -/
def execQueCtlDisable (p : Path) (s : State) : Host.Outcome State Fault Refusal :=
  (s.disableQueue (s.rdAt QUE_SEL.QID (pathCopy p))).done

/-- QUEUE_DISABLED (R376): the last completion of a stopping queue has been written. -/
def execQueueDisabled (queue : Nat) (s : State) : Host.Outcome State Fault Refusal :=
  if s.rdAt QUE_STAT.STATE queue = queStopping ∧ (s.que.descs.all fun d => d.queue != queue) = true then
    (s.setQueue queue queDisabled).done
  else s.done

/-- The resize check: the enable check on the next rings, then 0xAC. -/
def State.resizeCheck (s : State) (q : Nat) (bme msix : Bool) : Nat :=
  let code := s.queueCheck q (s.rdAt QUE_NEXTSQ.ADDR q) (s.rdAt QUE_NEXTCQ.ADDR q) (s.rdAt QUE_NEXTSQ.DEPTHLOG q) bme msix
  if code = 0 ∧ (s.rdAt QUE_STAT.STATE q ≠ queEnabled ∨ s.onAt QUE_CTL.RESIZE q = true) then 0xAC else code

/-- QUE_CTL_RESIZE (R375 step 1): a write of 1 to QUE_CTL.RESIZE of the selected queue. On failure RESIZE clears at once. -/
def State.askResize (s : State) (q : Nat) (bme msix : Bool) : State :=
  let code := s.resizeCheck q bme msix
  let s := s.wrAt QUE_CTL.CHECK q code
  if code = 0 then s.putAt QUE_CTL.RESIZE q true
  else if code = 0xAC then s
  else s.putAt QUE_CTL.RESIZE q (s.onAt QUE_CTL.RESIZE q && s.rdAt QUE_STAT.STATE q == queEnabled)

/-- QUE_CTL_RESIZE (R375). -/
def execQueCtlResize (p : Path) (bme msix : Bool) (s : State) : Host.Outcome State Fault Refusal :=
  (s.askResize (s.rdAt QUE_SEL.QID (pathCopy p)) bme msix).done

/-- A queue is drained and its completions are consumed (R375 step 3). -/
def State.drained (s : State) (queue : Nat) : Bool :=
  s.rdAt QUE_STAT.SQHEAD queue == s.que.sqTail.get 0 queue &&
    (s.que.descs.all fun d => d.queue != queue) && s.que.cqHead.get 0 queue == s.rdAt QUE_STAT.CQTAIL queue

/-- A queue goes over to its next rings (R375 step 4). -/
def State.switchRings (s : State) (queue : Nat) : State :=
  let s := (s.wrAt QUE_SQBASE.ADDR queue (s.rdAt QUE_NEXTSQ.ADDR queue)).wrAt QUE_CQBASE.ADDR queue
    (s.rdAt QUE_NEXTCQ.ADDR queue)
  let s := s.wrAt QUE_CFG.DEPTHLOG queue (s.rdAt QUE_NEXTSQ.DEPTHLOG queue)
  (s.clearQueue queue).putAt QUE_CTL.RESIZE queue false

/-- RESIZE_SWITCH (R375 steps 3 and 4): a pending resize takes effect once the queue is drained and consumed. -/
def execResizeSwitch (queue : Nat) (s : State) : Host.Outcome State Fault Refusal :=
  if s.onAt QUE_CTL.RESIZE queue && s.rdAt QUE_STAT.STATE queue == queEnabled && s.drained queue then
    (s.switchRings queue).done
  else s.done

/-! ### Queue errors (R377) -/

/-- A queue enters ERROR. -/
def State.queueError (s : State) (q cause : Nat) : State :=
  let s := (s.wrAt QUE_STAT.ERRCAUSE q cause).setQueue q queError
  if cause = 1 ∨ cause = 2 then (s.inc QUE_ERRCNT.DBERR).raise srcQueDb
  else if cause = 3 ∨ cause = 4 then (s.inc QUE_ERRCNT.DMAERR).raise srcQueDma
  else s.raise srcQueParity

/-- QUE_PARITY (R377 cause 5): a parity error in a queue's state. -/
def execQueParity (queue : Nat) (s : State) : Host.Outcome State Fault Refusal :=
  (if s.rdAt QUE_STAT.STATE queue = queDisabled then s.raise srcQueParity else s.queueError queue 5).done

/-! ### Doorbells (R353–R355) -/

/-- A doorbell write on a function of a link takes effect only at an ENABLED queue of that link whose slice is not resetting;
others are counted (R353, R373, R633). -/
def State.doorbell (s : State) (link q : Nat) (act : State → State) : State :=
  match s.queueOwner q with
  | none => s
  | some k =>
    let s := s.occur Ev.doorbells 0 1 (some k)
    if s.rdAt QUE_STAT.STATE q = queEnabled ∧ s.onAt SLC_STAT.RESETTING k = false ∧ s.rdAt QUE_CFG.LINK q = link then act s
    else ((s.inc QUE_ERRCNT.DBIGNORED).incAt SLC_LATE.DBIGNORED k).occur Ev.doorbellsIgnored 0 1 (some k)

/-- Entries of the CQ that the host has not consumed. -/
def State.unconsumed (s : State) (q : Nat) : Nat :=
  (s.rdAt QUE_STAT.CQTAIL q + s.depth q - s.que.cqHead.get 0 q) % s.depth q

/-- The value of an SQ_TAIL write is taken (R354). -/
def State.takeTail (s : State) (queue v : Nat) : State :=
  let t := v % 4096
  if s.depth queue ≤ t then s.queueError queue 1
  else { s with que := { s.que with sqTail := s.que.sqTail.put queue t } }

/-- The value of a CQ_HEAD write is taken (R355). -/
def State.takeHeadIndex (s : State) (queue v : Nat) : State :=
  let h := v % 4096
  let n := s.depth queue
  let step := (h + n - s.que.cqHead.get 0 queue) % n
  if n ≤ h ∨ s.unconsumed queue < step then s.queueError queue 2
  else { s with que := { s.que with cqHead := s.que.cqHead.put queue h } }

/-- SQ_TAIL (R354, R633): a doorbell write on a function of a link. A 64-bit write brings the CQ_HEAD value too, which is ignored
where the SQ_TAIL value puts the queue in ERROR. -/
def execSqTail (link queue v : Nat) (cqHead : Option Nat) (s : State) : Host.Outcome State Fault Refusal :=
  (s.doorbell link queue fun s =>
    let s := s.takeTail queue v
    match cqHead with
    | some h => if s.rdAt QUE_STAT.STATE queue = queEnabled then s.takeHeadIndex queue h else s
    | none => s).done

/-- CQ_HEAD (R355, R633): a doorbell write on a function of a link. -/
def execCqHead (link queue v : Nat) (s : State) : Host.Outcome State Fault Refusal :=
  (s.doorbell link queue fun s => s.takeHeadIndex queue v).done

/-! ### The check of a descriptor (R357–R359, R371) -/

/-- The bits that an opcode defines in FLAGS, ADDR0, ADDR1, LEN, ARG0, ARG1 and ARG2 (R358); none for an unknown opcode. -/
def operandMasks (op : Nat) : Option (List Nat) :=
  let d := 2 ^ 45 - 1
  let h := 2 ^ 64 - 1
  let l := 2 ^ 48 - 1
  if op = 0x00 then some [0, 0, 0, 0, 0, 0, 0]
  else if op = 0x01 then some [0, d, d, l, 0, 0, 0]
  else if op = 0x02 then some [0, 0, d, l, h, 0, 0]
  else if op = 0x03 then some [0, 0, d, l, 0, 0, 0]
  else if op = 0x04 then some [1, d, d, l, h, 0, 0]
  else if op = 0x08 ∨ op = 0x09 then some [0, d, h, l, 0, 0, 0]
  else if op = 0x0A ∨ op = 0x0B ∨ op = 0x0D ∨ op = 0x0E then some [1, d, 0, l, 0, 0, 0]
  else if op = 0x0C then some [0, d, 0, l, 0, 0, 0]
  else if op = 0x10 then some [0, d, h, l, 0xF3, 0, 0]
  else if op = 0x18 ∨ op = 0x1A then some [0, 0, 0, 0, 0xFF, 0, 0]
  else if op = 0x19 then some [0, 0, h, l, 0xFF, 0xFF, 0]
  else if op = 0x1B then some [1, h, 0, l, 0xFF, 0x1FFF, 2 ^ 36 - 1]
  else if op = 0x1F then some [1, 0, 0, 0, 0, 0, 0]
  else none

/-- A descriptor's operand fields, in the order of the masks. -/
def Desc.fields (d : Desc) : List Nat := [d.flags, d.addr0, d.addr1, d.len, d.arg0, d.arg1, d.arg2]

/-- The DPA ranges that a descriptor names (R359 step 2). -/
def Desc.ranges (d : Desc) : List (Nat × Nat) :=
  if d.op = 0x01 then [(d.addr0, d.len), (d.addr1, d.len)]
  else if d.op = 0x02 ∨ d.op = 0x03 then [(d.addr1, d.len)]
  else if d.op = 0x04 then if bit d.flags 0 then [(d.addr0, d.len)] else [(d.addr0, d.len), (d.addr1, d.len)]
  else if 0x08 ≤ d.op ∧ d.op ≤ 0x0E then [(d.addr0, d.len)]
  else if d.op = 0x10 ∧ bit d.arg0 0 = true then [(d.addr0, d.len)]
  else []

/-- Addresses and lengths are not aligned, a needed length is 0, ranges overlap, or the status array is too long (R358,
R359 step 1). -/
def Desc.illFormed (d : Desc) : Bool :=
  let off := fun (a n : Nat) => a % n != 0
  let lines := d.op == 0x01 || d.op == 0x02 || d.op == 0x03 || d.op == 0x04 || d.op == 0x0C || d.op == 0x0D || d.op == 0x0E
  let pages := d.op == 0x08 || d.op == 0x09 || d.op == 0x0A || d.op == 0x0B || d.op == 0x10
  let dpas := d.ranges.map Prod.fst
  (lines && (d.len == 0 || off d.len 64 || dpas.any fun a => off a 64)) ||
    (pages && (off d.addr0 4096 || off d.len 4096 || (d.len == 0 && (d.op != 0x10 || bit d.arg0 0)))) ||
    (d.op == 0x01 && decide (d.addr0 < d.addr1 + d.len) && decide (d.addr1 < d.addr0 + d.len)) ||
    ((d.op == 0x08 || d.op == 0x09) && d.addr1 != 0 && decide (2 ^ 34 < d.len)) ||
    (d.op == 0x10 && off d.addr1 64) ||
    (d.op == 0x19 && (off d.addr1 4096 || d.len == 0 || off d.len 4096 || d.arg1 == 0))

/-- The claim that a slice may name by a range: committed, not releasing, and its own unless the slice is 0 (R359). -/
def State.claimFor (s : State) (slice : Nat) (r : Nat × Nat) : Option Nat :=
  match s.claimOf r.1 with
  | none => none
  | some c =>
    if decide (s.claimBase c + s.claimSize c < r.1 + r.2) || s.onAt MAP_CLAIMSTAT.RELEASING c ||
        (slice != 0 && s.rdAt MAP_CLAIMATTR.SLICE c != slice) then none
    else some c

/-- The slot that a descriptor names (R359 step 3). -/
def Desc.slot (d : Desc) : Option Nat :=
  if d.op = 0x18 ∨ d.op = 0x19 ∨ d.op = 0x1A ∨ (d.op = 0x1B ∧ bit d.flags 0 = true) then some (d.arg0 % 256) else none

/-- The ranges and the destination claim are usable by the slice (R359 step 2). -/
def State.rangesOk (s : State) (d : Desc) : Bool :=
  (d.ranges.all fun r => (s.claimFor d.slice r).isSome) &&
    (d.op != 0x1B ||
      (s.onAt MAP_CLAIMATTR.COMMIT d.arg1 && !s.onAt MAP_CLAIMSTAT.RELEASING d.arg1 &&
        (d.slice == 0 || s.rdAt MAP_CLAIMATTR.SLICE d.arg1 == d.slice)))

/-- A use that a claim attribute, a rule, or a FENCED member forbids (R364, R368, R371, R456). -/
def State.forbidden (s : State) (d : Desc) : Bool :=
  let claims := d.ranges.filterMap fun r => s.claimFor d.slice r
  ((d.op == 0x01 || d.op == 0x04) && (match claims with
    | [a, b] => a != b && (s.onAt MAP_CLAIMATTR.SEALED a || s.onAt MAP_CLAIMATTR.SEALED b)
    | _ => false)) ||
  ((d.op == 0x0C || d.op == 0x0D) && claims.any fun c => !s.onAt MAP_CLAIMATTR.PIN_ALLOWED c) ||
  (s.pairState == pairFenced && (!d.ranges.isEmpty || d.op == 0x1B)) ||
  (d.op == 0x10 && !bit d.arg0 0 && d.slice != 0) || (d.op == 0x0D && bit d.flags 0 && d.slice != 0)

/-- The check of a descriptor before it starts (R358, R359); `reserved` says that a word's own reserved bits are not 0. Status
0x00 lets it start. -/
def State.descCheck (s : State) (d : Desc) (reserved : Bool) : Nat :=
  match operandMasks d.op with
  | none => stInvalidOpcode
  | some ms =>
    let undefinedBits := (d.fields.zip ms).any fun f => Nat.land f.1 f.2 != f.1
    let wrongOwner := match d.slot with
      | some n => s.slotState n != slotFree && s.slotSlice n != d.slice
      | none => false
    firstCode [(reserved || undefinedBits || d.illFormed, stInvalidField), (!s.rangesOk d, stRange),
      (wrongOwner, stNotOwner), (s.forbidden d, stNotPermitted)]

/-! ### Fetch (R354, R355, R359, R362) -/

/-- Descriptors of a queue that are started and not completed. -/
def State.started (s : State) (q : Nat) : Nat := (s.que.descs.filter fun d => d.queue == q).length

/-- The queue may fetch its next descriptor (R354, R355, R362, R373). -/
def State.mayFetch (s : State) (q : Nat) : Bool :=
  let running := s.que.descs.filter fun d => d.status.isNone
  let slice := (s.queueOwner q).getD 0
  s.rdAt QUE_STAT.STATE q == queEnabled && (s.queueOwner q).isSome && s.clearState && s.pow.night == 0 && !s.onAt SLC_STAT.RESETTING slice &&
    s.rdAt QUE_STAT.SQHEAD q != s.que.sqTail.get 0 q && decide (s.started q + s.unconsumed q < s.depth q - 1) &&
    decide ((running.filter fun d => d.queue == q).length < 16) && decide (running.length < 2048) &&
    !(s.que.descs.any fun d => d.queue == q && d.op == 0x1F && d.status.isNone)

/-- The descriptor that an entry's words spell (R357). -/
def State.parseDesc (s : State) (q : Nat) (ws : List Nat) : Desc :=
  let w := fun (k : Nat) => ws.getD k 0
  let head := s.rdAt QUE_STAT.SQHEAD q
  let slice := (s.queueOwner q).getD 0
  { queue := q, index := head, seq := s.que.nextSeq, slice := slice, gen := s.rdAt SLC_STAT.GEN slice
    sqHead := (head + 1) % s.depth q, op := bits (w 0) 0 8, flags := bits (w 0) 8 8, cid := bits (w 0) 16 16
    addr0 := w 1, addr1 := w 2, len := bits (w 3) 0 48, arg0 := w 4, arg1 := w 5, arg2 := w 6, start := s.time }

/-- Earlier descriptors that a FENCE waits for (R362). -/
def State.fenceWaits (s : State) (d : Desc) : NSet :=
  (s.que.descs.filter fun e => e.queue == d.queue || (bit d.flags 0 && e.slice == d.slice)).foldl (fun t e =>
    NSet.add t e.seq) []

/-- A descriptor is fetched and checked (R357–R359). -/
def State.takeDesc (s : State) (queue : Nat) (ws : List Nat) : State :=
  let d := s.parseDesc queue ws
  let reserved := bits (ws.getD 0 0) 32 32 != 0 || bits (ws.getD 3 0) 48 16 != 0 || ws.getD 7 0 != 0
  let st := s.descCheck d reserved
  let n := d.len / 4096
  let d := { d with
    waits := if d.op = 0x1F then s.fenceWaits d else []
    statuses := if st = 0 ∧ (d.op = 0x08 ∨ d.op = 0x09) then List.replicate n pageOpen else [] }
  let s := { s with que := { s.que with descs := s.que.descs ++ [d], nextSeq := s.que.nextSeq + 1 } }
  let s := (s.wrAt QUE_STAT.SQHEAD queue d.sqHead).queueStatus queue
  let s := s.occur Ev.descFetched 0 1 (some d.slice)
  if st = 0 then s else (s.finishDesc queue d.index st 0)

/-- DESCRIPTOR_FETCH (R354, R357, R359, R362, R377): the entry at the SQ head arrives as eight 64-bit words, is checked and
started; or its read fails. -/
def execDescriptorFetch (queue : Nat) (words : Option (List Nat)) (s : State) : Host.Outcome State Fault Refusal :=
  if !s.mayFetch queue then s.done
  else
    match words with
    | none => (s.queueError queue 3).done
    | some ws =>
      (s.takeDesc queue ws).done

/-! ### Completion (R356, R360, R372) -/

/-- The completion entry of a descriptor (R360). -/
def completionEntry (d : Desc) (phase : Nat) : List Byte :=
  toBytes d.result 8 ++ toBytes (d.cid + d.sqHead * 2 ^ 16 + (d.status.getD 0) * 2 ^ 32 + phase * 2 ^ 40 + d.gen * 2 ^ 48) 8

/-- The finished descriptor of a queue whose completion is next. -/
def State.nextDone (s : State) (q : Nat) : Option Desc :=
  (s.que.descs.filter fun d => d.queue == q && d.status.isSome).foldl (fun (b : Option Desc) d =>
    match b with
    | none => some d
    | some e => if d.order < e.order then some d else some e) none

/-- Remove a descriptor; the FENCEs that waited for it wait for it no more (R362). -/
def State.removeDesc (s : State) (d : Desc) : State :=
  { s with que := { s.que with descs :=
    (s.que.descs.filter fun e => e.seq != d.seq).map fun e => { e with waits := e.waits.remove d.seq } } }

/-- A completion is discarded for its generation (R372). -/
def State.lateDrop (s : State) (d : Desc) : State :=
  let s := (s.incAt SLC_LATE.DROPS d.slice).inc QUE_ERRCNT.LATEDROP
  let s := s.occur Ev.completionsLate 0 1 (some d.slice)
  if s.sticky srcQueLate then s else s.raise srcQueLate

/-- The completion entry of a descriptor is written, with its phase and interrupt (R356, R360). -/
def State.writeEntry (s : State) (queue : Nat) (d : Desc) : State :=
  let link := s.rdAt QUE_CFG.LINK queue
  let tail := s.rdAt QUE_STAT.CQTAIL queue
  let phase := s.rdAt QUE_STAT.PHASE queue
  let s := s.send (.dmaWrite link d.slice (s.rdAt QUE_CQBASE.ADDR queue * 4096 + 16 * tail) (completionEntry d phase))
  let next := (tail + 1) % s.depth queue
  let s := (s.wrAt QUE_STAT.CQTAIL queue next).wrAt QUE_STAT.PHASE queue (if next = 0 then 1 - phase else phase)
  let s := if s.onAt QUE_CFG.INTEN queue then s.send (.msix link (s.rdAt QUE_CFG.VECTOR queue)) else s
  let s := s.occur Ev.descCompleted d.op 1 (some d.slice)
  s.occur Ev.descLatency 0 ((s.time - d.start) / 40) (some d.slice)

/-- DESCRIPTOR_COMPLETION (R356, R360, R372): the next completion of a queue is written, followed by its MSI-X message; or it
is discarded, for its generation or because the queue is in ERROR with cause CMPL_DMA. -/
def execDescriptorCompletion (queue : Nat) (s : State) : Host.Outcome State Fault Refusal :=
  match s.nextDone queue with
  | none => s.done
  | some d =>
    let s := s.removeDesc d
    if d.gen ≠ s.rdAt SLC_STAT.GEN d.slice then (s.lateDrop d).done
    else if s.rdAt QUE_STAT.STATE queue = queError ∧ s.rdAt QUE_STAT.ERRCAUSE queue = 4 then s.done
    else
      (s.writeEntry queue d).done

/-- CMPL_DMA (R377 cause 4): a CQ write of a queue failed. -/
def execCmplDma (queue : Nat) (s : State) : Host.Outcome State Fault Refusal :=
  if s.rdAt QUE_STAT.STATE queue = queDisabled then s.done else (s.queueError queue 4).done

end Sys2Proof.Machine
end

