-- ==== Sys2Proof/Machine/DataCmds.lean ====
section
/-! DEFINITION. The queue opcodes (12_queues_and_slices.md, R358, R362–R371). A command of this file lets a descriptor do its next
unit: the lines up to the next 4 KiB boundary, or its whole work where that is one step. -/

namespace Sys2Proof.Machine

/-! ### Reading and writing device memory -/

/-- A line as its page's form gives it, without what Cirrus holds; none while the partner is asked for it (R241, R453). -/
def State.readStored (s : State) (dpaLine : Nat) (fs : Finds) : Option (Line × Bool) × State :=
  let dpn := dpaLine / 64
  let e := s.entry dpn
  let i := dpaLine % 64
  let reachable := match s.locationChannel e.loc with
    | some c => s.serving c
    | none => true
  let poisoned : Option (Line × Bool) := some (0, true)
  let ask := fun (s : State) =>
    match s.peerFetch ⟨dpaLine, none, none⟩ with
    | (true, s) => ((none : Option (Line × Bool)), s)
    | (false, s) => (poisoned, s)
  if e.state = .unbacked then (some (0, false), s)
  else if e.state = .lost then (poisoned, s)
  else if !reachable || s.treeUnreachable dpn then
    ask ((s.incAt DMC_ERRCNT.FRZPOISON ((s.locationChannel e.loc).getD 0)).event Ev.frzPoison ((s.locationChannel e.loc).getD 0))
  else if s.listed dpaLine || s.breached dpn then (poisoned, s)
  else
    match e.loc with
    | .frame mfn =>
      let line := mfn * 64 + i
      let f := fs.line line
      match s.readMedia line f.ecc false with
      | (.poison, s) => (poisoned, s.settlePending line dpaLine)
      | (.bad, s) => (poisoned, (s.poisonLine dpaLine .internal (.stored line)).wantRepair dpaLine none)
      | (.data l, s) => if f.macOk then (some (l, false), s) else (poisoned, s.macFail.wantRepair dpaLine none)
    | .run _ _ _ _ _ =>
      let b := i / 16
      let g := s.granuleLine (e.loc.blockStart b)
      let n := e.loc.blockCount b
      match s.readBlock e.loc b (fs.run g n) (s.coarseBlock e.loc b) with
      | (none, s) => (poisoned, s.badBlock dpn b DecodeFault.media.code)
      | (some img, s) =>
        match decodeStored n img with
        | .error k => (poisoned, s.badBlock dpn b k.code)
        | .ok bytes => (some ((cutLines 16 bytes).getD (i % 16) 0, false), s)
    | .nowhere => (some (0, false), s)

/-- A line as the device's own reads find it: Cirrus and the writeback buffer over the stored form. -/
def State.deviceRead (s : State) (dpaLine : Nat) (fs : Finds) : Option (Line × Bool) × State :=
  let over? : Option (Line × ByteMask × Bool) := match s.cirLine dpaLine with
    | some x => some (x.data, if x.state = .partly then x.bvm else ByteMask.full, x.poison)
    | none => (s.buffered dpaLine).map fun w => (w.data, w.bvm, w.poison)
  match over? with
  | some (d, m, p) =>
    if m = ByteMask.full then (some (d, p), s)
    else
      match s.readStored dpaLine fs with
      | (some (l, q), s) => (some (l.merge d m, p || q), s)
      | (none, s) => (none, s)
  | none => s.readStored dpaLine fs

/-- A line is written as a full-line host write would be (R364); false where it has to wait. A line for which no space can be
drawn is dropped, and the descriptor is PARTIAL for it (R62, R365). -/
def State.deviceWrite (s : State) (q i dpaLine : Nat) (data : Line) (poison : Bool) : Bool × State :=
  let dpn := dpaLine / 64
  let e := s.entry dpn
  let store := fun (s : State) =>
    match s.cirWrite dpaLine data ByteMask.full poison false .recent with
    | none => (false, s)
    | some s =>
      let s := if poison then s.poisonLine dpaLine .external (s.linePlace dpaLine) else s
      let num := s.pair.nextNum
      let s := if s.syncWrites then s.setDesc q i fun d => { d with acks := d.acks.add num } else s
      (true, ((s.leaveFilter dpn).forgetExtra dpaLine).mirror ⟨dpaLine, data, ByteMask.full, poison⟩ none)
  if s.asyncHold then (false, s)
  else
    match e.state with
    | .lost => (true, s.inc MAP_ERRCNT2.LOSTWR)
    | .unbacked =>
      match s.backPage dpn with
      | (.ok, s) => store s
      | (.noSpace, s) => (true, (s.dropTrace dpn (dpaLine % 64)).setDesc q i fun d => { d with part := true })
      | _ => (false, s)
    | _ =>
      match s.preserve dpn (.descriptor q i) with
      | (true, s) => (false, s)
      | (false, s) => store s

/-- A page goes UNBACKED for a descriptor (R364, R365); false where it has to wait: for a capture, or for a page IN_FLIGHT,
whose move then aborts (R76, R142). -/
def State.deviceUnback (s : State) (q i dpn : Nat) : Bool × State :=
  match (s.entry dpn).state with
  | .unbacked => (true, s)
  | .inFlight => (false, s.bumpMove dpn)
  | _ =>
    match s.preserve dpn (.descriptor q i) with
    | (true, s) => (false, s)
    | (false, s) => (true, s.unback dpn)

/-! ### Units -/

/-- Run a descriptor with one of the given opcodes; one whose claim is being released stops (R366). -/
def State.runDesc (s : State) (q i op : Nat) (body : State → Desc → State) : Host.Outcome State Fault Refusal :=
  match s.desc q i with
  | none => s.done
  | some d =>
    if d.op != op || !s.descRuns d then s.done
    else if s.rangesOk d then (body s d).done
    else (s.stopDesc d stRange).done

/-- Byte offsets of the lines of a descriptor's next unit: up to the next 4 KiB boundary of a range that starts at `base`. -/
def Desc.unit (d : Desc) (base : Nat) : List Nat :=
  let n := min (d.len - d.cursor) (4096 - (base + d.cursor) % 4096)
  (List.range (n / 64)).map fun k => d.cursor + 64 * k

/-- A descriptor has done its work up to an offset. -/
def State.advance (s : State) (q i upTo : Nat) : State := s.setDesc q i fun d => { d with cursor := upTo }

/-- Do the lines of a unit in order, as far as they need not wait. -/
def State.eachLine (s : State) (q i : Nat) (act : State → Nat → Bool × State) : List Nat → State
  | [] => s
  | o :: os =>
    match act s o with
    | (true, s) => (s.advance q i (o + 64)).eachLine q i act os
    | (false, s) => s

/-- A writing descriptor that has reached its end finishes, once the partner has acknowledged its writes (R364). -/
def State.finishWrites (s : State) (q i : Nat) : State :=
  match s.desc q i with
  | none => s
  | some d =>
    if d.cursor < d.len || s.pair.journal.any (fun e => d.acks.has e.num) then s
    else s.finishDesc q i (if d.part then stPartial else stOk) d.len

/-- NOP (R358). -/
def execNop (queue index : Nat) (s : State) : Host.Outcome State Fault Refusal :=
  s.runDesc queue index 0x00 fun s _ => s.finishDesc queue index stOk 0

/-- The next whole page of a descriptor's destination starts at its cursor. -/
def Desc.atPage (d : Desc) (base : Nat) : Bool := (base + d.cursor) % 4096 == 0 && decide (d.cursor + 4096 ≤ d.len)

/-- The next unit of a COPY. -/
def State.copyUnit (s : State) (queue index : Nat) (d : Desc) (fs : Finds) : State :=
  let s := s.takeUnits masterService 1
  let src := d.addr0 + d.cursor
  let whole := d.atPage d.addr1 && src % 4096 == 0 && (s.entry (src / 4096)).state == .unbacked
  let s := if whole then
      match s.deviceUnback queue index ((d.addr1 + d.cursor) / 4096) with
      | (true, s) => s.advance queue index (d.cursor + 4096)
      | (false, s) => s
    else s.eachLine queue index (fun s o =>
      match s.deviceRead ((d.addr0 + o) / 64) fs with
      | (none, s) => (false, s)
      | (some (l, p), s) => s.deviceWrite queue index ((d.addr1 + o) / 64) l p) (d.unit d.addr1)
  s.finishWrites queue index

/-- COPY (R364, R365): the next unit; `fs` gives what the reads of stored lines find. -/
def execCopy (queue index : Nat) (fs : Finds) (s : State) : Host.Outcome State Fault Refusal :=
  s.runDesc queue index 0x01 fun s d => s.copyUnit queue index d fs

/-- The line that an 8-byte pattern fills. -/
def patternLine (p : Nat) : Line := Line.ofBytes (List.replicate 8 (toBytes p 8)).flatten

/-- The next unit of a FILL. -/
def State.fillUnit (s : State) (queue index : Nat) (d : Desc) : State :=
  let s := s.takeUnits masterService 1
  let s := s.eachLine queue index (fun s o =>
    s.deviceWrite queue index ((d.addr1 + o) / 64) (patternLine d.arg0) false) (d.unit d.addr1)
  s.finishWrites queue index

/-- FILL (R364, R365): the next unit. -/
def execFill (queue index : Nat) (s : State) : Host.Outcome State Fault Refusal :=
  s.runDesc queue index 0x02 fun s d => s.fillUnit queue index d

/-- The next unit of a ZERO. -/
def State.zeroUnit (s : State) (queue index : Nat) (d : Desc) : State :=
  let s := s.takeUnits masterService 1
  let s := if d.atPage d.addr1 then
      match s.deviceUnback queue index ((d.addr1 + d.cursor) / 4096) with
      | (true, s) => s.advance queue index (d.cursor + 4096)
      | (false, s) => s
    else s.eachLine queue index (fun s o => s.deviceWrite queue index ((d.addr1 + o) / 64) 0 false) (d.unit d.addr1)
  s.finishWrites queue index

/-- ZERO (R365): the next unit: a whole page becomes UNBACKED, lines of a partly covered one are written as zeros. -/
def execZero (queue index : Nat) (s : State) : Host.Outcome State Fault Refusal :=
  s.runDesc queue index 0x03 fun s d => s.zeroUnit queue index d

/-- Offset of the first byte in which two lines differ. -/
def firstDiff (a b : Line) : Nat := ((List.range 64).find? fun k => a.byte k != b.byte k).getD 64

/-- The next unit of a COMPARE. -/
def State.compareUnit (s : State) (queue index : Nat) (d : Desc) (fs : Finds) : State :=
  let s := s.takeUnits masterService 1
  let s := s.eachLine queue index (fun s o =>
    match s.deviceRead ((d.addr0 + o) / 64) fs with
    | (none, s) => (false, s)
    | (some (a, p), s) =>
      let (b?, s) := if bit d.flags 0 then (some (patternLine d.arg0, false), s) else s.deviceRead ((d.addr1 + o) / 64) fs
      match b? with
      | none => (false, s)
      | some (b, q) =>
        if p || q then (false, s.finishDesc queue index stMediaError o)
        else if a != b then (false, s.finishDesc queue index stMiscompare (o + firstDiff a b))
        else (true, s)) (d.unit d.addr0)
  match s.desc queue index with
  | some d => if d.status.isNone && decide (d.len ≤ d.cursor) then s.finishDesc queue index stOk d.len else s
  | none => s

/-- COMPARE (R365): the next unit, against a second range or the pattern. -/
def execCompare (queue index : Nat) (fs : Finds) (s : State) : Host.Outcome State Fault Refusal :=
  s.runDesc queue index 0x04 fun s d => s.compareUnit queue index d fs

/-! ### Range moves and hints (R136, R137, R367) -/

/-- The next page of a range move: it has its status at once, or is chosen to move. -/
def State.rangeUnit (s : State) (d : Desc) (k : MoveKind) : State :=
  if d.len ≤ d.cursor then s
  else
    let dpn := (d.addr0 + d.cursor) / 4096
    let s := s.advance d.queue d.index (d.cursor + 4096)
    match s.rangePageStatus dpn k with
    | some st => s.pageStatus (some (d.queue, d.index)) dpn st
    | none =>
      { s with plc := { s.plc with chosen := s.plc.chosen ++
        [{ dpn := dpn, kind := k, epoch := s.epoch, explicit := some (d.queue, d.index) }] } }

/-- DEMOTE_RANGE (R137, R367). -/
def execDemoteRange (queue index : Nat) (s : State) : Host.Outcome State Fault Refusal :=
  s.runDesc queue index 0x08 fun s d => s.rangeUnit d .demote

/-- PROMOTE_RANGE (R137, R367). -/
def execPromoteRange (queue index : Nat) (s : State) : Host.Outcome State Fault Refusal :=
  s.runDesc queue index 0x09 fun s d => s.rangeUnit d .promote

/-- Set the hint of a page (R136); an entry that is not cached changes in both copies. -/
def State.setHint (s : State) (dpn hint : Nat) : State :=
  let e := s.entry dpn
  let s := match s.cached dpn with
    | some _ => s.touchEntry dpn fun e => { e with hint := hint }
    | none => s.replaceEntry dpn { e with hint := hint }
  if hint = hintHot ∧ e.state = .nimbus then s.postPromotion dpn (e.effHeat s.epoch)
  else if hint = hintCold ∧ e.state = .stratus ∧ s.nimbusAllowed e.claim = true then s.postDemotion dpn
  else s

/-- The next page of a hint command: RESULT counts the pages whose HINT changed. -/
def State.hintUnit (s : State) (d : Desc) (hint : Nat) : State :=
  let hint := if bit d.flags 0 then hintNone else hint
  let e := s.entry ((d.addr0 + d.cursor) / 4096)
  let backed := e.state == .stratus || e.state == .nimbus || e.state == .inFlight
  let changed := backed && e.hint != hint
  let s := if backed then s.setHint ((d.addr0 + d.cursor) / 4096) hint else s
  let s := s.setDesc d.queue d.index fun d => { d with cursor := d.cursor + 4096, result := d.result + flag changed }
  if d.len ≤ d.cursor + 4096 then s.finishDesc d.queue d.index stOk (d.result + flag changed) else s

/-- HINT_HOT (R136). -/
def execHintHot (queue index : Nat) (s : State) : Host.Outcome State Fault Refusal :=
  s.runDesc queue index 0x0A fun s d => s.hintUnit d hintHot

/-- HINT_COLD (R136). -/
def execHintCold (queue index : Nat) (s : State) : Host.Outcome State Fault Refusal :=
  s.runDesc queue index 0x0B fun s d => s.hintUnit d hintCold

/-! ### PIN, UNPIN, FLUSH (R108, R110, R368, R369) -/

/-- Fetch an absent line into Cirrus as a host read would; false while the partner is asked for it (R108). -/
def State.fetchLine (s : State) (dpaLine : Nat) (fs : Finds) : Bool × State :=
  if (s.cirWay dpaLine).isSome then (true, s)
  else
    let dpn := dpaLine / 64
    let e := s.entry dpn
    let away := match s.locationChannel e.loc with
      | some c => !s.serving c
      | none => true
    match e.loc with
    | .nowhere => (true, s)
    | .run _ _ _ _ _ =>
      let b := dpaLine % 64 / 16
      match s.readStored dpaLine fs with
      | (none, s) => (false, s)
      | (some _, s) =>
        if away then (true, s)
        else
          let lines := (List.range 16).map fun i =>
            match (s.readStored (dpn * 64 + b * 16 + i) []).1 with
            | some (l, _) => overlayOf s.cir.buffer (dpn * 64 + b * 16 + i) l
            | none => 0
          (true, s.fillBlock dpn b dpaLine lines)
    | .frame _ =>
      match s.readStored dpaLine fs with
      | (none, s) => (false, s)
      | (some (l, p), s) => (true, if away then s else s.cirFill dpaLine (overlayOf s.cir.buffer dpaLine l) p .recent)

/-- The next unit of a PIN. -/
def State.pinUnit (s : State) (queue index : Nat) (d : Desc) (fs : Finds) : State :=
  let s := s.eachLine queue index (fun s o =>
    let line := (d.addr0 + o) / 64
    match (s.takeUnits masterService 1).fetchLine line fs with
    | (false, s) => (false, s)
    | (true, s) =>
      match s.pinLine line d.slice with
      | (.pinned, s) => (true, s.setDesc queue index fun d => { d with result := d.result + 1 })
      | (.left, s) => (true, s.setDesc queue index fun d => { d with result := d.result + 2 ^ 32 })
      | (_, s) => (true, s)) (d.unit d.addr0)
  match s.desc queue index with
  | some d =>
    if d.cursor < d.len then s
    else s.finishDesc queue index (if 2 ^ 32 ≤ d.result then stPartial else stOk) d.result
  | none => s

/-- PIN (R108, R368): the next unit. RESULT counts lines newly pinned and lines left unpinned. -/
def execPin (queue index : Nat) (fs : Finds) (s : State) : Host.Outcome State Fault Refusal :=
  s.runDesc queue index 0x0C fun s d => s.pinUnit queue index d fs

/-- The next unit of an UNPIN. -/
def State.unpinUnit (s : State) (queue index : Nat) (d : Desc) : State :=
  let s := s.eachLine queue index (fun s o =>
    match s.cirWay ((d.addr0 + o) / 64) with
    | none => (true, s)
    | some k =>
      match s.way k with
      | none => (true, s)
      | some x =>
        if x.pinned && (x.pinSrc == d.slice || (bit d.flags 0 && x.pinSrc != driftPin)) then
          (true, (s.unpinWay k x).setDesc queue index fun d => { d with result := d.result + 1 })
        else (true, s)) (d.unit d.addr0)
  match s.desc queue index with
  | some d => if d.cursor < d.len then s else s.finishDesc queue index stOk d.result
  | none => s

/-- UNPIN (R110, R368): the next unit. -/
def execUnpin (queue index : Nat) (s : State) : Host.Outcome State Fault Refusal :=
  s.runDesc queue index 0x0D fun s d => s.unpinUnit queue index d

/-- The next unit of a FLUSH. -/
def State.flushUnit (s : State) (queue index : Nat) (d : Desc) (fs : Finds) : State :=
  let lines := (d.unit d.addr0).map fun o => (d.addr0 + o) / 64
  let (left, s) := s.flush (fun l => lines.contains l) (bit d.flags 0) fs
  -- lines that wait for room or counters are not in DRAM yet: the unit is tried again
  let waits := !(s.flushLines fun l => lines.contains l).isEmpty
  if waits then s
  else
    let upTo := d.cursor + 64 * lines.length
    let s := s.setDesc queue index fun d => { d with cursor := upTo, result := d.result + left }
    if d.len ≤ upTo then
      s.finishDesc queue index (if d.result + left = 0 then stOk else stPartial) (d.result + left)
    else s

/-- FLUSH (R113, R369): the next unit. -/
def execFlush (queue index : Nat) (fs : Finds) (s : State) : Host.Outcome State Fault Refusal :=
  s.runDesc queue index 0x0E fun s d => s.flushUnit queue index d fs

/-! ### SCRUB_RANGE, snapshots, IMPORT, FENCE -/

/-- A SCRUB_RANGE asks for its scrub. -/
def State.scrubUnit (s : State) (queue index : Nat) (d : Desc) : State :=
  if d.cursor = 0 then
    (s.advance queue index 1).startScrub (.descriptor queue index) (bit d.arg0 0) (bit d.arg0 1) (bits d.arg0 4 4) d.addr0
      d.len
  else s

/-- SCRUB_RANGE (R268, R270, R370): the descriptor's scrub is asked for; its end finishes the descriptor. -/
def execScrubRange (queue index : Nat) (s : State) : Host.Outcome State Fault Refusal :=
  s.runDesc queue index 0x10 fun s d => s.scrubUnit queue index d

/-- A SNAP_CUT cuts its slot, where that is ARMED. -/
def State.cutDesc (s : State) (queue index : Nat) (d : Desc) : State :=
  let n := d.arg0 % 256
  if s.slotState n = slotArmed then
    (s.cutSlot n).finishDesc queue index stOk s.stamp
  else s.finishDesc queue index stSnapState 0

/-- SNAP_CUT (R191). -/
def execSnapCut (queue index : Nat) (s : State) : Host.Outcome State Fault Refusal :=
  s.runDesc queue index 0x18 fun s d => s.cutDesc queue index d

/-- A SNAP_EXPORT asks for its export. -/
def State.exportDesc (s : State) (queue index : Nat) (d : Desc) : State :=
  if d.cursor = 0 then
    (s.advance queue index 1).exportTo (d.arg0 % 256)
      { queue := queue, index := index, addr := d.addr1, len := d.len, mask := d.arg1 }
  else s

/-- SNAP_EXPORT (R199, R202). -/
def execSnapExport (queue index : Nat) (s : State) : Host.Outcome State Fault Refusal :=
  s.runDesc queue index 0x19 fun s d => s.exportDesc queue index d

/-- A SNAP_RELEASE releases its slot. -/
def State.releaseDesc (s : State) (queue index : Nat) (d : Desc) : State :=
  let (st, s) := s.releaseSlot (d.arg0 % 256)
  s.finishDesc queue index st 0

/-- SNAP_RELEASE (R211). -/
def execSnapRelease (queue index : Nat) (s : State) : Host.Outcome State Fault Refusal :=
  s.runDesc queue index 0x1A fun s d => s.releaseDesc queue index d

/-- The stream header is valid (R204, R212). -/
def headerOk (h : List Byte) : Bool :=
  let w := ofBytes (h.take 8)
  decide (64 ≤ h.length) && bits w 0 8 == 1 && bits w 8 8 == 1 && bits w 32 32 == 0x5A537160 &&
    ofBytes ((h.drop 60).take 4) == crc32c (h.take 60)

/-- An IMPORT checks its stream header and starts. -/
def State.importDesc (s : State) (queue index : Nat) (d : Desc) (header : List Byte) : State :=
  let slot := d.arg0 % 256
  let fromSlot := bit d.flags 0
  if (s.importOf queue index).isSome then s
  else if fromSlot && s.slotState slot != slotDone then s.finishDesc queue index stSnapState 0
  else
    let h := if fromSlot then (s.slot slot).stream.take 64 else (header.take 64).take d.len
    let w := fun (k : Nat) => ofBytes ((h.drop (8 * k)).take 8)
    let sealedStream := bit (w 0) 16
    let pages := bits (w 3) 0 36
    let keyRef := bits (w 4) 32 32
    let bad := !headerOk h || decide (s.claimSize d.arg1 / 4096 < d.arg2 + pages) ||
      (sealedStream && (!s.onAt MAP_CLAIMATTR.SEALED d.arg1 || (s.heldKey keyRef).isNone))
    if bad then s.finishDesc queue index stStreamInvalid 0
    else
      { s with snp := { s.snp with imports := s.snp.imports ++
        [{ queue := queue, index := index, claim := d.arg1, offset := d.arg2, src := if fromSlot then some slot else none
           len := d.len, pages := pages, sealedStream := sealedStream, keyRef := keyRef, streamId := w 1
           crc := crcMore 0xFFFFFFFF h, bytes := 64 }] } }

/-- IMPORT (R212): the stream header, of which `header` gives the first 64 bytes for a host buffer, is checked, and the import
starts. -/
def execImportStream (queue index : Nat) (header : List Byte) (s : State) : Host.Outcome State Fault Refusal :=
  s.runDesc queue index 0x1B fun s d => s.importDesc queue index d header

/-- FENCE (R362): it completes once every descriptor that it waits for has completed. -/
def execFence (queue index : Nat) (s : State) : Host.Outcome State Fault Refusal :=
  s.runDesc queue index 0x1F fun s d => if d.waits.isEmpty then s.finishDesc queue index stOk 0 else s

end Sys2Proof.Machine
end

