-- ==== Sys2Proof/Machine/Hash.lean ====
section
/-! DEFINITION. SHA-384, which the partner's parameters and the slices' bindings use (R460, R544). The algorithm is that of FIPS
180-4 (PRESUMED). -/

namespace Sys2Proof.Machine

/-- Round constants: the first 64 fraction bits of the cube roots of the first 80 primes. -/
def shaRound : List Nat :=
  [0x428a2f98d728ae22, 0x7137449123ef65cd, 0xb5c0fbcfec4d3b2f, 0xe9b5dba58189dbbc,
   0x3956c25bf348b538, 0x59f111f1b605d019, 0x923f82a4af194f9b, 0xab1c5ed5da6d8118,
   0xd807aa98a3030242, 0x12835b0145706fbe, 0x243185be4ee4b28c, 0x550c7dc3d5ffb4e2,
   0x72be5d74f27b896f, 0x80deb1fe3b1696b1, 0x9bdc06a725c71235, 0xc19bf174cf692694,
   0xe49b69c19ef14ad2, 0xefbe4786384f25e3, 0x0fc19dc68b8cd5b5, 0x240ca1cc77ac9c65,
   0x2de92c6f592b0275, 0x4a7484aa6ea6e483, 0x5cb0a9dcbd41fbd4, 0x76f988da831153b5,
   0x983e5152ee66dfab, 0xa831c66d2db43210, 0xb00327c898fb213f, 0xbf597fc7beef0ee4,
   0xc6e00bf33da88fc2, 0xd5a79147930aa725, 0x06ca6351e003826f, 0x142929670a0e6e70,
   0x27b70a8546d22ffc, 0x2e1b21385c26c926, 0x4d2c6dfc5ac42aed, 0x53380d139d95b3df,
   0x650a73548baf63de, 0x766a0abb3c77b2a8, 0x81c2c92e47edaee6, 0x92722c851482353b] ++
  [0xa2bfe8a14cf10364, 0xa81a664bbc423001, 0xc24b8b70d0f89791, 0xc76c51a30654be30,
   0xd192e819d6ef5218, 0xd69906245565a910, 0xf40e35855771202a, 0x106aa07032bbd1b8,
   0x19a4c116b8d2d0c8, 0x1e376c085141ab53, 0x2748774cdf8eeb99, 0x34b0bcb5e19b48a8,
   0x391c0cb3c5c95a63, 0x4ed8aa4ae3418acb, 0x5b9cca4f7763e373, 0x682e6ff3d6b2b8a3,
   0x748f82ee5defb2fc, 0x78a5636f43172f60, 0x84c87814a1f0ab72, 0x8cc702081a6439ec,
   0x90befffa23631e28, 0xa4506cebde82bde9, 0xbef9a3f7b2c67915, 0xc67178f2e372532b,
   0xca273eceea26619c, 0xd186b8c721c0c207, 0xeada7dd6cde0eb1e, 0xf57d4f7fee6ed178,
   0x06f067aa72176fba, 0x0a637dc5a2c898a6, 0x113f9804bef90dae, 0x1b710b35131c471b,
   0x28db77f523047d84, 0x32caab7b40c72493, 0x3c9ebe0a15c9bebc, 0x431d67c49c100d4c,
   0x4cc5d4becb3e42b6, 0x597f299cfc657e2a, 0x5fcb6fab3ad6faec, 0x6c44198c4a475817]

/-- The initial state of SHA-384. -/
def shaStart : List Nat :=
  [0xcbbb9d5dc1059ed8, 0x629a292a367cd507, 0x9159015a3070dd17, 0x152fecd8f70e5939,
   0x67332667ffc00b31, 0x8eb44a8768581511, 0xdb0c2e0d64f98fa7, 0x47b5481dbefa4fa4]

/-- Rotation of a 64-bit word to the right. -/
def rotr64 (x n : Nat) : Nat := Nat.lor (x / 2 ^ n) (x * 2 ^ (64 - n) % 2 ^ 64)

/-- Sum of three rotations, the last a shift where `shift` is true. -/
def shaMix (x a b c : Nat) (shift : Bool) : Nat :=
  Nat.xor (Nat.xor (rotr64 x a) (rotr64 x b)) (if shift then x / 2 ^ c else rotr64 x c)

/-- The next word of the message schedule, from the last 16, newest first. -/
def shaNext (w : List Nat) : Nat :=
  (shaMix (w.getD 1 0) 19 61 6 true + w.getD 6 0 + shaMix (w.getD 14 0) 1 8 7 true + w.getD 15 0) % 2 ^ 64

/-- The message schedule of a block: its 16 words and 64 more. -/
def shaSchedule (block : List Nat) : List Nat :=
  ((List.range 64).foldl (fun (w : List Nat) _ => shaNext w :: w) block.reverse).reverse

/-- One round on the eight working words. -/
def shaStep (v : List Nat) (k w : Nat) : List Nat :=
  let g := fun (i : Nat) => v.getD i 0
  let ch := Nat.xor (Nat.land (g 4) (g 5)) (Nat.land (Nat.xor (g 4) (2 ^ 64 - 1)) (g 6))
  let maj := Nat.xor (Nat.xor (Nat.land (g 0) (g 1)) (Nat.land (g 0) (g 2))) (Nat.land (g 1) (g 2))
  let t1 := g 7 + shaMix (g 4) 14 18 41 false + ch + k + w
  let t2 := shaMix (g 0) 28 34 39 false + maj
  [(t1 + t2) % 2 ^ 64, g 0, g 1, g 2, (g 3 + t1) % 2 ^ 64, g 4, g 5, g 6]

/-- One block. -/
def shaBlock (h block : List Nat) : List Nat :=
  let v := (shaRound.zip (shaSchedule block)).foldl (fun (v : List Nat) kw => shaStep v kw.1 kw.2) h
  (h.zip v).map fun x => (x.1 + x.2) % 2 ^ 64

/-- A number from bytes, the first highest. -/
def ofBytesBig (bs : List Byte) : Nat := bs.foldl (fun (n : Nat) b => n * 256 + b.toNat) 0

/-- The low `n` bytes of a number, the highest first. -/
def toBytesBig (x n : Nat) : List Byte := (toBytes x n).reverse

/-- The 64-bit words of `n` blocks of bytes. -/
def shaBlocks (bs : List Byte) : Nat → List (List Nat)
  | 0 => []
  | n + 1 => (List.range 16).map (fun i => ofBytesBig ((bs.drop (8 * i)).take 8)) :: shaBlocks (bs.drop 128) n

/-- SHA-384 of bytes: 48 bytes. -/
def sha384 (bs : List Byte) : List Byte :=
  let n := bs.length
  let padded := bs ++ [128] ++ List.replicate ((239 - n % 128) % 128) 0 ++ toBytesBig (8 * n) 16
  ((((shaBlocks padded (padded.length / 128)).foldl shaBlock shaStart).take 6).flatMap fun w => toBytesBig w 8)

end Sys2Proof.Machine
end

