-- ==== Sys2Proof/Machine/SealCmds.lean ====
section
/-! DEFINITION. Veil and seal commands and events (10_veil_and_seal.md): rotation (R291), rewrite trackers (R292), counter fetches
(R301), the region enable (R307), re-key and retirement (R306, R308), and breach recovery (R311). -/

namespace Sys2Proof.Machine

/-! ### Sweeps and drains -/

/-- A page has a location that a rewrite works on: it is backed and not LOST. -/
def State.hasForm (s : State) (dpn : Nat) : Bool :=
  match (s.entry dpn).loc with
  | .nowhere => false
  | _ => true

/-- Pages of every committed claim, in ascending order. -/
def State.committedPages (s : State) : List Nat :=
  s.listedPages.filter fun p => (s.claimOf (p * 4096)).isSome

/-- Drain the write path (R291 step 3): the writeback buffer entries and channel write queue entries that exist now reach
DRAM. -/
def State.drainPath (s : State) (fs : Finds) : State :=
  let s := (s.cir.buffer.map fun w => w.dpaLine).foldl (fun s l => s.writeBack l fs false) s
  (List.range 16).foldl (fun s c => if s.serving c then s.drain c (s.chan c).writes.length else s) s

/-! ### Veil rotation (R291) -/

/-- Start a rotation; ignored while one runs. -/
def State.startRotation (s : State) : State :=
  if s.on SEC_VEILSTAT.ROTATING then s
  else
    let (key, s) := s.draw
    let s := { s with sec := { s.sec with veil := s.sec.veil.set (1 - s.rd SEC_VEILSTAT.GEN) (key % 2 ^ 128) } }
    let s := ((s.wr SEC_VEILSTAT.GEN (1 - s.rd SEC_VEILSTAT.GEN)).put SEC_VEILSTAT.ROTATING true).wr SEC_VEILSTAT.PCT 0
    { s with sec := { s.sec with sweepAt := 0, comeBack := [], swept := false, oldKeyHeld := true } }

/-- SEC_VEILCFG_ROTATE (R291, R316): a write of SEC_VEILCFG by Zenith. -/
def execSecVeilcfgRotate (v : Nat) (s : State) : Host.Outcome State Fault Refusal :=
  let s := s.storeFields [SEC_VEILCFG.RATE] 0 v
  if SEC_VEILCFG.ROTATE.set v then s.startRotation.done else s.done

/-- Percent of the committed pages that lie below a page. -/
def State.sweepPercent (s : State) (dpn : Nat) : Nat :=
  let all := (s.committed.map fun c => s.claimSize c / 4096).sum
  let below := (s.committed.map fun c => min (dpn - s.claimBase c / 4096) (s.claimSize c / 4096)).sum
  if all = 0 then 100 else below * 100 / all

/-- The stored form of a page is under the old veil key. -/
def State.underOldKey (s : State) (p : Nat) : Bool := s.hasForm p && (s.entry p).keygen != s.rd SEC_VEILSTAT.GEN

/-- The sweep rewrites a page under the new veil key; one that moves or is rewritten already is come back to. -/
def State.rotatePage (s : State) (p : Nat) : State :=
  let e := s.entry p
  if e.state = .inFlight ∨ s.tracked p = true then
    { s with sec := { s.sec with comeBack := s.sec.comeBack.add p } }
  else
    let s := (s.takeUnits masterService (pageItems e.loc).length).startTracker
      { dpn := p, why := .rotation, oldGen := e.keygen, oldKey := e.keyid, oldLeaf := {}
        newGen := s.rd SEC_VEILSTAT.GEN, newKey := e.keyid }
    { s with sec := { s.sec with comeBack := s.sec.comeBack.remove p } }

/-- The sweep has passed a page, and shows its progress. -/
def State.sweptTo (s : State) (p : Nat) : State :=
  { s with sec := { s.sec with sweepAt := p + 1 } }.wr SEC_VEILSTAT.PCT (min (s.sweepPercent (p + 1)) 100)

/-- The sweep has passed every page. -/
def State.endPassOver (s : State) : State := { s with sec := { s.sec with swept := true } }

/-- VEIL_SWEEP_PAGE (R291 step 2): the sweep takes its next page: it starts a rewrite tracker, or comes back later to a page
that is IN_FLIGHT or has a tracker. -/
def execVeilSweepPage (s : State) : Host.Outcome State Fault Refusal :=
  if !s.on SEC_VEILSTAT.ROTATING then s.done
  else
    match s.committedPages.find? fun p => decide (s.sec.sweepAt ≤ p) && s.underOldKey p with
    | some p => ((s.rotatePage p).sweptTo p).done
    | none =>
      match s.sec.comeBack.find? fun p => s.underOldKey p && (s.entry p).state != .inFlight && !s.tracked p with
      | some p => (s.endPassOver.rotatePage p).done
      | none => (s.endPassOver.wr SEC_VEILSTAT.PCT 100).done

/-- The write path drains and the old veil key is gone. -/
def State.endRotation (s : State) (fs : Finds) : State :=
  let s := s.drainPath fs
  let s := { s with sec := { s.sec with oldKeyHeld := false, swept := false, comeBack := [] } }
  (s.put SEC_VEILSTAT.ROTATING false).wr SEC_VEILSTAT.ROTCOUNT ((s.rd SEC_VEILSTAT.ROTCOUNT + 1) % 2 ^ 32)

/-- ROTATION_END (R291 step 3): the drain after the sweep has ended. It does not start while a page carries the old
generation. -/
def execRotationEnd (fs : Finds) (s : State) : Host.Outcome State Fault Refusal :=
  if s.on SEC_VEILSTAT.ROTATING && s.sec.swept && !s.committedPages.any s.underOldKey then (s.endRotation fs).done else s.done

/-! ### Rewrite trackers (R292) -/

/-- A rewrite tracker reads an item, and writes it back under the new transform (R292). -/
def State.rewriteItem (s : State) (t : RewriteTracker) (loc : Location) (dpn item : Nat) (find : MediaFind) : State :=
  let s := s.takeUnits masterService 2
  let line := match loc with
    | .frame mfn => mfn * 64 + item
    | _ => s.granuleLine (loc.blockStart (item / 16)) + item % 16
  let first := match loc with
    | .frame _ => dpn * 64 + item
    | _ => dpn * 64 + item / 16 * 16
  let (got, s) := s.readMedia line find.ecc (s.listed first)
  let s := match got, loc with
    | .bad, .frame _ =>
      if s.listed first || s.heldWhole first then s
      else (s.poisonLine first .internal (s.linePlace first)).wantRepair first none
    | .bad, _ => if s.listed first then s else s.badBlock dpn (item / 16) DecodeFault.media.code
    | .data _, .frame _ => if find.macOk then s else s.macFail.wantRepair first none
    | .data _, _ => if find.macOk then s else s.macFail
    | _, _ => s
  let s := if t.why = .rekey then (s.sealItem dpn item).getD s else s
  s.itemsDone dpn [item]

/-- REWRITE_TRACKER_ITEM (R292): a tracker reads one item of its page, which `find` describes, and writes it back in the new
state. An item that cannot be verified is lost as any read finds it, and its bit is set (DEDUCED). A tracker on a frozen
channel waits. -/
def execRewriteTrackerItem (dpn item : Nat) (find : MediaFind) (s : State) : Host.Outcome State Fault Refusal :=
  let loc := (s.entry dpn).loc
  match s.sec.trackers.find? fun t => t.dpn == dpn with
  | none => s.done
  | some t =>
    let away := match s.locationChannel loc with
      | some c => !s.serving c
      | none => true
    if away || t.done.has item || !(pageItems loc).contains item then s.done
    else if (s.locationChannel loc).any fun c => s.panicHolds masterService c then (s.holdUnits masterService 1).done
    else
      (s.rewriteItem t loc dpn item find).done

/-! ### Counter fetches (R301, R309, R310) -/

/-- What the fetch of a tree entry finds. -/
def State.verifyPath (s : State) (k dpn : Nat) (finds : List (Nat × EntryFind)) : List (Nat × Nat) → State
  | [] => s
  | (level, index) :: rest =>
    let key := nodeKey level index
    let take := fun (s : State) => s.setTree k { s.tree k with cached := (s.tree k).cached.add key }
    match (finds.find? fun f => f.1 == level).map Prod.snd with
    | some .uncorrectable => s.breach k level index 0
    | some .macFail => s.breach k level index 1
    | some .corrected => (take (s.inc SEC_ERRCNT.TREECE)).verifyPath k dpn finds rest
    | none => (take s).verifyPath k dpn finds rest

/-- An entry may leave the counter cache: it is held, and none of its children is (R301). -/
def State.evictable (s : State) (k level index : Nat) : Bool :=
  let t := s.tree k
  t.cached.has (nodeKey level index) &&
    (level == 0 || !((List.range 8).any fun j => t.cached.has (nodeKey (level - 1) (index * 8 + j))))

/-- Cached tree entries with an error in the counter cache are dropped; a dirty one is a breach. -/
def State.spoilNodes (s : State) (spoilt : List (Nat × Nat × Nat)) : State :=
  spoilt.foldl (fun s e =>
    let t := s.tree e.1
    let key := nodeKey e.2.1 e.2.2
    if t.cached.has key then
      let dirty := t.dirty.has key
      let s := s.setTree e.1 { t with cached := t.cached.remove key, dirty := t.dirty.remove key }
      if dirty then s.breach e.1 e.2.1 e.2.2 2 else s
    else s) s

/-- Tree entries leave the counter cache. -/
def State.evictNodes (s : State) (evicts : List (Nat × Nat × Nat)) : State :=
  evicts.foldl (fun s e => if s.evictable e.1 e.2.1 e.2.2 then s.evictNode e.1 e.2.1 e.2.2 else s) s

/-- COUNTER_FETCH (R301): the entries missing on a page's path arrive and are verified from the top down; `finds` gives the
levels that fail or are corrected. `evicts` names the entries (KeyID, level, index) that leave the cache for them, and
`spoilt` those in which the cache finds an uncorrectable error: a clean one is dropped, a dirty one breaches its subtree. -/
def execCounterFetch (dpn : Nat) (finds : List (Nat × EntryFind)) (evicts spoilt : List (Nat × Nat × Nat)) (s : State) :
    Host.Outcome State Fault Refusal :=
  let s := (s.spoilNodes spoilt).evictNodes evicts
  let k := (s.entry dpn).keyid
  if k = 0 ∨ s.treeUnreachable dpn = true then s.done
  else (s.verifyPath k dpn finds (s.missing dpn)).done

/-! ### The region enable (R307) -/

/-- The seal region enable check, but for the partner's answer. -/
def State.sealCheck (s : State) (c : Nat) : Nat :=
  firstCode
    [(!s.onAt MAP_CLAIMATTR.COMMIT c || !s.onAt MAP_CLAIMATTR.SEALED c || s.onAt MAP_CLAIMSTAT.RELEASING c ||
      s.onAt MAP_CLAIMSTAT.SEAL_READY c, 0x80),
     (s.sec.rngFailed, 0x81),
     (decide (s.metaFree < s.treeBytes c), 0x82)]

/-- The region of a claim is enabled: its RESERVED KeyID becomes ACTIVE (R300, R307). -/
def State.enableRegion (s : State) (c : Nat) : State :=
  match s.keysOf c keyReserved with
  | [] => s
  | k :: _ =>
    let s := (s.startKey k c).metaSpace (s.treeBytes c) true
    let s := s.setTree k { s.tree k with bytes := s.treeBytes c }
    (s.putAt MAP_CLAIMSTAT.SEAL_READY c true).wr SEC_REGIONCTL.CHECK 0

/-- The partner is asked to enable the same region. -/
def State.forwardSeal (s : State) (c : Nat) : State :=
  ({ s with sec := { s.sec with enabling := s.sec.enabling.put c c } }).ctrl (.sealEn c c)

/-- Run the region enable; gives the code that is known at once, or none while the partner has not answered (R307, R413). In
a MIRRORED pair both Zeniths enable together: this member enables when SEALRES returns 0x00. -/
def State.askSeal (s : State) (c : Nat) : Option Nat × State :=
  match s.sealCheck c with
  | 0 =>
    if s.pairState = pairMirrored then
      (none, s.forwardSeal c)
    else (some 0, s.enableRegion c)
  | code => (some code, s.wr SEC_REGIONCTL.CHECK code)

/-- SEC_REGIONCTL_ENABLE (R307, R318): a write of SEC_REGIONCTL by Zenith. -/
def execSecRegionctlEnable (v : Nat) (s : State) : Host.Outcome State Fault Refusal :=
  let s := s.storeFields [SEC_REGIONCTL.CLAIM] 0 v
  if SEC_REGIONCTL.ENABLE.set v then (s.askSeal (SEC_REGIONCTL.CLAIM.of v)).2.done else s.done

/-! ### Re-key (R308) -/

/-- A re-key starts: a FREE KeyID becomes ACTIVE for the claim, and a second tree is charged to the shared pool. Nothing
happens while no KeyID is free or the charge fails; Zenith tries again. -/
def State.startRekey (s : State) (k : Nat) : State :=
  let c := s.rdAt SEC_KEYSTAT.CLAIM k
  let bytes := s.treeBytes c
  match s.freeKey with
  | none => s
  | some new =>
    if s.sharedFree < bytes ∨ s.metaFree < bytes then s
    else
      let s := { s with map := { s.map with sharedUsed := s.map.sharedUsed + bytes } }
      let s := (s.startKey new c).metaSpace bytes true
      let s := s.setTree new { s.tree new with bytes := bytes }
      let s := s.setTree k { s.tree k with shared := bytes }
      ({ s with sec := { s.sec with rekeyTo := s.sec.rekeyTo.put k new } }).accounts

/-- A page is rewritten under the new key of its claim, with a fresh leaf. -/
def State.rekeyPage (s : State) (k new p : Nat) (l : SealLeaf) : State :=
  let e := s.entry p
  let idx := s.pageIndex (s.rdAt SEC_KEYSTAT.CLAIM k) p
  let old := (s.tree k).leaves.get {} idx
  ((s.takeUnits masterService (pageItems e.loc).length).setLeaf new idx l).startTracker
    { dpn := p, why := .rekey, oldGen := e.keygen, oldKey := k, oldLeaf := old, newGen := e.keygen, newKey := new }

/-- No page is under an old key: it retires. -/
def State.endRekey (s : State) (k : Nat) : State :=
  let s := (s.setKey k keyRetiring (s.rdAt SEC_KEYSTAT.CLAIM k)).putAt SEC_KEYSTAT.REKEY k false
  { s with sec := { s.sec with rekeyTo := s.sec.rekeyTo.erase k } }

/-- Pages of a key's claim that are under the key. -/
def State.keyPages (s : State) (k : Nat) : List Nat :=
  (s.pagesOf (s.rdAt SEC_KEYSTAT.CLAIM k)).filter fun p => (s.entry p).keyid == k

/-- Pages that a rekey may take now, those with a writeback in the buffer first. -/
def State.rekeyQueue (s : State) (k : Nat) : List Nat :=
  let free := (s.keyPages k).filter fun p => s.hasForm p && (s.entry p).state != .inFlight && !s.tracked p
  let waits := s.cir.buffer.map fun w => w.dpaLine / 64
  (free.filter fun p => waits.contains p) ++ free

/-- REKEY_SWEEP_PAGE (R308): the re-key of KeyID `k` starts, or its sweep moves the next page: one whose writeback waits for a
counter value first. When no page names the old KeyID, it becomes RETIRING. -/
def execRekeySweepPage (k : Nat) (s : State) : Host.Outcome State Fault Refusal :=
  if !(s.onAt SEC_KEYSTAT.REKEY k && s.rdAt SEC_KEYSTAT.STATE k == keyActive) then s.done
  else
    match s.sec.rekeyTo.find k with
    | none => (s.startRekey k).done
    | some new =>
      match s.rekeyQueue k with
      | p :: _ =>
        match s.freshLeaf new with
        | none => s.done
        | some (l, s) => (s.rekeyPage k new p l).done
      | [] => if (s.keyPages k).isEmpty then (s.endRekey k).done else s.done

/-- A KeyID that is retired becomes free (R306). -/
def State.retireKey (s : State) (k : Nat) (fs : Finds) : State :=
  let s := s.drainPath fs
  ((s.metaSpace (s.tree k).bytes false).dropKey k).accounts

/-- Nothing is under a retiring key: no page, no capture, no rewrite. -/
def State.keyFree (s : State) (k : Nat) : Bool :=
  let held := (s.slotsOf (s.rdAt SEC_KEYSTAT.CLAIM k)).any fun n => !(s.slot n).captures.isEmpty
  let named := (s.sec.trackers ++ s.sec.waiting).any fun t => t.oldKey == k || t.newKey == k
  s.rdAt SEC_KEYSTAT.STATE k == keyRetiring && s.rdAt SEC_KEYSTAT.PAGES k == 0 && !held && !named

/-- KEYID_RETIREMENT (R306): the drain of a RETIRING KeyID has completed, and nothing names it any more: it becomes FREE. -/
def execKeyidRetirement (k : Nat) (fs : Finds) (s : State) : Host.Outcome State Fault Refusal :=
  if s.keyFree k then (s.retireKey k fs).done else s.done

/-! ### Breach recovery (R311) -/

/-- Pages that a breach covers. -/
def State.coveredPages (s : State) (k : Nat) (record : Option Nat) : List Nat :=
  let c := s.rdAt SEC_KEYSTAT.CLAIM k
  (s.pagesOf c).filter fun p => (s.entry p).keyid == k && (match record with
    | some r => s.recordCovers r k (s.pageIndex c p)
    | none => true)

/-- The breach no longer stands. -/
def State.clearBreach (s : State) (k : Nat) (record : Option Nat) : State :=
  match record with
  | some r =>
    let s := (s.putAt SEC_BREACH.VALID r false).wrAt SEC_BREACH.PROGRESS r 0
    s.wr SEC_BREACHSTAT.VALID (setBit (s.rd SEC_BREACHSTAT.VALID) r false)
  | none => { s.putAt SEC_KEYSTAT.BREACHED k false with sec := { s.sec with whole := s.sec.whole.erase k } }

/-- A recovery ends (R311): REINIT makes every covered page UNBACKED; under REFETCH the partner has sent every covered line.
The breach clears. -/
def State.endRecovery (s : State) (k : Nat) (record : Option Nat) (choice : Nat) : State :=
  let s := if choice = recoverReinit then
      (s.coveredPages k record).foldl (fun s p => (s.bumpMove p).askUnback p) s
    else s
  let s := if choice = recoverReinit then s.clearCovered k record else s
  s.clearBreach k record

/-- BREACH_RECOVERY_END (R311): the REINIT of a record, or of a whole claim where none is named, ends; a REFETCH ends with
its REFDONE (R413). -/
def execBreachRecoveryEnd (k : Nat) (record : Option Nat) (s : State) : Host.Outcome State Fault Refusal :=
  let (key, choice) := match record with
    | some r => (s.rdAt SEC_BREACH.KEYID r, if s.onAt SEC_BREACH.VALID r then s.rdAt SEC_BREACH.PROGRESS r else 0)
    | none => (k, (s.sec.whole.get (0, 0) k).1)
  if choice = recoverReinit then (s.endRecovery key record choice).done else s.done

/-! ### Faults of the protection unit (R314) -/

/-- SEC_RNG_FAIL (R307, R314): the random number generator fails its health test. -/
def execSecRngFail (s : State) : Host.Outcome State Fault Refusal :=
  ({ s with sec := { s.sec with rngFailed := true } }.raise srcRngFail).done

/-- The stored form of a line cannot be read through the protection unit: it counts as an uncorrectable error. -/
def State.loseStored (s : State) (dpaLine : Nat) : State :=
  match (s.entry (dpaLine / 64)).loc with
  | .frame mfn =>
    let s := s.ueFound (mfn * 64 + dpaLine % 64)
    if s.listed dpaLine || s.heldWhole dpaLine then s
    else (s.poisonLine dpaLine .internal (s.linePlace dpaLine)).wantRepair dpaLine none
  | .run _ _ _ _ _ =>
    let loc := (s.entry (dpaLine / 64)).loc
    let s := s.ueFound (s.granuleLine (loc.blockStart (dpaLine % 64 / 16)))
    s.badBlock (dpaLine / 64) (dpaLine % 64 / 16) DecodeFault.media.code
  | .nowhere => s

/-- SEC_PIPE_PAR (R314): a parity error in a crypto pipeline. The item is redone once; at the second failure its line has an
uncorrectable error. -/
def execSecPipePar (dpaLine : Nat) (again : Bool) (s : State) : Host.Outcome State Fault Refusal :=
  let s := s.raise srcPipePar
  if !again then s.done else (s.loseStored dpaLine).done

end Sys2Proof.Machine
end

