-- ==== Sys2Proof/Machine/PairOps.lean ====
section
/-! DEFINITION. The member's moves between the pair states (15_redundant_pair.md): joining and leaving (R439–R442), fencing and
discarding (R455, R456), resync and repair (R451–R453), and what is sent again when Contrail comes back (R422, R448). -/

namespace Sys2Proof.Machine

/-! ### Parameters (R436, R440, R460) -/

/-- Value of the PAIR_ID strap. -/
def State.pairId (s : State) : Nat := s.rd SYS_ID.PAIRID

/-- HOME of a member that is home for its natural half (R435). -/
def State.naturalHome (s : State) : Nat := 2 ^ s.pairId

/-- A committed decoder breaks R436. -/
def State.decoderBreaksPair (s : State) : Bool :=
  s.decoders.any fun d => d.2.committed &&
    (decide (2 < d.2.ways) || (d.2.ways == 2 && d.2.gran != 2 ^ s.rd PAR_CFG.GRANLOG))

/-- Enabled slices, and slices that own a committed or releasing claim. -/
def State.enabledSlices (s : State) : NSet := s.copiesWith SLC_CTL.ENABLE 1
def State.owningSlices (s : State) : NSet :=
  s.taken.foldl (fun t c => NSet.add t (s.rdAt MAP_CLAIMATTR.SLICE c)) []

/-- The 512-byte bitmap of a set of slices (R460). -/
def sliceBitmap (slices : NSet) : List Byte :=
  toBytes (slices.foldl (fun (w : Nat) i => setBit w i true) 0) 512

/-- The first 16 bytes of the digest of a set of slices, byte 0 lowest (R460). -/
def sliceDigest (slices : NSet) : Nat := ofBytes ((sha384 (sliceBitmap slices)).take 16)

/-- The member's own parameters (R460). -/
def State.ownParams (s : State) : PeerParams :=
  { pairId := s.pairId, stepping := s.rd SYS_ID.STEPPING, mode := s.rd PAR_CFG.MODE, granLog := s.rd PAR_CFG.GRANLOG
    zenith := s.chip.zenith, horizon := s.chip.horizon, usable := s.rd MAP_CAPUSABLE.BYTES
    dpaCap := s.rd MAP_DPACAP.CAP, claims := s.taken.length, slots := s.liveSlots.length
    badDecoder := s.decoderBreaksPair, digest := sliceDigest s.enabledSlices }

/-- Slices of a set in one piece of 1,024, counted from the piece's first (R460). -/
def slicePiece (slices : NSet) (k : Nat) : NSet :=
  (slices.filter fun i => decide (1024 * k ≤ i) && decide (i < 1024 * (k + 1))).map fun i => i - 1024 * k

/-- Send PARAMS and the eight SLICEMAP messages (R460). -/
def State.sendParams (s : State) : State :=
  let s := s.ctrl (.params s.ownParams)
  let s := (List.range 4).foldl (fun s k => s.ctrl (.sliceMap k false (slicePiece s.enabledSlices k))) s
  (List.range 4).foldl (fun s k => s.ctrl (.sliceMap k true (slicePiece s.owningSlices k))) s

/-- The member holds claims or live slots. -/
def holdsAny (p : PeerParams) : Bool := decide (0 < p.claims) || decide (0 < p.slots)

/-- The PAIR enable check against the partner's parameters (R440); none stands for parameters that did not arrive. -/
def State.pairCheck (s : State) (peer : Option PeerParams) : Nat :=
  let own := s.ownParams
  let p := peer.getD own
  let slicesBad := s.owningSlices.any (fun i => !s.pair.peerEnabled.has i) ||
    s.pair.peerOwners.any (fun i => !s.enabledSlices.has i)
  firstCode
    [(!s.on SYS_CTL.DEV_ENABLE, 0xC0), (s.pairState != pairAlone && s.pairState != pairTakenOver, 0xCA),
     (!s.linkUp || peer.isNone, 0xC1), (p.pairId == own.pairId, 0xC2), (p.stepping != own.stepping, 0xC3),
     (p.zenith != own.zenith || p.horizon != own.horizon, 0xC4),
     (p.usable != own.usable || p.dpaCap != own.dpaCap, 0xC5),
     (p.mode != own.mode || p.granLog != own.granLog || slicesBad || own.badDecoder || p.badDecoder, 0xC6),
     ((holdsAny own && holdsAny p) || (s.pairState == pairTakenOver && holdsAny p) ||
       (s.rd PAR_STAT.PEERSTATE == pairTakenOver && holdsAny own), 0xC7)]

/-! ### Joining and leaving (R439–R442) -/

/-- The pair's working state starts afresh; numbering goes on. -/
def State.clearPair (s : State) : State :=
  let p := s.pair
  let s := { s with pair := { p with
    journal := [], outbits := [], sent := [], fetches := [], fetchQueue := [], fwd := [], deferred := [], mirackDue := false
    stalled := false, enabling := false } }
  ((s.put PAR_STAT.FWD false).journalStatus).outStatus

/-- Writes that waited for the partner are completed. -/
def State.completeWrites (s : State) (ids : List Nat) (outcome : Nat) : State :=
  ids.foldl (fun s id => match s.req id with
    | some r => s.complete r 0 false outcome
    | none => s) s

/-- Requests that the journal's entries hold back. -/
def State.journalWaits (s : State) : List Nat := s.pair.journal.filterMap fun e => e.req

/-- Every stripe of every committed claim, in ascending order (R442 step 4). -/
def State.claimStripes (s : State) : NSet :=
  (sortBy (fun a b => decide (s.claimBase a ≤ s.claimBase b)) s.committed).flatMap fun c =>
    (List.range (s.claimSize c / 65536)).map fun i => s.claimBase c / 65536 + i

/-- The enable check has passed: MIRRORED where neither member has a claim, else JOINING with its roles (R439, R441, R442). -/
def State.enterPair (s : State) (peer : PeerParams) : State :=
  let before := s.pairState
  let s := s.clearPair
  let s := ((s.wr PAR_CTL.CHECK 0).put PAR_CTL.ENABLE true)
  let s := { s with pair := { s.pair with before := before } }
  if s.committed.isEmpty && s.releasing.isEmpty && peer.claims == 0 then
    ((s.put PAR_STAT.ROLE false).wr PAR_STAT.HOME s.naturalHome).pairEnter pairMirrored
  else if peer.claims = 0 then
    let s := s.put PAR_STAT.ROLE false
    let s := ({ s with pair := { s.pair with outbits := s.claimStripes } }).pairEnter pairJoining
    s.committed.foldl (fun s c =>
      { s with pair := { s.pair with fwd := s.pair.fwd ++ [Forward.join c] } }.ctrl (s.claimDefOf c)) s
  else
    let s := (s.put PAR_STAT.ROLE true).wr PAR_EPOCH.CUR (s.rd PAR_EPOCH.PEER)
    (s.wr PAR_STAT.HOME 0).pairEnter pairJoining

/-- Run the enable check (R440). -/
def State.runPairCheck (s : State) (peer : Option PeerParams) : State :=
  let s' := { s with pair := { s.pair with enabling := false } }
  match s.pairCheck peer, peer with
  | 0, some p => s'.enterPair p
  | code, _ => s'.wr PAR_CTL.CHECK code

/-- The partner's parameters are complete: PARAMS and the eight pieces have come, and the digest is that of the enabled
slices (R460). -/
def State.peerComplete (s : State) : Option PeerParams :=
  match s.pair.peer with
  | none => none
  | some p => if s.pair.mapsSeen.length = 8 ∧ sliceDigest s.pair.peerEnabled = p.digest then some p else none

/-- Every live slot is freed and every claim starts its release (R456). -/
def State.discardAll (s : State) : State :=
  let s := s.liveSlots.foldl (fun s n => (s.closePeer n 0).dropSlot n) s
  let s := s.committed.foldl State.startRelease s
  { s with pair := { s.pair with discarding := true } }

/-- Leave a join (R439): the member returns to its state before; a joiner discards what it has taken. Writes that waited for
the partner are completed. -/
def State.leaveJoin (s : State) : State :=
  let before := s.pair.before
  let joiner := s.on PAR_STAT.ROLE
  let waits := s.journalWaits
  let s := s.clearPair.pairEnter before
  let s := (s.wr PAR_STAT.HOME 3).put PAR_STAT.ROLE false
  let s := if before = pairAlone then s.put PAR_CTL.ENABLE false else s
  let s := s.completeWrites waits outWrite
  if joiner then s.discardAll else s

/-- The source of a join ends it once every stripe is acknowledged and every claim taken (R442 step 5). -/
def State.joinEnd (s : State) : State :=
  if s.pairState == pairJoining && !s.on PAR_STAT.ROLE && s.pair.outbits.isEmpty && s.pair.fwd.isEmpty then
    s.pairEnter pairMirrored
  else s

/-! ### Away and back (R449–R452) -/

/-- Enter EXPOSED (R450 step 4). -/
def State.exposeNow (s : State) : State :=
  let (waits, s) := s.expose
  s.completeWrites waits outWrite

/-- Enter RESYNC when the partner is back in EXPOSED or RESYNC with the same epoch (R439, R450 step 6). -/
def State.tryResync (s : State) (peer epoch : Nat) : State :=
  if s.pairState == pairExposed && s.linkUp && (peer == pairExposed || peer == pairResync) &&
      epoch == s.rd PAR_EPOCH.CUR then
    ({ s with pair := { s.pair with peerCounted := false, sent := [], stalled := false } }).pairEnter pairResync
  else s

/-- RESYNC ends once neither member has a recorded stripe (R452): the partner's count is one that it sent since the member
entered RESYNC, and the partner is in RESYNC or MIRRORED (DEDUCED). -/
def State.resyncEnd (s : State) : State :=
  let peer := s.rd PAR_STAT.PEERSTATE
  if s.pairState == pairResync && s.pair.outbits.isEmpty && s.pair.peerCounted && s.rd PAR_PEER.OUTBITS == 0 &&
      (peer == pairResync || peer == pairMirrored) then
    s.pairEnter pairMirrored
  else s

/-! ### Fencing (R454–R456) -/

/-- Enter FENCED (R456): MW and RSW packets that wait are dropped, and descriptors at work on device memory end with
NOT_PERMITTED. -/
def State.fenceNow (s : State) : State :=
  let s := s.fenceMember
  let isLine := fun (p : Packet) => match p with
    | .mw _ _ | .rsw _ => true
    | _ => false
  let s := { s with con := { s.con with openMW := [], queue := s.con.queue.filter fun p => !isLine p } }
  (s.que.descs.filter fun d => d.status.isNone && (!d.ranges.isEmpty || d.op == 0x1B)).foldl
    (fun s d => s.stopDesc d stNotPermitted) s

/-- An epoch arrives from the partner, with its state where a heartbeat gives it (R454, R455). -/
def State.meetEpoch (s : State) (epoch : Nat) (peer : Option Nat) : State :=
  let s := s.wr PAR_EPOCH.PEER (max (s.rd PAR_EPOCH.PEER) epoch)
  let cur := s.rd PAR_EPOCH.CUR
  let st := s.pairState
  let joiner := st == pairJoining && s.on PAR_STAT.ROLE
  if cur < epoch ∧ st ≠ pairAlone ∧ st ≠ pairFenced ∧ joiner = false then s.fenceNow
  else if st = pairTakenOver ∧ peer = some pairTakenOver ∧ epoch = cur ∧ s.pairId = 1 then s.fenceNow
  else s

/-! ### Sending a stripe (R452) -/

/-- The lines of a page as RSW sends them, and the state after the reads; a line that cannot be read carries poison. -/
def State.resyncLines (s : State) (dpn : Nat) (fs : Finds) : Nat → List MirrorLine × State
  | 0 => ([], s)
  | n + 1 =>
    let (ls, s) := s.resyncLines dpn fs n
    let l := dpn * 64 + n
    match s.cirLine l with
    | some _ => (ls ++ [s.currentLine l], s)
    | none =>
      match s.deviceRead l fs with
      | (some x, s) => (ls ++ [⟨l, x.1, ByteMask.full, x.2⟩], s)
      | (none, s) => (ls ++ [⟨l, 0, ByteMask.full, true⟩], s)

/-- RSW packets of 16 lines. -/
def State.sendLines (s : State) (ls : List MirrorLine) : State :=
  (List.range (ceilDiv ls.length 16)).foldl (fun s i => s.queuePacket (.rsw ((ls.drop (16 * i)).take 16))) s

/-- Send one page of a stripe, or the covered lines of a page (R311, R452 step 1). -/
def State.sendPage (s : State) (fs : Finds) (dpn : Nat) : State :=
  match (s.entry dpn).state, s.claimOf (dpn * 4096) with
  | _, none => s
  | .unbacked, _ => s.ctrl (.unback dpn 1)
  | .lost, _ => s.sendLines ((List.range 64).map fun i => ⟨dpn * 64 + i, 0, ByteMask.full, true⟩)
  | _, _ =>
    let (ls, s) := (s.takeUnits masterResync 64).resyncLines dpn fs 64
    s.sendLines ls

/-! ### After a link that was down (R422, R448) -/

/-- The journal's lines with their numbers, in MW packets of at most 16 (R448). -/
def State.journalPackets (s : State) : List Packet :=
  let j := s.pair.journal
  (List.range (ceilDiv j.length 16)).filterMap fun i =>
    match (j.drop (16 * i)).take 16 with
    | [] => none
    | e :: es => some (.mw e.num ((e :: es).map fun x => s.currentLine x.line))

/-- REFETCH messages of recoveries of whole claims, one for each top-level node (R311). -/
def State.wholeRefetches (s : State) : List Packet :=
  (s.sec.whole.filter fun e => e.2.1 == recoverRefetch).flatMap fun e =>
    let c := s.rdAt SEC_KEYSTAT.CLAIM e.1
    let top := nodeLevels (s.claimSize c / 4096)
    (List.range (ceilDiv (s.claimSize c / 4096) (8 ^ top))).map fun i => Packet.ctrl (.refetch (64 + e.1) c top i)

/-- Every REFDONE of a recovery of a whole claim is awaited anew. -/
def State.awaitWhole (s : State) : State :=
  { s with sec := { s.sec with whole := s.sec.whole.map fun e =>
      let pages := s.claimSize (s.rdAt SEC_KEYSTAT.CLAIM e.1) / 4096
      (e.1, e.2.1, ceilDiv pages (8 ^ nodeLevels pages)) } }

/-- Messages that their users repeat (R422): pages made UNBACKED that still are, fetches, forwarded operations, seal enables
and REFETCH requests that no answer has come for (DEDUCED). -/
def State.repeatedMessages (s : State) (kept : List Packet) : List Packet :=
  let unbacks := kept.flatMap fun p => match p with
    | .ctrl (.unback dpn count) =>
      ((List.range count).filter fun i => (s.entry (dpn + i)).state == .unbacked).map fun i => Packet.ctrl (.unback (dpn + i) 1)
    | _ => []
  let fwd := s.pair.fwd.map fun f => match f with
    | .commit c | .join c => Packet.ctrl (s.claimDefOf c)
    | .release c => Packet.ctrl (.claimRel c)
  let record := fun (r : Nat) => Packet.ctrl (.refetch r (s.rdAt SEC_KEYSTAT.CLAIM (s.rdAt SEC_BREACH.KEYID r))
    (s.rdAt SEC_BREACH.LEVEL r) (s.rdAt SEC_BREACH.INDEX r))
  let breaches := ((List.range 64).filter fun r =>
    s.onAt SEC_BREACH.VALID r && s.rdAt SEC_BREACH.PROGRESS r == recoverRefetch).map record
  unbacks ++ fwd ++ (s.pair.fetches.map fun f => Packet.ctrl (.fetch f.line)) ++
    (s.sec.enabling.map fun e => Packet.ctrl (.sealEn e.1 e.2)) ++ breaches ++ s.wholeRefetches

/-- Contrail is UP after DOWN or OFF: the journal is sent again before any new MW, then the resync lines with their current
contents, and stream bytes (R422, R448). -/
def State.relink (s : State) : State :=
  let kept := s.con.queue
  let isStream := fun (p : Packet) => match p with
    | .stream _ _ _ => true
    | _ => false
  let lines := kept.flatMap fun p => match p with
    | .rsw ls => (ls.map fun l => l.line).filter fun l => s.homeFor (l * 64)
    | _ => []
  let streams := kept.filter isStream
  let s := { s with pair := { s.pair with sent := [], stalled := false, peer := none, mapsSeen := [] } }
  if s.mirroring then
    let s := s.awaitWhole
    let s := { s with con := { s.con with openMW := [], queue := s.repeatedMessages kept ++ s.journalPackets } }
    let s := s.sendLines (lines.map s.currentLine)
    { s with con := { s.con with queue := s.con.queue ++ streams } }.flow
  else { s with con := { s.con with openMW := [], queue := streams } }.flow

end Sys2Proof.Machine
end

