-- ==== Sys2Proof/Machine/ContrailCmds.lean ====
section
/-! DEFINITION. Contrail as commands and events (14_contrail_link.md): the control bits, training, codewords, the packets that
are not CTRL messages, the timers, spare lanes and bundle drop, and key renewal. -/

namespace Sys2Proof.Machine

/-! ### Training (R406, R407) -/

/-- Initial training starts. -/
def State.startLink (s : State) : State :=
  { s with con := { queue := s.con.queue, rxMap := 0 } }.wr CON_STAT.STATE conTraining

/-- A retrain fails (R421): the second in a row takes the link down, else it is tried again. -/
def State.retrainFails (s : State) : State :=
  let fails := s.rd CON_STAT.RETRAINS + 1
  if 2 ≤ fails then s.conDropTo conDown downRetrain else (s.wr CON_STAT.RETRAINS fails).conRetrainNow

/-- Nibble `b` of a spare field (R432), and the field with that nibble replaced. -/
def spareOf (v b : Nat) : Nat := bits v (4 * b) 4
def setSpare (v b x : Nat) : Nat := v - spareOf v b * 2 ^ (4 * b) + x % 16 * 2 ^ (4 * b)

/-- Spare use of a bundle after its lanes were examined (R407 step 3): none where the bundle is left out for fewer than 8 good
lanes of 9. A swap is kept unless another data lane has failed (R423). -/
def laneChoice (good was : Nat) : Option Nat :=
  let failed := (List.range 8).filter fun l => !bit good l
  if ((List.range 9).filter fun l => bit good l).length < 8 then none
  else match failed with
    | [] => some was
    | l :: _ => some l

/-- The bundles kept of three, and their spare use, from the good lanes of each. -/
def keptBundles (good : List Nat) (was : Nat) : Nat × Nat :=
  (List.range 3).foldl (fun (r : Nat × Nat) b =>
    match laneChoice (good.getD b 0) (spareOf was b) with
    | none => (r.1, setSpare r.2 b 0xF)
    | some x => (r.1 + 2 ^ b, setSpare r.2 b x)) (0, was)

/-- The link is UP: after KEYING everything that waits is sent, after a retrain the transmitter replays from the SEQ that the
partner expects (R407 step 8). -/
def State.conUpNow (s : State) (retrain : Bool) : State :=
  let s := s.wr CON_STAT.STATE conUp
  if retrain then
    let s := { s with con := { s.con with replaying := some 0 } }
    (if s.con.unacked.isEmpty then s else s.resend).flow
  else { s with con := { s.con with keyed := true, txCount := 0 } }.relink

/-- LINKEN is set: training starts. It has no effect while LINKEN is 1 (R406). -/
def State.askLinkOn (s : State) : State :=
  if s.on CON_CTL.LINKEN then s else (s.put CON_CTL.LINKEN true).startLink

/-- LINKEN is cleared: the link goes down at once and is left in OFF (R406). -/
def State.askLinkOff (s : State) : State :=
  if s.on CON_CTL.LINKEN then (s.put CON_CTL.LINKEN false).conDropTo conOff downLinken else s

/-- A retrain is asked for: ignored unless the link is UP (R420). -/
def State.askRetrain (s : State) : State := if s.linkUp then s.conRetrainNow else s

/-- The link is taken down with cause SOFTWARE (R430). One that is OFF or DOWN stays as it is (DEDUCED). -/
def State.askLinkDown (s : State) : State :=
  let st := s.rd CON_STAT.STATE
  if st = conOff ∨ st = conDown then s else s.conDropTo conDown downSoftware

/-- The dropped bundles of a mask are to train in the background (R424). -/
def State.askReadd (s : State) (mask : Nat) : State :=
  let asked := (List.range 3).filter fun b => bit mask b && !bit (s.rd CON_STAT.BUNDLES) b
  if s.linkUp then { s with con := { s.con with readding := asked.foldl NSet.add s.con.readding } } else s

/-- CON_CTL_LINKEN (R406): a write of 1 to CON_CTL.LINKEN. -/
def execConCtlLinken (s : State) : Host.Outcome State Fault Refusal := s.askLinkOn.done

/-- CON_CTL_LINKEN_OFF (R406): a write of 0 to CON_CTL.LINKEN. -/
def execConCtlLinkenOff (s : State) : Host.Outcome State Fault Refusal := s.askLinkOff.done

/-- CON_CTL_RETRAIN (R420). -/
def execConCtlRetrain (s : State) : Host.Outcome State Fault Refusal := s.askRetrain.done

/-- CON_CTL_DOWN (R430). -/
def execConCtlDown (s : State) : Host.Outcome State Fault Refusal := s.askLinkDown.done

/-- CON_CTL_READD (R424). -/
def execConCtlReadd (mask : Nat) (s : State) : Host.Outcome State Fault Refusal := (s.askReadd mask).done

/-- A bundle is in use again, its spare unused. -/
def State.addBundle (s : State) (bundle : Nat) : State :=
  let s := { s with con := { s.con with readding := s.con.readding.remove bundle } }
  let spares := setSpare (s.rd CON_STAT.TXSPARE) bundle 0xF
  (s.wr CON_STAT.BUNDLES (setBit (s.rd CON_STAT.BUNDLES) bundle true)).wr CON_STAT.TXSPARE spares

/-- BUNDLE_READD_END (R424): a bundle that trained in the background is added through BMAP. -/
def execBundleReaddEnd (bundle : Nat) (s : State) : Host.Outcome State Fault Refusal :=
  if s.linkUp && s.con.readding.has bundle then
    (s.addBundle bundle).done
  else s.done

/-- TRAINING_RETRY (R406): the 100 ms timer of a link in DOWN. In OVERCAST and NIGHT the link makes no retries (R550, R552). -/
def execTrainingRetry (s : State) : Host.Outcome State Fault Refusal :=
  if s.rd CON_STAT.STATE == conDown && s.on CON_CTL.LINKEN && decide (s.rd PWR_STAT.STATE < 2) then
    s.startLink.done
  else s.done

/-- The number of a training step (R407). -/
def stepNumber : ConStep → Nat
  | .lock => 2 | .marker _ _ => 3 | .align => 4 | .deskew => 5 | .init _ => 6

/-- The bundles kept in each direction, with their spare use; without one the link is down. -/
def State.keepBundles (s : State) (rx tx : Nat × Nat) : State :=
  if rx.1 = 0 ∨ tx.1 = 0 then s.conDropTo conDown downNoBundle
  else
    let s := { s with con := { s.con with rxMap := rx.1, swapAsked := [], readding := [] } }
    ((s.wr CON_STAT.BUNDLES tx.1).wr CON_STAT.RXSPARE rx.2).wr CON_STAT.TXSPARE tx.2

/-- The partner's credits are taken; after a retrain the link is up, else the keys are exchanged. -/
def State.takeInit (s : State) (h : RxHead) (retrain : Bool) : State :=
  let s := { s with con := { s.con with creditMW := h.crMW, creditRS := h.crRS, creditCT := h.crCT } }
  if retrain then (s.ackUpTo ((h.seq + 4095) % 4096)).conUpNow true
  else
    let s := { s with con := { s.con with txSeq := 0, rxSeq := 0 } }.wr CON_STAT.STATE conKeying
    s.sendSeq .keyx

/-- CONTRAIL_TRAINING_STEP (R407): the next step of an initial training or a retrain ends. -/
def execContrailTrainingStep (t : ConStep) (s : State) : Host.Outcome State Fault Refusal :=
  let st := s.rd CON_STAT.STATE
  let retrain := st == conRetrain
  if (st ≠ conTraining ∧ st ≠ conRetrain) ∨ stepNumber t ≠ max 1 s.con.trainStep + 1 then s.done
  else
    let s := { s with con := { s.con with trainStep := stepNumber t } }
    match t with
    | .marker rx tx => (s.keepBundles (keptBundles rx (s.rd CON_STAT.RXSPARE)) (keptBundles tx (s.rd CON_STAT.TXSPARE))).done
    | .init h => (s.takeInit h retrain).done
    | .lock | .align | .deskew => s.done

/-! ### Codewords (R408–R410, R418, R423, R424, R426) -/

/-- A packet whose CRC or tag fails (R418, R426). -/
def State.badPacket (s : State) : BadPacket → State
  | .crc => (s.inc CON_ERRCNT.CRCFAIL).nakOnce
  | .tag =>
    let s := (s.inc CON_ERRCNT.AUTH).nakOnce
    let n := s.con.tagRun + 1
    let s := { s with con := { s.con with tagRun := n } }
    if 4 ≤ n then (s.conDropTo conDown downAuth).raise srcConAuth else s

/-- The partner's header drops a bundle (R409, R424), or its SWAP completes the swap that was asked for (R423). -/
def State.codewordHead (s : State) (bundle : Nat) (c : Codeword) : State :=
  let gone := (List.range 3).filter fun b => bit s.con.rxMap b && !bit c.bmap b
  let s := gone.foldl (fun s _ => (s.inc CON_ERRCNT2.DROPS).raise srcConLane) s
  let s := { s with con := { s.con with rxMap := c.bmap } }
  match c.swap, s.con.swapAsked.find bundle with
  | true, some lane =>
    let s := { s with con := { s.con with swapAsked := s.con.swapAsked.erase bundle } }
    ((s.wr CON_STAT.RXSPARE (setSpare (s.rd CON_STAT.RXSPARE) bundle lane)).inc CON_ERRCNT2.SWAPS).raise srcConLane
  | _, _ => s

/-- CODEWORD (R408–R410): a codeword of a bundle is decoded. The good packets that end in it are commands of their own. -/
def execCodeword (bundle : Nat) (c : Codeword) (s : State) : Host.Outcome State Fault Refusal :=
  if !(s.linkUp || s.rd CON_STAT.STATE == conKeying) then s.done
  else
    match c.corrected with
    | none => ((s.inc CON_ERRCNT2.UNCORRCW).event Ev.conUncorrectable 0).done
    | some n =>
      let s := (s.addAt CON_FECCORR.CORRECTED 0 n).occur Ev.conCorrected bundle n none
      (c.bad.foldl State.badPacket (s.codewordHead bundle c)).done

/-! ### Packets (R412–R415) -/

/-- Apply a line of an RSW packet to a page whose REFETCH runs (R311): a DIRTY line keeps its own data, the bytes of a PARTIAL
one go over the line that arrives. -/
def State.refetchLine (s : State) (l : MirrorLine) : State :=
  match s.cirLine l.line with
  | some x =>
    if x.state = .dirty then s
    else if x.state = .partly then
      s.applyMirror { l with data := l.data.merge x.data x.bvm, poison := l.poison || x.poison } true
    else s.applyMirror l true
  | none => s.applyMirror l true

/-- The answer of a FETCH (R453): reads that wait are answered, and the line is written as the partner has it. A poisoned copy
leaves the line poisoned. While a later change of this member waits for its acknowledgement, the line is asked for again
(DEDUCED). A line of a frozen channel is filled and not rewritten. -/
def State.fetchAnswer (s : State) (l : MirrorLine) : State :=
  let mine := s.pair.fetches.filter fun f => f.line == l.line
  let s := { s with pair := { s.pair with fetches := s.pair.fetches.filter fun f => f.line != l.line } }
  if s.pair.journal.any fun e => e.line == l.line then
    { s with pair := { s.pair with fetchQueue := s.pair.fetchQueue ++ mine } }
  else
    let reads := (mine.filterMap fun f => f.req).filterMap fun id => s.req id
    if l.poison then
      let s := s.inc PAR_ERRCNT.PEERFAIL
      reads.foldl State.completePoison s
    else
      let fixed := (mine.filterMap fun f => f.overlay).foldl (fun (d : Line) o => d.merge o.1 o.2) l.data
      let s := ((s.inc PAR_ERRCNT.PEERFIX).raise srcParPeerFix).event Ev.linesFetched 0
      let away := match s.locationChannel (s.entry (l.line / 64)).loc with
        | some c => !s.serving c
        | none => false
      let s := if away then
          if (s.cirLine l.line).isSome then s else s.cirFill l.line fixed false .next
        else s.applyMirror { l with data := fixed } true
      reads.foldl (fun s r => s.complete r fixed false outFetched) s

/-- A line of an RSW packet. -/
def State.resyncLine (s : State) (l : MirrorLine) : State :=
  if s.pair.fetches.any fun f => f.line == l.line then s.fetchAnswer l
  else if s.refetching (l.line / 64) then s.refetchLine l
  else s.applyMirror l true

/-- Mirrored lines are applied and will be acknowledged. -/
def State.takeMirrored (s : State) (jseq : Nat) (lines : List MirrorLine) : State :=
  let s := lines.foldl (fun s l => s.applyMirror l false) (s.takeUnits masterMirrorIn lines.length)
  { s with pair := { s.pair with lastApplied := (jseq + lines.length + 2 ^ 32 - 1) % 2 ^ 32, mirackDue := true } }

/-- MW (R414, R415): its lines go into Cirrus as MIRROR_IN. -/
def execMw (h : RxHead) (jseq : Nat) (lines : List MirrorLine) (s : State) : Host.Outcome State Fault Refusal :=
  match s.acceptSeq h .mw (Packet.mw jseq lines).credits with
  | (false, s) => s.done
  | (true, s) =>
    (s.takeMirrored jseq lines).done

/-- RSW (R415, R452): its lines are applied as RESYNC. -/
def execRsw (h : RxHead) (lines : List MirrorLine) (s : State) : Host.Outcome State Fault Refusal :=
  match s.acceptSeq h .rs (Packet.rsw lines).credits with
  | (false, s) => s.done
  | (true, s) => (lines.foldl State.resyncLine (s.takeUnits masterResync lines.length)).done

/-- A stream holds its END frame (R203). -/
def streamComplete (isSealed : Bool) (bs : List Byte) : Nat → Bool
  | 0 => false
  | fuel + 1 =>
    match readFrame isSealed bs with
    | .bad => false
    | .fin _ _ => true
    | .record size _ _ _ => streamComplete isSealed (bs.drop size) fuel

/-- Bytes of a stream reach a receive slot (R201). -/
def State.takeStream (s : State) (slot have' offset : Nat) (bytes : List Byte) : State :=
  let new := bytes.drop (have' - offset)
  let s := (s.takeUnits masterSnapx (ceilDiv new.length 64)).onSlot slot fun x => { x with stream := x.stream ++ new }
  let all := (s.slot slot).stream
  let isSealed := bit (ofBytes (all.take 8)) 16
  let s := s.wrAt SNP_BYTES.BYTES slot (all.length % 2 ^ 48)
  let s := if streamComplete isSealed (all.drop 64) all.length then s.wrAt SNP_STATUS.STATE slot slotDone else s
  (s.slotUse slot).checkReserve slot

/-- STREAM (R201, R415): bytes are staged in the receive slot; those at offsets already received are discarded. The slot is
DONE when END has arrived. -/
def execStream (h : RxHead) (slot offset : Nat) (bytes : List Byte) (s : State) : Host.Outcome State Fault Refusal :=
  match s.acceptSeq h .rs (Packet.stream slot offset bytes).credits with
  | (false, s) => s.done
  | (true, s) =>
    let x := s.slot slot
    let have' := x.stream.length
    if !x.receive || s.slotState slot != slotDraining || decide (have' < offset) then s.done
    else
      (s.takeStream slot have' offset bytes).done

/-- KEYX (R425): in KEYING, Zenith may send a message in `reply`; `last` ends KEYING on this member. Outside KEYING it is
discarded and counted. -/
def execKeyx (h : RxHead) (reply last : Bool) (s : State) : Host.Outcome State Fault Refusal :=
  if s.rd CON_STAT.STATE ≠ conKeying then (if s.linkUp then (s.inc CON_ERRCNT.AUTH).done else s.done)
  else
    match s.acceptSeq h .ct (Packet.keyx).credits with
    | (false, s) => s.done
    | (true, s) =>
      let s := if reply then s.sendSeq .keyx else s
      if last then (s.conUpNow false).done else s.done

/-- ACK (R418, R419): its head acknowledges, and asks for a replay where NAK is set. -/
def execAck (h : RxHead) (s : State) : Host.Outcome State Fault Refusal :=
  if s.linkUp || s.rd CON_STAT.STATE == conKeying then (s.takeHead h).done else s.done

/-- A heartbeat arrives (R428, R454). -/
def State.takeHb (s : State) (h : RxHead) (peer epoch : Nat) : State :=
  let s := ((s.takeHead h).put CON_STAT.HBOK true).wr PAR_STAT.PEERSTATE peer
  let s := (s.meetEpoch epoch (some peer)).tryResync peer epoch
  let s := if s.pairState == pairJoining && s.on PAR_STAT.ROLE && peer == pairMirrored then s.pairEnter pairMirrored
    else s
  s.resyncEnd

/-- HB (R428, R439, R454, R455): the partner's timestamp, pair state and fence epoch. -/
def execHb (h : RxHead) (_ts peer epoch : Nat) (s : State) : Host.Outcome State Fault Refusal :=
  if !(s.linkUp || s.rd CON_STAT.STATE == conKeying) then s.done
  else
    (s.takeHb h peer epoch).done

/-- The transmitter drops a bundle. -/
def State.dropTxBundle (s : State) (bundle : Nat) : State :=
  ((s.wr CON_STAT.BUNDLES (setBit (s.rd CON_STAT.BUNDLES) bundle false)).inc CON_ERRCNT2.DROPS).raise srcConLane

/-- The transmitter swaps a lane of a bundle for its spare. -/
def State.useSpare (s : State) (bundle lane : Nat) : State :=
  ((s.wr CON_STAT.TXSPARE (setSpare (s.rd CON_STAT.TXSPARE) bundle lane)).inc CON_ERRCNT2.SWAPS).raise srcConLane

/-- LANE (R412, R423, R424): the partner asks this transmitter to swap a lane for the spare, or to drop a bundle. The last
bundle is not dropped: the link retrains. -/
def execLane (h : RxHead) (bundle lane : Nat) (drop : Bool) (s : State) : Host.Outcome State Fault Refusal :=
  if !s.linkUp then s.done
  else
    let s := s.takeHead h
    let map := s.rd CON_STAT.BUNDLES
    if !bit map bundle then s.done
    else if drop then
      if map = 2 ^ bundle then s.conRetrainNow.done else (s.dropTxBundle bundle).done
    else if spareOf (s.rd CON_STAT.TXSPARE) bundle = 0xF then (s.useSpare bundle lane).done
    else s.done

/-- RESERVED_CTRL_MSG (R412): the packet's credits are freed and its message is discarded. -/
def execReservedCtrlMsg (h : RxHead) (bytes : Nat) (s : State) : Host.Outcome State Fault Refusal :=
  (s.acceptSeq h .ct (ceilDiv (36 + bytes) 64)).2.done

/-! ### Timers (R414, R418, R419, R421, R426, R428) -/

/-- REPLAY_TIMEOUT (R419): REPLAY_TO has passed without acknowledgement progress. -/
def execReplayTimeout (s : State) : Host.Outcome State Fault Refusal :=
  if s.linkUp && !s.con.unacked.isEmpty then s.replay.done else s.done

/-- RETRAIN_TIMEOUT (R421): a retrain has not reached UP within 1 ms. -/
def execRetrainTimeout (s : State) : Host.Outcome State Fault Refusal :=
  if s.rd CON_STAT.STATE = conRetrain then s.retrainFails.done else s.done

/-- KEYING_TIMEOUT (R426): KEYING has not completed within 100 ms. -/
def execKeyingTimeout (s : State) : Host.Outcome State Fault Refusal :=
  if s.rd CON_STAT.STATE = conKeying then ((s.conDropTo conDown downAuth).raise srcConAuth).done else s.done

/-- ACK_TIMER (R418): 100 ns have passed since the oldest packet that is accepted and not acknowledged. -/
def execAckTimer (s : State) : Host.Outcome State Fault Refusal :=
  if s.linkUp && decide (0 < s.con.accepted) then (s.sendAck false).done else s.done

/-- MW_PACKET_CLOSE (R414): PKTWAIT has passed since the first line of the MW packet that is being filled. -/
def execMwPacketClose (s : State) : Host.Outcome State Fault Refusal := s.closeMW.done

/-- HB_SEND (R428): every 10 µs while the link is UP and the Zenith watchdog is satisfied. -/
def execHbSend (s : State) : Host.Outcome State Fault Refusal :=
  if s.linkUp && s.heartGood then (s.sendPlain (.hb s.stamp s.pairState (s.rd PAR_EPOCH.CUR))).done else s.done

/-- CON_HB_LOST (R428): no heartbeat for HBMISS intervals. -/
def execConHbLost (s : State) : Host.Outcome State Fault Refusal :=
  if s.linkUp then ((s.put CON_STAT.HBOK false).raise srcConHbLost).done else s.done

/-! ### Lanes and bundles (R423, R424) -/

/-- This receiver asks for a bundle to be dropped; the request wins over a swap that is pending. -/
def State.askDrop (s : State) (bundle : Nat) : State :=
  { s with con := { s.con with swapAsked := s.con.swapAsked.erase bundle } }.sendPlain (.lane bundle 0 1)

/-- This receiver asks for a swap. -/
def State.askSwap (s : State) (bundle lane : Nat) : State :=
  { s with con := { s.con with swapAsked := s.con.swapAsked.put bundle lane } }.sendPlain (.lane bundle lane 0)

/-- The spare of a receive bundle can replace a lane: it is unused and locked, and no swap is pending. -/
def State.spareFree (s : State) (bundle : Nat) (locked : Bool) : Bool :=
  locked && spareOf (s.rd CON_STAT.RXSPARE) bundle == 0xF && (s.con.swapAsked.find bundle).isNone

/-- LANE_SWAP_REQUEST (R423): the corrected symbols of a data lane exceed SWAPTHR. -/
def execLaneSwapRequest (bundle lane : Nat) (spareLocked : Bool) (s : State) : Host.Outcome State Fault Refusal :=
  if s.linkUp && bit s.con.rxMap bundle && s.spareFree bundle spareLocked then (s.askSwap bundle lane).done else s.done

/-- LANE_LOCK_LOSS (R423, R424): a data lane loses lock: its bundle is dropped where the spare cannot replace it. -/
def execLaneLockLoss (bundle lane : Nat) (spareLocked : Bool) (s : State) : Host.Outcome State Fault Refusal :=
  if s.linkUp && bit s.con.rxMap bundle then
    if s.spareFree bundle spareLocked then (s.askSwap bundle lane).done else (s.askDrop bundle).done
  else s.done

/-- SWAP_REQUEST_REPEAT (R423): every 1 µs until SWAP is seen on the bundle. -/
def execSwapRequestRepeat (bundle : Nat) (s : State) : Host.Outcome State Fault Refusal :=
  match s.con.swapAsked.find bundle with
  | some lane => if s.linkUp then (s.sendPlain (.lane bundle lane 0)).done else s.done
  | none => s.done

/-- BUNDLE_DROP_REQUEST (R424): uncorrectable codewords beyond DROPTHR, or codeword alignment lost. -/
def execBundleDropRequest (bundle : Nat) (s : State) : Host.Outcome State Fault Refusal :=
  if s.linkUp && bit s.con.rxMap bundle then (s.askDrop bundle).done else s.done

/-! ### Key renewal (R413, R427) -/

/-- The receiver has the new key of a phase beside the old one, and acknowledges. -/
def State.renewRx (s : State) (phase direction : Nat) : State :=
  { s with con := { s.con with oldRxKey := true, rxPhase := phase } }.ctrl (.keyRenewAck phase direction)

/-- KEYRENEW: the new key of the partner's direction is derived; the old one is kept until a packet under the new phase
verifies. -/
def execKeyrenew (h : RxHead) (phase direction : Nat) (s : State) : Host.Outcome State Fault Refusal :=
  match s.acceptSeq h .ct (CtrlMsg.keyRenew phase direction |> Packet.ctrl).credits with
  | (false, s) => s.done
  | (true, s) =>
    (s.renewRx phase direction).done

/-- The transmitter switches to the key of a phase. -/
def State.switchKey (s : State) (phase : Nat) : State :=
  { s with con := { s.con with renewing := false, txCount := 0 } }.wr CON_STAT.KEYPHASE phase

/-- KEYRENEWACK: the sender switches to the new key, whose transmit count starts at 0 (R425). -/
def execKeyrenewack (h : RxHead) (phase direction : Nat) (s : State) : Host.Outcome State Fault Refusal :=
  match s.acceptSeq h .ct (CtrlMsg.keyRenewAck phase direction |> Packet.ctrl).credits with
  | (false, s) => s.done
  | (true, s) =>
    if s.con.renewing && phase == 1 - s.rd CON_STAT.KEYPHASE then
      (s.switchKey phase).done
    else s.done

/-- The renewal of this direction's key is asked for. -/
def State.askRenewal (s : State) : State :=
  { s with con := { s.con with renewing := true } }.ctrl (.keyRenew (1 - s.rd CON_STAT.KEYPHASE) s.pairId)

/-- KEY_RENEWAL (R427): after 2^32 packets in this direction Zenith renews its key. -/
def execKeyRenewal (s : State) : Host.Outcome State Fault Refusal :=
  if s.linkUp && !s.con.renewing && decide (2 ^ 32 ≤ s.con.txCount) then
    s.askRenewal.done
  else s.done

end Sys2Proof.Machine
end

