-- ==== Sys2Proof/Machine/Engines.lean ====
section
/-! DEFINITION. The engines (16_engines_and_worlds.md): core control registers (R481), EPA regions (R470), stage 2 (R472),
stage 1 (R473–R476), TLBs and fixed windows (R477–R479), crossing between the worlds (R482, R483), halting, firmware
images (R489). -/

namespace Sys2Proof.Machine

/-- Fault sources of R491. -/
def srcLockstep : Nat := 104
def srcWalkFault : Nat := 105
def srcS2Fault : Nat := 106
def srcZwdog : Nat := 107
def srcEngMemUe : Nat := 108
def srcHoldRefused : Nat := 109
def srcBoot : Nat := 110
def srcCoreHalt : Nat := 111

/-- The number of the steward pair in the table of cores; the others are 0–45. -/
def steward : Nat := 46

/-- A core executes: it is running, or is the steward pair with Zenith up, and is not halted. -/
def State.coreRuns (s : State) (n : Nat) : Bool :=
  if n = steward then s.on ENG_STAT.ZENITH_UP && !s.chip.stewardHalt
  else decide (n < 46) && bit (s.rd ENG_STAT.CORES) n && !(s.core n).halted

/-- HORIZON_UP follows the service cores (R492). -/
def State.horizonStatus (s : State) : State :=
  s.put ENG_STAT.HORIZON_UP (bits (s.rd ENG_STAT.CORES) 0 6 != 0)

/-- Set whether a core runs. -/
def State.setRunning (s : State) (n : Nat) (b : Bool) : State :=
  (s.wr ENG_STAT.CORES (setBit (s.rd ENG_STAT.CORES) n b)).horizonStatus

/-! ### Core control registers (R481) -/

/-- CORE_PTROOT. -/
def corePtroot : Nat := 0x010

/-- CORE_FWk_VA and CORE_FWk_IPA. -/
def coreFwVa (k : Nat) : Nat := 0x020 + 0x10 * k
def coreFwIpa (k : Nat) : Nat := 0x028 + 0x10 * k

/-- The register's writable bits, kept from a value; none for a number that stores nothing. -/
def coreStore (n v : Nat) : Option Nat :=
  if n = corePtroot then some (bits v 11 45 * 2 ^ 11)
  else if n = 0x020 ∨ n = 0x030 ∨ n = 0x040 ∨ n = 0x050 then some (bits v 0 5 + bits v 12 52 * 2 ^ 12)
  else if n = 0x028 ∨ n = 0x038 ∨ n = 0x048 ∨ n = 0x058 then some (bits v 12 36 * 2 ^ 12)
  else if n = mupDpn then some (bits v 0 33)
  else if n = mupExpect then some (bits v 0 8)
  else if n = mupFields then some (bits v 0 30)
  else if n = mupLoc then some (bits v 0 64)
  else none

/-- The register belongs to the map update port. -/
def isMup (n : Nat) : Bool := n == mupDpn || n == mupExpect || n == mupFields || n == mupLoc

/-- The port waits for its result. -/
def Core.portBusy (c : Core) : Bool := bits ((c.ctl.find mupResult).getD 0) 0 3 == busyPort

/-- A move to a control register. The steward cores have only the registers of the map update port. -/
def Core.move (n : Nat) (c : Core) (m : Nat × Nat) : Core :=
  if (isMup m.1 && c.portBusy) || (n == steward && !isMup m.1) then c
  else
    match coreStore m.1 m.2 with
    | none => c
    | some v => { c with ctl := c.ctl.set 0 m.1 v }

/-- An 8-byte store to the general part of engine SRAM. -/
def State.sramStore (s : State) (x : Nat × Nat) : State :=
  if 0x10200000 ≤ x.1 ∧ x.1 < 0x11000000 ∧ x.1 % 8 = 0 then
    { s with eng := { s.eng with sram := s.eng.sram.set 0 (x.1 / 8) (x.2 % 2 ^ 64) } }
  else s

/-- What a core's instructions have done takes effect. A move at U raises an exception at S instead (R481). -/
def State.doWork (s : State) (n : Nat) (w : CoreWork) : State :=
  if !s.coreRuns n then s
  else
    let s := w.stores.foldl State.sramStore s
    let c := s.core n
    let low := if w.user then Level.user else Level.supervisor
    let c := { c with level := if n = steward then .hypervisor else if c.level = .hypervisor then .hypervisor else low
                      pc := w.pc, flags := w.flags, stop := none
                      regs := w.regs.foldl (fun t (r : Nat × Nat) => if r.1 < 32 then t.set 0 r.1 r.2 else t) c.regs }
    let c := if w.moves.isEmpty then c
      else if c.level = .user then { c with level := .supervisor, stop := some .illegal }
      else w.moves.foldl (Core.move n) c
    s.setCore n c

/-! ### Stops, entries to H and halts (R472, R474, R482, R483) -/

/-- An exception at S. -/
def State.toSupervisor (s : State) (n : Nat) (why : CoreStop) : State :=
  s.setCore n { s.core n with level := .supervisor, stop := some why }

/-- An asynchronous entry to H: the registers, the flags, the PC and the level are saved (R483). -/
def State.enterH (s : State) (n : Nat) (why : CoreStop) : State :=
  let c := s.core n
  if c.level = .hypervisor then s.setCore n { c with stop := some why }
  else
    (s.setCore n { c with level := .hypervisor, saved := some ⟨c.pc, c.level, c.regs, c.flags⟩, stop := some why }).event
      Ev.asyncEntries 0

/-- A data abort. -/
def State.abortCore (s : State) (n cause : Nat) : State := s.setCore n { s.core n with stop := some (.abort cause) }

/-- Drift programs run while some drift engine does. -/
def State.driftStatus (s : State) : State :=
  { s with plc := { s.plc with drift := s.plc.drift && bits (s.rd ENG_STAT.CORES) 6 40 != 0 } }

/-- A core halts (R472, R474). -/
def State.haltCore (s : State) (n : Nat) : State :=
  let s := s.setCore n { s.core n with halted := true }
  ((s.setRunning n false).driftStatus).raiseFor srcCoreHalt n

/-- A stage-2 fault: counted, raised, trapped to H with the IPA and the cause; Zenith halts the core (R472). -/
def State.stage2Fault (s : State) (n ipa cause : Nat) : State :=
  let s := ((s.inc ENG_ERRCNT.S2).raise srcS2Fault).event Ev.stage2Faults 0
  (s.enterH n (.stage2 ipa cause)).haltCore n

/-! ### Regions and stage 2 (R470, R472) -/

/-- The regions of the EPA space: those reachable at S and U, those of H, holes. -/
inductive Region where
  | general | registers | dpa | hOnly | hole
  deriving DecidableEq, Repr

/-- The region of an EPA. -/
def regionOf (epa : Nat) : Region :=
  if epa < 0x40000 then .hOnly
  else if 0x10000000 ≤ epa ∧ epa < 0x10200000 then .hOnly
  else if 0x10200000 ≤ epa ∧ epa < 0x11000000 then .general
  else if 0x20000000 ≤ epa ∧ epa < 0x20010000 then .hOnly
  else if 0x40000000 ≤ epa ∧ epa < 0x50000000 then .registers
  else if 0x50000000 ≤ epa ∧ epa < 0x60000000 then .hOnly
  else if 0x80000000 ≤ epa ∧ epa < 0x90000000 then .hOnly
  else if 0x400000000000 ≤ epa ∧ epa < 0x500000000000 then .hOnly
  else if 0x800000000000 ≤ epa ∧ epa < 0xA00000000000 then .dpa
  else .hole

/-- The region may be reached at S and U. -/
def Region.reachable : Region → Bool
  | .general | .registers | .dpa => true
  | .hOnly | .hole => false

/-- Base of the DPA window. -/
def dpaWindow : Nat := 0x800000000000

/-- The EPA holds stage-1 tables: general SRAM, or the DPA window in an unsealed claim. -/
def State.holdsTables (s : State) (epa : Nat) : Bool :=
  match regionOf epa with
  | .general => true
  | .dpa =>
    match s.claimOf (epa - dpaWindow) with
    | some c => !s.onAt MAP_CLAIMATTR.SEALED c
    | none => false
  | .registers | .hOnly | .hole => false

/-- EPA of an IPA in window `w` of core `n`. -/
def State.windowEpa (s : State) (n w ipa : Nat) : Nat :=
  s.rdAt ENG_S2MAP.EPA (n * 8 + w) * 4096 + (ipa - s.rdAt ENG_S2BASE.IPA (n * 8 + w) * 4096)

/-- A window of a core maps an IPA; what would pass 2^48 does not match. -/
def State.inWindow (s : State) (n ipa w : Nat) : Bool :=
  let k := n * 8 + w
  let base := s.rdAt ENG_S2BASE.IPA k * 4096
  s.onAt ENG_S2MAP.EN k && decide (base ≤ ipa) && decide (ipa < base + s.rdAt ENG_S2SIZE.PAGES k * 4096) &&
    decide (ipa < 2 ^ 48) && decide (s.windowEpa n w ipa < 2 ^ 48)

/-- The window of an IPA: the lowest-numbered that matches. -/
def State.windowOf (s : State) (n ipa : Nat) : Option Nat := (List.range 8).find? (s.inWindow n ipa)

/-- The stage-2 right that an access needs. -/
def accessRight2 : CoreAccess → Fld
  | .fetch => ENG_S2MAP.X
  | .load => ENG_S2MAP.R
  | .store => ENG_S2MAP.W

/-- Stage 2: the EPA, or the cause of the fault: 0 no window, 1 no right, 2 region. -/
def State.stage2 (s : State) (n ipa : Nat) (a : CoreAccess) : Except Nat Nat :=
  match s.windowOf n ipa with
  | none => .error 0
  | some w =>
    if !s.onAt (accessRight2 a) (n * 8 + w) then .error 1
    else if (regionOf (s.windowEpa n w ipa)).reachable then .ok (s.windowEpa n w ipa)
    else .error 2

/-! ### The walk (R473, R474) -/

/-- Index into the table of a level. -/
def tableIndex (va : Nat) : Nat → Nat
  | 0 => bits va 32 8
  | 1 => bits va 22 10
  | _ => bits va 12 10

/-- Reserved bits of an entry are not 0. -/
def reservedSet (d : Nat) : Nat → Bool
  | 0 | 1 => bits d 1 12 != 0 || bits d 48 16 != 0
  | _ => bits d 1 11 != 0 || bits d 48 8 != 0 || bits d 61 3 != 0

/-- What reading a table entry gives; `waits` while the pair's partner is asked for the line. -/
inductive EntryRead where
  | word (d : Nat)
  | bad
  | waits
  deriving DecidableEq, Repr

/-- Read 8 bytes at an EPA. `finds` gives what the reads of engine SRAM find, by EPA. -/
def State.readEntry (s : State) (epa : Nat) (finds : List (Nat × Ecc)) (fs : Finds) : EntryRead × State :=
  if epa < dpaWindow then
    let d := (s.eng.sram.find (epa / 8)).getD 0
    match (finds.find? fun f => f.1 == epa).map Prod.snd with
    | some .uncorrectable => (.bad, s)
    | some (.corrected _) => (.word d, s.inc ENG_ERRCNT.MEMCE)
    | some .clean | none => (.word d, s)
  else
    match (s.takeUnits masterService 1).deviceRead ((epa - dpaWindow) / 64) fs with
    | (some (l, false), s) => (.word (l.toNat >>> (epa % 64 * 8) % 2 ^ 64), s)
    | (some (_, true), s) => (.bad, s)
    | (none, s) => (.waits, s)

/-- How a walk ends: the leaf, a translation fault, a walk fault (0 REGION, 1 RESERVED, 2 MEDIA), a stage-2 fault on a
table address. -/
inductive WalkEnd where
  | leaf (d : Nat)
  | translation (level : Nat)
  | fault (kind level ipa : Nat)
  | stage2 (cause level ipa : Nat)
  | waits
  deriving DecidableEq, Repr

/-- Walk the levels that remain from the table at `t`; `d` is the entry read last. -/
def State.walk (s : State) (n va : Nat) (finds : List (Nat × Ecc)) (fs : Finds) :
    List Nat → Nat → Nat → WalkEnd × State
  | [], _, d => (.leaf d, s)
  | l :: ls, t, _ =>
    let a := t + 8 * tableIndex va l
    match s.stage2 n a .load with
    | .error c => (.stage2 c l a, s)
    | .ok p =>
      if !s.holdsTables p then (.fault 0 l a, s)
      else
        match s.readEntry p finds fs with
        | (.waits, s) => (.waits, s)
        | (.bad, s) => (.fault 2 l a, s)
        | (.word d, s) =>
          if !bit d 0 then (.translation l, s)
          else if reservedSet d l then (.fault 1 l a, s)
          else s.walk n va finds fs ls (bits d 13 35 * 2 ^ 13) d

/-- Record a fault in ENG_WALKLOG while it holds none (R497). Kinds: 0 REGION, 1 RESERVED, 2 MEDIA, 3 STAGE2. -/
def State.walkLog (s : State) (n kind level ipa : Nat) (fetch : Bool) : State :=
  if s.on ENG_WALKLOG.VALID then s
  else
    ((((((s.wr ENG_WALKLOG.TS s.stamp).wr ENG_WALKLOG.CORE n).wr ENG_WALKLOG.KIND kind).wr ENG_WALKLOG.LEVEL level).put
      ENG_WALKLOG.FETCH fetch).wr ENG_WALKLOG.ADDR ipa).put ENG_WALKLOG.VALID true

/-! ### TLBs (R475–R479) -/

/-- The entry translates a page of a space. -/
def TlbEntry.hits (e : TlbEntry) (stag page : Nat) : Bool :=
  e.stag == stag && (if e.big then page / 16 == e.va / 16 else page == e.va)

/-- Set of the L2 TLB (R477); a 64 KiB entry is indexed by the first page of its group (DESIGN CHOICE). -/
def TlbEntry.set2 (e : TlbEntry) : Nat := Nat.xor (e.va % 128) (e.stag % 128)

/-- Install in the L2 TLB: 4 ways in a set, the oldest entry leaves (DESIGN CHOICE). -/
def installL2 (e : TlbEntry) (t : List TlbEntry) : List TlbEntry :=
  let (same, rest) := t.partition fun x => x.set2 == e.set2
  e :: same.take 3 ++ rest

/-- Install in the I-TLB or D-TLB: the oldest entry of a full one leaves (DESIGN CHOICE). -/
def Core.installL1 (c : Core) (a : CoreAccess) (e : TlbEntry) : Core :=
  match a with
  | .fetch => { c with itlb := (e :: c.itlb).take 16 }
  | .load | .store => { c with dtlb := (e :: c.dtlb).take 32 }

/-- The first-level TLB of an access. -/
def Core.tlb (c : Core) (a : CoreAccess) : List TlbEntry :=
  match a with
  | .fetch => c.itlb
  | .load | .store => c.dtlb

/-- What an invalidation drops (R479, R496). -/
structure TlbArg where
  scope : Nat
  stag : Nat
  addr : Nat
  deriving DecidableEq, Repr

/-- An entry matches an invalidation, one of 64 KiB that covers the page included. -/
def TlbArg.hits (x : TlbArg) (e : TlbEntry) : Bool :=
  match x.scope with
  | 0 => true
  | 1 => e.stag == x.stag
  | 2 => e.hits x.stag (x.addr % 2 ^ 28)
  | _ => if e.big then decide (e.ipa ≤ x.addr) && decide (x.addr < e.ipa + 16) else e.ipa == x.addr

/-- Drop the matching entries of a core. -/
def Core.invalidate (c : Core) (x : TlbArg) : Core :=
  { c with itlb := c.itlb.filter fun e => !x.hits e, dtlb := c.dtlb.filter fun e => !x.hits e
           ltlb := c.ltlb.filter fun e => !x.hits e }

/-- Stage 1 allows an access (R475): USR pages at U; S reads and writes them and never executes them. -/
def stage1Allows (level : Level) (a : CoreAccess) (rd wr ex usr : Bool) : Bool :=
  let right := match a with
    | .fetch => ex
    | .load => rd
    | .store => wr
  right && (match level with
    | .user => usr
    | .supervisor => !(usr && a == .fetch)
    | .hypervisor => true)

/-- The entry that a walked leaf installs: of 64 KiB when RUN16 is set and the whole IPA range lies in one window (R476). -/
def State.leafEntry (s : State) (n stag va d w : Nat) : TlbEntry :=
  let page := bits d 12 36
  let k := n * 8 + w
  let big := bit d 60 && ((List.range 16).all fun i =>
    s.windowOf n ((page / 16 * 16 + i) * 4096) == some w &&
      (regionOf (s.windowEpa n w ((page / 16 * 16 + i) * 4096))).reachable)
  let down := fun (p : Nat) => if big then p / 16 * 16 else p
  { stag := stag, va := down (va / 4096), ipa := down page
    epa := s.windowEpa n w (down page * 4096) / 4096
    rd := bit d 56, wr := bit d 57, ex := bit d 58, usr := bit d 59
    rd2 := s.onAt ENG_S2MAP.R k, wr2 := s.onAt ENG_S2MAP.W k, ex2 := s.onAt ENG_S2MAP.X k, big := big }

/-- The IPA that an entry gives for a VA. -/
def TlbEntry.ipaOf (e : TlbEntry) (va : Nat) : Nat := (e.ipa + (va / 4096 - e.va)) * 4096 + va % 4096

/-- The access that an entry translates goes on, or faults at stage 1 or at stage 2. -/
def State.useEntry (s : State) (n va : Nat) (a : CoreAccess) (e : TlbEntry) : State :=
  let right2 := match a with
    | .fetch => e.ex2
    | .load => e.rd2
    | .store => e.wr2
  if !stage1Allows (s.core n).level a e.rd e.wr e.ex e.usr then s.toSupervisor n .permission
  else if !right2 then s.stage2Fault n (e.ipaOf va) 1
  else s

/-- The fixed window that a VA lies in (R477, R481). -/
def Core.fixedWindow (c : Core) (va : Nat) : Option Nat :=
  (List.range 4).find? fun k =>
    let r := (c.ctl.find (coreFwVa k)).getD 0
    let base := bits r 12 28 * 4096
    bit r 0 && decide (base ≤ va) && decide (va < base + 4096 * bits r 40 24)

/-- A leaf was walked: the access faults, or the entry is installed in both levels and used. -/
def State.useLeaf (s : State) (n va : Nat) (a : CoreAccess) (stag d : Nat) : State :=
  let ipa := bits d 12 36 * 4096 + va % 4096
  if !stage1Allows (s.core n).level a (bit d 56) (bit d 57) (bit d 58) (bit d 59) then s.toSupervisor n .permission
  else
    match s.stage2 n ipa a, s.windowOf n ipa with
    | .error c, _ => s.stage2Fault n ipa c
    | .ok _, none => s
    | .ok _, some w =>
      let e := s.leafEntry n stag va d w
      let c := s.core n
      s.setCore n ({ c with ltlb := installL2 e c.ltlb }.installL1 a e)

/-! ### Crossing between the worlds (R482, R484) -/

/-- Statuses of a world call. -/
def callOk : Nat := 0
def callUnknown : Nat := 1
def callInvalid : Nat := 2
def callRefused : Nat := 3
def callBusy : Nat := 4

/-- A core enters H for a world call, with the registers as they are (R482). -/
def State.enterCall (s : State) (n : Nat) : State :=
  let c := s.core n
  (s.setCore n { c with level := .hypervisor, call := some (c.pc, .supervisor) }).event Ev.worldCalls 0

/-- The handler of a world call leaves a status in g1 and a result in g2 (R484). -/
def State.leaveCall (s : State) (n status result : Nat) : State :=
  let c := s.core n
  s.setCore n { c with regs := (c.regs.set 0 1 status).set 0 2 result }

/-- A world call (R482, R484). At U it raises an illegal-instruction exception at S. -/
def State.worldCall (s : State) (n : Nat) (w : CoreWork) (handler : State → Nat × Nat × State) : State :=
  if !s.coreRuns n || n == steward then s
  else
    let s := s.doWork n w
    match (s.core n).level with
    | .user => s.toSupervisor n .illegal
    | .hypervisor => s
    | .supervisor =>
      let (status, result, s) := handler (s.enterCall n)
      s.leaveCall n status result

/-- Return from H (R482, R483): after a world call S gets only g1 and g2; after an asynchronous entry everything is
restored. -/
def Core.goBack (c : Core) : Core :=
  match c.saved with
  | some x => { c with level := x.level, pc := x.pc, regs := x.regs, flags := x.flags, saved := none, stop := none }
  | none =>
    match c.call with
    | some (pc, level) =>
      { c with level := level, pc := pc, regs := c.regs.filter (fun (r : Nat × Nat) => r.1 == 1 || r.1 == 2), flags := 0
               call := none }
    | none => c

/-! ### Firmware images (R489, R490) -/

/-- A field of an image's header: `n` bytes from byte `i`, little-endian. -/
def imageField (x : Image) (i n : Nat) : Nat := ofBytes ((x.header.drop i).take n)

/-- SVN, and release and build, of an image. -/
def imageSvn (x : Image) : Nat := imageField x 5 1
def imageRelease (x : Image) : Nat := imageField x 6 2

/-- The header has the form of R489 for an image of a type. -/
def imageHeaderOk (x : Image) (type : Nat) : Bool :=
  x.header.length == 384 && imageField x 0 4 == 0x71600F1E && imageField x 4 1 == type &&
    decide (imageSvn x ≤ (if type = 3 then 32 else 64)) && imageField x 8 4 == x.body.length &&
    ((x.header.drop 12).take 52).all (· == 0) && (x.header.drop 305).all (· == 0)

/-- Its digest matches. -/
def imageDigestOk (x : Image) : Bool := sha384 (x.header.take 64 ++ x.body) == (x.header.drop 64).take 48

/-- The fused SVN of a type. -/
def State.fusedSvn (s : State) (type : Nat) : Nat :=
  if type = 1 then s.rd ENG_SVN.ZFUSE else if type = 2 then s.rd ENG_SVN.HFUSE else s.rd ENG_SVN.DFUSE

/-- Why an image is rejected (R489, R492): 0 accepted, 1 HEADER, 2 DIGEST, 3 SIGNATURE, 4 KEY_HASH, 5 ROLLBACK,
6 FLASH_READ. The key of a Zenith image must have the fused hash. -/
def State.imageCause (s : State) (x : Image) (type : Nat) : Nat :=
  firstCode [
    (!x.readOk, 6),
    (!imageHeaderOk x type, 1),
    (!imageDigestOk x, 2),
    (type == 1 && ofBytesBig (sha384 ((x.header.drop 208).take 97)) != s.chip.fuses.keyHash, 4),
    (!x.sigOk, 3),
    (decide (imageSvn x < s.fusedSvn type), 5)]

/-- SVN_COMMIT (R490): the fused SVN of a type rises to that of the running image; refused where it would fall, or where no
such fuses remain. -/
def State.commitSvn (s : State) (type : Nat) : Nat × State :=
  let raise := fun (fuse run : Fld) (most : Nat) (blow : Nat → Fuses) =>
    let r := s.rd run
    if r < s.rd fuse ∨ most < r then (callRefused, s)
    else (callOk, { s with chip := { s.chip with fuses := blow r } }.wr fuse r)
  match type with
  | 1 => raise ENG_SVN.ZFUSE ENG_SVN.ZRUN 64 fun r => { s.chip.fuses with zSvn := r }
  | 2 => raise ENG_SVN.HFUSE ENG_SVN.HRUN 64 fun r => { s.chip.fuses with hSvn := r }
  | 3 => raise ENG_SVN.DFUSE ENG_SVN.DRUN 32 fun r => { s.chip.fuses with dSvn := r }
  | _ => (callInvalid, s)

end Sys2Proof.Machine
end

