-- ==== Sys2Proof/Machine/Boot.lean ====
section
/-! DEFINITION. Clocks, resets and start-up (17_clocks_reset_startup.md): cold reset (R513), the configuration area and
calibration (R507, R511, R512), firmware start (R488), DEV_ENABLE (R518, R519), warm reset (R514), block resets (R516). -/

namespace Sys2Proof.Machine

/-! ### Cold reset (R513, R524) -/

/-- Causes of RST_LAST. -/
def causePowerOn : Nat := 0
def causeSupply : Nat := 1
def causeThermtrip : Nat := 2
def causeRefclk : Nat := 3
def causePll : Nat := 4
def causeFault : Nat := 5
def causeSoftware : Nat := 6
def causeWarmFail : Nat := 7

/-- The copy in use: the valid one whose SEQ is later modulo 2^32, with its number; none where neither is valid. -/
def chosenCopy : Option ConfigCopy → Option ConfigCopy → Option (Nat × ConfigCopy)
  | none, none => none
  | some a, none => some (0, a)
  | none, some b => some (1, b)
  | some a, some b => if (b.seq + 2 ^ 32 - a.seq) % 2 ^ 32 - 1 < 2 ^ 31 - 1 ∧ a.seq ≠ b.seq then some (1, b) else some (0, a)

/-- The copy that a write of the configuration area replaces (R507): not the newest; copy 0 where neither is valid (DESIGN
CHOICE). -/
def olderCopy (a b : Option ConfigCopy) : Nat :=
  match chosenCopy a b with
  | some (k, _) => 1 - k
  | none => 0

/-- A reset cuts off writes to flash: the older copy of the configuration area is left invalid (R542), and so is a slot that was
being written (DEDUCED). -/
def Chip.cutWrite (c : Chip) (b : Background) : Chip :=
  match b.area with
  | some 2 => if b.config.isSome then (if olderCopy c.copy0 c.copy1 = 0 then { c with copy0 := none } else { c with copy1 := none })
              else c
  | some k => { c with flash := c.flash.mapIdx fun i (x : FwImage) => if i / 3 = k then { x with valid := false } else x }
  | none => c

/-- The background commands at work (R541). -/
def State.backgrounds (s : State) : List Background := s.mbx.ccis.filterMap fun e => e.2.background

/-- A cold reset: everything is at its reset value but the fuses and the flash, the levels of the PERSTp_N pins, RST_LAST
with the cause, FLT_PRIOR, and the model's own fields. The cold start follows at POWER_GOOD. -/
def State.coldReset (s : State) (cause rail source : Nat) : State :=
  let flash := s.backgrounds.foldl Chip.cutWrite s.chip
  let r : State := { State.reset with
    chip := { perstOff := s.chip.perstOff, fuses := s.chip.fuses, copy0 := flash.copy0, copy1 := flash.copy1
              training := s.chip.training, flash := flash.flash, jtag := s.chip.jtag }
    mbx := { priorDue := cause == causeFault, horizonLog := s.mbx.horizonLog }
    med := { repairList := s.med.repairList, repairLog := s.med.repairLog }
    free := s.free, out := s.out, pending := s.pending }
  let r := ((r.wr RST_LAST.CAUSE cause).wr RST_LAST.RAIL rail).wr RST_LAST.SOURCE source
  (r.wrAt FLT_PRIOR.SRC 0 (s.rdAt FLT_PRIOR.SRC 0)).wrAt FLT_PRIOR.SRC 1 (s.rdAt FLT_PRIOR.SRC 1)

/-! ### Configuration and calibration (R507, R511, R512) -/

/-- Range of an item's offset, and the limits of its applied value (R512). -/
def calRange : Nat → Int × Int
  | 0 => (-20, 0)
  | 1 => (0, 6)
  | 2 | 3 => (-2, 2)
  | 4 => (-3, 3)
  | _ => (-4, 4)

/-- Limits of an item's applied value; item 1 is the offset of the warning levels itself. -/
def calLimit : Nat → Int × Int
  | 0 => (80, 100)
  | 1 => (0, 6)
  | 2 | 3 | 4 => (0, 15)
  | 5 | 6 => (0, 31)
  | _ => (0, 15)

/-- A value moved to the nearer end of a range. -/
def clampTo (r : Int × Int) (v : Int) : Int := max r.1 (min r.2 v)

/-- The sum of an item's factory value and its offset, before the limit. -/
def calSum (f : Fuses) (offsets : List Int) (i : Nat) : Int :=
  f.cal.getD i 0 + clampTo (calRange i) (offsets.getD i 0)

/-- The applied value of an item, and whether its sum was clamped (R511). -/
def calApplied (f : Fuses) (offsets : List Int) (i : Nat) : Int × Bool :=
  let v := calSum f offsets i
  (clampTo (calLimit i) v, clampTo (calLimit i) v != v)

/-- Factory warning and reset levels of the rails in mV (R559). -/
def railWarn : List Nat := [705, 755, 705, 800, 1130, 1045, 1710]
def railReset : List Nat := [675, 720, 660, 765, 1080, 1000, 1620]

/-- Calibration is applied (R511). -/
def State.calibrate (s : State) (offsets : List Int) : State :=
  let items := (List.range 8).map (calApplied s.chip.fuses offsets)
  let s := { s with chip := { s.chip with cal := items.map Prod.fst } }
  let clamped := (List.range 8).foldl (fun n i => if ((items.map Prod.snd).getD i false) then n + 2 ^ i else n) 0
  let s := (s.wr RST_CALSTAT.CLAMPED clamped).put RST_CALSTAT.USER (!offsets.isEmpty)
  let step := ((items.getD 1 (0, false)).1).toNat
  (List.range 7).foldl (fun s r =>
    (s.wrAt VMON_LEVEL.WARN r (railWarn.getD r 0 + 5 * step)).wrAt VMON_LEVEL.RESET r (railReset.getD r 0)) s

/-- The boot record is applied (R17, R507). -/
def State.applyBoot (s : State) (b : BootRecord) : State :=
  let s := (List.range 4).foldl (fun s p =>
    ((s.wrAt LNK_PORTCFG.BIF p (b.split.getD p 0)).wrAt LNK_PORTCFG.MAXRATE p (b.maxRate.getD p 3)).putAt
      LNK_PORTCFG.MLD p (b.mld.getD p false)) s
  let s := (s.wr DMC_CFG.SPEED b.speed).wr DMC_CFG.EXCLUDE b.exclude
  let s := (List.range 16).foldl (fun s c =>
    ((s.wrAt DMC_CHCFG.MODE c (b.mode.getD c 0)).wrAt DMC_CHCFG.AORDER c (b.aorder.getD c 1)).wrAt
      DMC_CHCFG.REFMODE c (b.refmode.getD c 2)) s
  let s := ((s.wr DMC_METACFG.PRIMARY b.primary).wr DMC_METACFG.SECONDARY b.secondary).wr MAP_DPACAP.CAP b.cap
  { s with chip := { s.chip with sris := b.sris, autocommit := b.autocommit } }

/-- Decoder counts that the standard encodes (R25). -/
def decoderCounts : List Nat := [1, 2, 4, 6, 8, 10, 12, 14, 16, 20, 24, 28, 32]

/-- The largest encodable count that a number reaches. -/
def encodable (n : Nat) : Nat := decoderCounts.foldl (fun best c => if c ≤ n then c else best) 1

/-- The LDs at cold reset (R24, R25, R53): one on each link, the decoders spread evenly. -/
def State.createLds (s : State) : State :=
  let links := (List.range 8).filter s.linkExists
  let share := encodable (32 / max links.length 1)
  { s with lds := links.map fun n => (16 * (n / 2) + n % 2, { link := n, number := 0, alloc := share }) }

/-- The configuration area is read and applied (R507). -/
def State.loadConfig (s : State) : State :=
  match chosenCopy s.chip.copy0 s.chip.copy1 with
  | some (k, c) => ((s.wr SYS_BOOT.CFGSRC k).applyBoot c.boot).calibrate c.offsets
  | none => ((s.wr SYS_BOOT.CFGSRC 2).applyBoot {}).calibrate []

/-- The fuse map is sensed (R508 step 1). -/
def State.senseFuses (s : State) : State :=
  let f := s.chip.fuses
  let s := ((s.wr ENG_SVN.ZFUSE f.zSvn).wr ENG_SVN.HFUSE f.hSvn).wr ENG_SVN.DFUSE f.dSvn
  let s := (s.put ENG_STAT.LOCKED f.locked).put ENG_STAT.DEBUG_OPEN (f.debug && !f.locked)
  (s.wr CIR_FUSESTAT.ROWS_USED f.rows).wr CIR_FUSESTAT.COLS_USED f.cols

/-! ### Firmware start (R488, R489, R508) -/

/-- BOOTSTAT.STAGE codes (R492). -/
def bootZenith : Nat := 1
def bootHorizon : Nat := 2
def bootDrift : Nat := 3
def bootHalt : Nat := 4

/-- A slot's image is rejected: its first cause is recorded and ENG_BOOT set (R488, R492). -/
def State.rejectImage (s : State) (slotB : Bool) (cause : Nat) : State :=
  let f := if slotB then ENG_BOOTSTAT.CAUSE_B else ENG_BOOTSTAT.CAUSE_A
  (if s.rd f = 0 then s.wr f cause else s).raise srcBoot

/-- The image that starts of two slots, with its slot; none where both are rejected. -/
def State.chooseImage (s : State) (a b : Image) (type : Nat) : Option (Bool × Image) × State :=
  let ca := s.imageCause a type
  if ca = 0 then (some (false, a), s)
  else
    let s := s.rejectImage false ca
    let cb := s.imageCause b type
    if cb = 0 then (some (true, b), s) else (none, s.rejectImage true cb)

/-- What the flash holds of an image that the boot chain has read (R540). -/
def State.noteImage (s : State) (k type : Nat) (x : Image) : State :=
  { s with chip := { s.chip with
    flash := s.chip.flash.set k ⟨s.imageCause x type == 0, imageSvn x, imageRelease x, ofBytes ((x.header.drop 8).take 4)⟩ } }

/-- What the flash holds of the drift set of a slot: valid where each program is, the lowest SVN, the RELEASE of the first, the
length of all (PRESUMED: the spec gives a set one record). -/
def State.noteDrift (s : State) (k : Nat) (drift : List Image) : State :=
  let sum := (drift.map fun x => ofBytes ((x.header.drop 8).take 4)).sum
  match drift with
  | [] => { s with chip := { s.chip with flash := s.chip.flash.set k {} } }
  | x :: xs =>
    { s with chip := { s.chip with
      flash := s.chip.flash.set k ⟨drift.all fun y => s.imageCause y 3 == 0,
        xs.foldl (fun n y => min n (imageSvn y)) (imageSvn x), imageRelease x, sum⟩ } }

/-- A loaded image is measured (R488). -/
def State.measure (s : State) (x : Image) : State :=
  { s with chip := { s.chip with measured := s.chip.measured ++ [ofBytesBig (sha384 (x.header.take 64 ++ x.body))] } }

/-- Zenith draws the veil keys anew (R289). -/
def State.drawVeil (s : State) : State :=
  let (a, s) := s.draw
  let (b, s) := s.draw
  let (c, s) := s.draw
  { s with sec := { s.sec with veil := [a % 2 ^ 128, b % 2 ^ 128, c % 2 ^ 128] } }

/-- Zenith starts (R508 step 6); at a cold reset it draws the veil keys. -/
def State.startZenith (s : State) (slotB : Bool) (x : Image) : State :=
  let s := if s.chip.warm = 0 then s.drawVeil else s
  let s := (s.measure x).put ENG_STAT.ZENITH_UP true
  let s := ((s.wr ENG_BOOTSTAT.STAGE bootZenith).put ENG_BOOTSTAT.ZSLOT slotB).wr ENG_SVN.ZRUN (imageSvn x)
  { s with chip := { s.chip with zenith := imageRelease x } }.advanceStage stageZenith

/-- The drift programs that verify are loaded (R488, R493); with none, placement is in FALLBACK. -/
def State.loadDrift (s : State) (drift : List Image) : State :=
  let good := drift.filter fun x => s.imageCause x 3 == 0
  let s := good.foldl State.measure s
  match good with
  | [] => s.put PLC_STATUS.FALLBACK true
  | x :: xs =>
    let s := s.wr ENG_SVN.DRUN (xs.foldl (fun n y => min n (imageSvn y)) (imageSvn x))
    let s := (s.wr ENG_STAT.CORES (bits (s.rd ENG_STAT.CORES) 0 6 + (2 ^ 40 - 1) * 2 ^ 6)).wr ENG_BOOTSTAT.STAGE bootDrift
    let s := s.put PLC_STATUS.FALLBACK (decide (good.length < drift.length))
    { s with plc := { s.plc with drift := good.length == drift.length } }

/-- Horizon starts on the service cores (R508 step 8). -/
def State.startHorizon (s : State) (slotB : Bool) (x : Image) (drift : List Image) : State :=
  let s := (s.measure x).wr ENG_STAT.CORES (2 ^ 6 - 1)
  let s := s.horizonStatus
  let s := ((s.wr ENG_BOOTSTAT.STAGE bootHorizon).put ENG_BOOTSTAT.HSLOT slotB).wr ENG_SVN.HRUN (imageSvn x)
  ({ s with chip := { s.chip with horizon := imageRelease x } }.advanceStage stageHorizon).loadDrift drift

/-! ### DEV_ENABLE (R518, R519) -/

/-- The guard is engaged (R560). -/
def State.guarded (s : State) : Bool := s.on PWR_STAT.GUARD

/-- The DEV_ENABLE check. -/
def State.devEnableCheck (s : State) : Nat :=
  let pllOff := (List.range 16).any fun c =>
    s.inService c && s.on DMC_COMMIT.COMMIT && !bit (s.rd CLK_STAT.DRAM) (c / 2)
  let cap := s.dpaCap
  firstCode [
    (!s.on ENG_STAT.HORIZON_UP || !s.on CLK_STAT.ROOT || pllOff, 0x01),
    (!s.on DMC_COMMIT.COMMIT, 0x69),
    (cap == 0 || decide (2 ^ 45 < cap) || cap % 2 ^ 28 != 0 ||
      decide (s.usableNow < s.stormFor s.usableNow + 2 ^ 30), 0x2E),
    (decide (s.rd RTR_DEADLINE.TIME ≤ 2 * s.rd HAL_TIMING.TBI + 4), 0x12),
    (decide (100 * s.rd HAL_TIMING.TBI ≤ s.rd HAL_TIMING.THOLD), 0x90),
    (s.guarded, 0xD1)]

/-- The device is enabled: usable capacity is computed, slice 0 is enabled, the router serves requests. -/
def State.enableDevice (s : State) : State :=
  let s := s.put SYS_CTL.DEV_ENABLE true
  let u := s.usableNow
  let s := ((s.wr MAP_CAPUSABLE.BYTES u).wr MAP_CAPSTORMSIZE.BYTES (s.stormFor u)).accounts
  let s := (s.putAt SLC_CTL.ENABLE 0 true).wr PWR_STAT.STATE 0
  if s.rd SYS_BOOT.STAGE = stageWarm then s else s.advanceStage stageEnabled

/-- A write of 1 to DEV_ENABLE: its code, none where it has no effect (R518). -/
def State.askDevEnable (s : State) : State :=
  if s.on SYS_CTL.DEV_ENABLE then s
  else
    let code := s.devEnableCheck
    let s := s.wr SYS_CHECK.CODE code
    if code = 0 then s.enableDevice else s

/-- The device is in use: a claim is committed or releasing, a slice other than 0 is enabled, or the pair is not ALONE. -/
def State.inUse (s : State) : Bool :=
  !s.committed.isEmpty || (s.copiesWith SLC_CTL.ENABLE 1).any (· != 0) || s.pairState != pairAlone

/-- A write of 0 to DEV_ENABLE (R519). -/
def State.askDevDisable (s : State) : State :=
  if !s.on SYS_CTL.DEV_ENABLE then s
  else if s.inUse then s.wr SYS_CHECK.CODE 0x04
  else ((s.put SYS_CTL.DEV_ENABLE false).putAt SLC_CTL.ENABLE 0 false).wr SYS_CHECK.CODE 0

/-! ### Refusals of power domains (R485, R558) -/

/-- Refusers. -/
def refuserHold : Nat := 1
def refuserAlways : Nat := 2
def refuserInUse : Nat := 3
def refuserTransition : Nat := 4

/-- Sources of a request, as PWR_REFLOG.SOURCE names them. -/
inductive Asker where
  | horizon | bar2 | kamcon | zenith
  deriving DecidableEq, Repr

/-- SOURCE codes; requests of Zenith are never refused. -/
def Asker.code : Asker → Nat
  | .horizon => 0
  | .bar2 => 1
  | .kamcon => 2
  | .zenith => 3

/-- The asker behind a register path. -/
def askerOf : Path → Asker
  | .bar2 => .bar2
  | .engine => .horizon
  | .steward => .zenith

/-- A refusal is recorded: its count, the first record, and for a hold the count and source of R485. -/
def State.refuseDomain (s : State) (who : Asker) (domain action refuser : Nat) : State :=
  let s := match refuser with
    | 1 => s.inc PWR_REFCNT.HOLD
    | 2 => s.inc PWR_REFCNT.ALWAYS
    | 3 => s.inc PWR_REFCNT.INUSE
    | _ => s.inc PWR_REFCNT.TRANS
  let s := (s.event Ev.domRefusals refuser)
  let s := if s.on PWR_REFLOG.VALID then s
    else
      ((((((s.wr PWR_REFLOG.TS s.stamp).wr PWR_REFLOG.DOMAIN domain).wr PWR_REFLOG.ACTION action).wr PWR_REFLOG.REFUSER
        refuser).wr PWR_REFLOG.SOURCE who.code).put PWR_REFLOG.VALID true)
  if refuser = refuserHold then
    let s := (s.inc ENG_ERRCNT.HOLDREF).event Ev.holdRefusals 0
    if s.sticky srcHoldRefused then s else s.raise srcHoldRefused
  else s

/-- A domain is held (R485). -/
def State.held (s : State) (d : Nat) : Bool := bit (s.rd ENG_HOLD.DOMAINS) d

/-! ### Block resets (R516, R517) -/

/-- The block that BLOCK and INDEX name, with its number, and its power domains (R555); none where they are invalid. -/
def blockNamed (block index : Nat) : Option (ResetBlock × Nat × List Nat) :=
  match block with
  | 0 => some (.codec, 0, [9, 10])
  | 1 => some (.contrail, 0, [13, 14, 15])
  | 2 => if index < 8 then some (.link, index, [2 + index / 2]) else none
  | 3 => if index < 46 then some (.core, index, [if index < 6 then 25 else 26 + (index - 6) / 8]) else none
  | 4 => some (.telemetry, 0, [31])
  | _ => none

/-- A block reset runs. -/
def State.addBlockReset (s : State) (b : ResetBlock) (k : Nat) : State :=
  if s.flt.blockResets.contains (b, k) then s
  else { s with flt := { s.flt with blockResets := s.flt.blockResets ++ [(b, k)] } }

/-- A block reset is asked for; CHECK takes its code. A second one of the same block merges. -/
def State.askBlockReset (s : State) (who : Asker) (block index : Nat) : State :=
  match blockNamed block index with
  | none => s.wr RST_CTL.CHECK 0xD5
  | some (b, k, ds) =>
    if s.on RST_CTL.WARM then s.wr RST_CTL.CHECK 0xD0
    else
      match who, ds.find? s.held with
      | .horizon, some d | .bar2, some d | .kamcon, some d =>
        (s.refuseDomain who d 0 refuserHold).wr RST_CTL.CHECK 0xD4
      | _, _ =>
        ((s.wr RST_CTL.CHECK 0).put RST_CTL.GO true).addBlockReset b k

/-- Counters, overflow bits and the sampling buffer are cleared (R516, R598). -/
def State.clearTelemetry (s : State) : State :=
  let s := (List.range 320).foldl (fun s i => s.wrAt TEL_CNTVAL.VALUE i 0) s
  let s := (List.range 5).foldl (fun s i => s.wrAt TEL_OVF.BITS i 0) s
  let s := ((s.wr TEL_SMPSTAT.WRIDX 0).put TEL_SMPSTAT.FULL false).wr TEL_SMPRD.RDIDX 0
  { s with smp := {} }

/-- The effect of a block reset (R516). `dropped` writes of a link were not fully received. -/
def State.resetBlock (s : State) (b : ResetBlock) (k dropped : Nat) : State :=
  match b with
  | .codec =>
    let jobs : Table DecodeJob := s.nmb.jobs.map fun (j : Nat × DecodeJob) => (j.1, { j.2 with failed := none })
    ({ s with nmb := { s.nmb with jobs := jobs } }.wr NMB_PIPESTAT.CMP 4095).wr NMB_PIPESTAT.DCMP 4095
  | .contrail =>
    let st := s.rd CON_STAT.STATE
    if st = conOff ∨ st = conDown then s else s.conDropTo conDown downSoftware
  | .link => (if s.isUp k then s.linkDown k downLtssm dropped else s).startTraining k
  | .core => if k < 46 ∧ s.on ENG_STAT.HORIZON_UP = true ∨ (s.core k).halted = true then
      let s := (s.setCore k {}).setRunning k true
      if 6 ≤ k then { s with plc := { s.plc with drift := true } } else s
    else s
  | .telemetry => s.clearTelemetry

/-! ### Warm reset (R514) -/

/-- A register key names a copy of a field. -/
def keyOf (f : Fld) (count key : Nat) : Bool :=
  decide (f.lo ≤ key) && (key - f.lo) % 64 == 0 && decide (f.addr ≤ (key - f.lo) / 64) &&
    (if f.step = 0 then (key - f.lo) / 64 == f.addr
     else ((key - f.lo) / 64 - f.addr) % f.step == 0 && decide (((key - f.lo) / 64 - f.addr) / f.step < count))

/-- The key belongs to an ROS field. -/
def rosKey (key : Nat) : Bool :=
  registerMap.any fun r => r.fields.any fun f => f.acc == .ros && keyOf f r.count key

/-- Register ranges of the retained set (R514): claims, grants and capacity; slices, doorbells, quotas, TEL_USER; the DMC RWL
fields; placement parameters; the regulator profile; PAR_CFG, PAR_STAT.STATE and PAR_EPOCH; RTR_DEADLINE; HAL_TIMING;
CON_CTL.LINKEN. -/
def retainedRanges : List (Nat × Nat) :=
  [(0x70008, 0x70038), (0x70040, 0x70048), (0x70100, 0x70110), (0x70200, 0x70280), (0x110008, 0x110020),
   (0x110048, 0x110050), (0x80010, 0x80018), (0xC0000, 0xC0038), (0xC0100, 0xC0600),
   (0x90000, 0x90040), (0x90050, 0x90058), (0x120100, 0x120110), (0x140008, 0x140020), (0x60000, 0x60008),
   (0xF0000, 0xF0008), (0x130000, 0x130008)]

/-- Register ranges that stand in the always-on domain, in DRAM or in the configuration of the cold reset: SYS_ID, SYS_BOOT and
the reset block, the supply monitor, LNK_PORTCFG, salvage status, fuse status, heap and poison status, the protection unit,
the host states, fuses, sticky bits, pins and FLT_PRIOR (R107, R289, R511, R559, R568, R577, R589; DESIGN CHOICE where the
spec does not say). -/
def alwaysOnRanges : List (Nat × Nat) :=
  [(0x10, 0x20), (0x20000, 0x30000), (0x40000, 0x50000), (0x50000, 0x50400), (0x80050, 0x80060), (0xA0018, 0xA0030),
   (0xD0180, 0xD0190), (0xE0000, 0xE0010), (0xE0018, 0xF0000), (0xF0008, 0xF0010), (0x150010, 0x150018),
   (0x160000, 0x160010), (0x160048, 0x160050), (0x160080, 0x160090)]

/-- A key lies in one of the ranges. -/
def inRanges (rs : List (Nat × Nat)) (key : Nat) : Bool :=
  rs.any fun r => decide (r.1 ≤ key / 64 % bank) && decide (key / 64 % bank < r.2)

/-- The caches are written back and emptied (R514 step 3): the map cache, and the counter cache from the leaves up. -/
def State.writeBackCaches (s : State) : State :=
  let s := (s.map.cache.map Prod.fst).foldl State.evictMap s
  (s.sec.trees.map Prod.fst).foldl (fun s k =>
    (List.range 11).foldl (fun s level =>
      let mine := (s.tree k).cached.filter fun n => n / 2 ^ 32 == level
      mine.foldl (fun s n => s.evictNode k level (n % 2 ^ 32)) s) s) s

/-- The retained set is saved, and all logic outside the always-on domain is reset (R514 step 4). What DRAM, the flash and the
key store hold stays. -/
def State.warmCut (s : State) : State :=
  let chans : Table Channel := s.dram.channels.map fun (c : Nat × Channel) =>
    (c.1, { c.2 with selfRefresh := true, panicRead := false, panicWrite := false, draining := false, writes := []
                     poweredDown := [], recent := [], openRows := [], refreshDebt := 0, freezeDue := none })
  { State.reset with
    regs := s.regs.filter fun e => inRanges alwaysOnRanges e.1 || rosKey e.1
    time := s.time, stampBase := s.stampBase, lds := s.lds
    map := { s.map with cache := [], plru := [], dirCache := [], dirPlru := [] }
    nmb := { segments := s.nmb.segments }
    dram := { s.dram with channels := chans }
    med := { s.med with scrubs := [], scrubWait := [], pprRow := none }
    pair := { outbits := s.pair.outbits, peer := s.pair.peer, peerAt := s.pair.peerAt }
    sec := { s.sec with trees := s.sec.trees.map fun (t : Nat × SealTree) => (t.1, { t.2 with cached := [], dirty := [] }) }
    snp := { clearing := s.snp.clearing, nextStream := s.snp.nextStream }
    plc := { active := s.plc.active }
    qos := { active := s.qos.active }
    cir := { salvage := s.cir.salvage }
    chip := { (s.backgrounds.foldl Chip.cutWrite s.chip) with
      hostPll := [], selfTest := false, zenithOnly := false, measured := [], warm := 4, stewardHalt := false
      retained := s.regs.filter fun e => inRanges retainedRanges e.1 }
    mbx := { bindings := s.mbx.bindings, regions := s.mbx.regions, offers := s.mbx.offers
             extents := s.mbx.extents, nextHandle := s.mbx.nextHandle, told := s.mbx.told
             toldPending := s.mbx.toldPending, maintenance := s.mbx.maintenance, degraded := s.mbx.degraded
             horizonLog := s.mbx.horizonLog
             ccis := s.mbx.ccis.map fun (e : Nat × Cci) => (e.1, ({ logs := e.2.logs } : Cci))
             afterWarm := (List.range 116).filter fun k => s.sticky k }
    free := s.free, out := s.out, pending := s.pending }

/-- A key's value returns from the retained set. -/
def State.putKey (s : State) (e : Nat × Nat) : State := { s with regs := s.regs.put e.1 e.2 }

/-- Accept a warm reset: step 1 (R514). -/
def State.startWarm (s : State) : State :=
  let s := ((s.wr RST_CTL.CHECK 0).put RST_CTL.WARM true).advanceStage stageWarm
  let s := (List.range 8).foldl (fun s n =>
    let s := if s.isUp n then s.linkDown n downLtssm 0 else s
    if s.linkExists n && !s.fenced n then s.fenceLink n else s) s
  let claims := (s.liveSlots.filter fun n => !(s.slot n).receive).map fun n => s.rdAt SNP_ARM.CLAIM n
  let s := s.liveSlots.foldl (fun s n => (s.cutStream n abortWarm).wrAt SNP_STATUS.STATE n slotAborting) s
  let s := { s with snp := { s.snp with clearing := claims.foldl NSet.add s.snp.clearing } }
  let s := (s.copiesWith SLC_CTL.ENABLE 1).foldl (fun s n => s.startSliceReset n true) s
  let s := s.plc.moves.foldl (fun s m => s.abortMove m true true 6) s
  { s with chip := { s.chip with warm := 1 } }

/-- The warm reset check (R515). -/
def State.warmCheck (s : State) : Nat :=
  firstCode [
    (s.on RST_CTL.WARM, 0xD0),
    (s.pairState == pairJoining || s.mirroring || s.pairState == pairResync, 0xD2),
    (s.rd CIR_HOLDCFG.HELD != 0, 0xD3)]

/-- A warm reset is asked for (R515). -/
def State.askWarm (s : State) : State :=
  let code := s.warmCheck
  if code = 0 then s.startWarm else s.wr RST_CTL.CHECK code

/-- The restore of step 7. -/
def State.endWarm (s : State) : State :=
  let s := s.chip.retained.foldl State.putKey s
  let s := { s with chip := { s.chip with retained := [], warm := 0 } }
  let s := ((s.put SYS_BOOT.MEMACTIVE (s.on DMC_COMMIT.COMMIT)).put SYS_CTL.DEV_ENABLE false).askDevEnable
  if !s.on SYS_CTL.DEV_ENABLE then s.coldReset causeWarmFail 0 0
  else
    let s := ((s.put RST_CTL.WARM false).put RST_LAST.KIND true).wr RST_LAST.CAUSE causeSoftware
    let s := ((s.incAt RST_LAST.WARMCNT 0).wr SYS_BOOT.STAGE stageEnabled).accounts
    if s.on CON_CTL.LINKEN then s.startLink else s

end Sys2Proof.Machine
end

