-- ==== Sys2Proof/Machine/BootCmds.lean ====
section
/-! DEFINITION. Start-up and reset commands and events (17_clocks_reset_startup.md). -/

namespace Sys2Proof.Machine

/-! ### Cold start (R505, R508) -/

/-- POWER_GOOD (R505, R508 steps 1 and 2, R646): the straps are latched, the fuses sensed, the configuration area and the
calibration applied. `part` is given when the part and its flash are new. A part whose TESTEN strap selects scan test never
leaves reset. -/
def execPowerGood (straps : Straps) (part : Option Part) (s : State) : Host.Outcome State Fault Refusal :=
  if s.chip.powered || s.chip.tripped then s.done
  else
    let s := match part with
      | some p => { s with chip := { s.chip with fuses := p.fuses, copy0 := p.copy0, copy1 := p.copy1 } }
      | none => s
    let s := { s with chip := { s.chip with straps := straps } }.senseFuses
    let s := (s.put CLK_STAT.REFOK true).wr SYS_ID.PAIRID straps.pairId
    if straps.testEn && !s.chip.fuses.locked then s.done
    else ({ s with chip := { s.chip with powered := true } }.loadConfig.createLds).done

/-- ROOT_PLL_LOCK (R500, R508 step 3): the divided clocks run and self-test starts. -/
def execRootPllLock (s : State) : Host.Outcome State Fault Refusal :=
  if s.chip.powered then (s.put CLK_STAT.ROOT true).done else s.done

/-- SELF_TEST_END (R508 step 4): a failure stops the sequence. -/
def execSelfTestEnd (ok : Bool) (s : State) : Host.Outcome State Fault Refusal :=
  if !s.on CLK_STAT.ROOT || s.chip.selfTest || s.on SYS_BOOT.SELFTEST_FAIL then s.done
  else if ok then { s with chip := { s.chip with selfTest := true } }.done
  else (s.put SYS_BOOT.SELFTEST_FAIL true).done

/-- HOST_RECEIVER_CALIBRATION (R508 step 5): STAGE is PORTS_READY, and the links whose PERSTp_N is deasserted train. -/
def execHostReceiverCalibration (s : State) : Host.Outcome State Fault Refusal :=
  if s.chip.selfTest then ((List.range 8).foldl State.startTraining (s.advanceStage stagePortsReady)).done else s.done

/-- The SerDes PLL of a host port locks. -/
def State.lockHostPll (s : State) (k : Nat) : State :=
  let s := s.wr CLK_STAT.HOST (setBit (s.rd CLK_STAT.HOST) k true)
  { s with chip := { s.chip with hostPll := s.chip.hostPll.add k } }

/-- SERDES_PLL_LOCK (R500, R502): the PLL of host port `k`, or of Contrail bundle `k`, locks; the port's links may train. -/
def execSerdesPllLock (host : Bool) (k : Nat) (s : State) : Host.Outcome State Fault Refusal :=
  if !s.chip.powered then s.done
  else if host then
    (((s.lockHostPll k).startTraining (2 * k)).startTraining (2 * k + 1)).done
  else (s.wr CLK_STAT.CON (setBit (s.rd CLK_STAT.CON) k true)).done

/-- ZENITH_VERIFY_END (R488): the ROM verifies slot A and, where it is rejected, slot B; with both rejected it stops in
BOOT_HALT. -/
def execZenithVerifyEnd (a b : Image) (s : State) : Host.Outcome State Fault Refusal :=
  if !s.chip.selfTest || s.on ENG_STAT.ZENITH_UP || s.rd ENG_BOOTSTAT.STAGE = bootHalt then s.done
  else
    let s := (s.noteImage 0 1 a).noteImage 3 1 b
    match s.chooseImage a b 1 with
    | (some (slotB, x), s) => (s.startZenith slotB x).done
    | (none, s) => (s.wr ENG_BOOTSTAT.STAGE bootHalt).done

/-- Horizon and the drift set start from an image (R488, R508). -/
def State.upHorizon (s : State) (slotB : Bool) (x : Image) (drift : List Image) : State :=
  let s := s.noteDrift (if slotB then 5 else 2) drift
  let s := s.startHorizon slotB x drift
  if s.chip.warm = 0 then s.autoCommit else s

/-- HORIZON_VERIFY_END (R488): Zenith verifies Horizon and the drift programs; with both Horizon slots rejected Zenith runs
alone. Where AUTOCOMMIT asks for it and training has ended, Horizon commits the channels. -/
def execHorizonVerifyEnd (a b : Image) (drift : List Image) (s : State) : Host.Outcome State Fault Refusal :=
  if !s.on ENG_STAT.ZENITH_UP || s.on ENG_STAT.HORIZON_UP || s.chip.zenithOnly then s.done
  else
    let s := (s.noteImage 1 2 a).noteImage 4 2 b
    match s.chooseImage a b 2 with
    | (some (slotB, x), s) =>
      (s.upHorizon slotB x drift).done
    | (none, s) => { s with chip := { s.chip with zenithOnly := true } }.done

/-! ### Clock and supply faults (R502, R505, R513) -/

/-- POWER_GOOD_LOSS (R505, R524, R559): a rail reaches its reset level. Where VDD_AON is lost too, RST_LAST and FLT_PRIOR are
cleared and THERMTRIP ends. -/
def execPowerGoodLoss (rail : Nat) (aonLost : Bool) (s : State) : Host.Outcome State Fault Refusal :=
  if aonLost then
    let s := s.coldReset causePowerOn 0 0
    ((s.wrAt FLT_PRIOR.SRC 0 0).wrAt FLT_PRIOR.SRC 1 0).done
  else
    let trip := s.chip.tripped
    let s := s.coldReset causeSupply rail 0
    { s with chip := { s.chip with tripped := trip } }.done

/-- REFCLK_LOSS (R502): no REFCLK edge for 1 µs. -/
def execRefclkLoss (s : State) : Host.Outcome State Fault Refusal := (s.coldReset causeRefclk 0 0).done

/-- The SerDes PLL of a host port unlocks: its links go down. -/
def State.unlockHostPll (s : State) (port dropped0 dropped1 : Nat) : State :=
  let s := s.wr CLK_STAT.HOST (setBit (s.rd CLK_STAT.HOST) port false)
  let s := { s with chip := { s.chip with hostPll := s.chip.hostPll.remove port } }
  let s := if s.isUp (2 * port) then s.linkDown (2 * port) downLtssm dropped0 else s
  if s.isUp (2 * port + 1) then s.linkDown (2 * port + 1) downLtssm dropped1 else s

/-- The PLL of a Contrail bundle unlocks: the drop of the bundle is asked for. -/
def State.unlockBundlePll (s : State) (b : Nat) : State :=
  let s := s.wr CLK_STAT.CON (setBit (s.rd CLK_STAT.CON) b false)
  if s.linkUp && bit s.con.rxMap b then s.askDrop b else s

/-- PLL_UNLOCK (R502): the root PLL or a DRAM PLL causes a cold reset; a host port's links go down (`dropped` writes of each
were not fully received); a Contrail bundle's lanes fail and its drop is asked for. -/
def execPllUnlock (p : Pll) (dropped0 dropped1 : Nat) (s : State) : Host.Outcome State Fault Refusal :=
  match p with
  | .root | .dram _ => (s.coldReset causePll 0 0).done
  | .host port =>
    ((s.unlockHostPll port dropped0 dropped1).raise 5).done
  | .contrail b =>
    (((s.unlockBundlePll b).raise srcConLane).raise 5).done

/-- THERMTRIP (R513, R606): THERMTRIP_N is asserted and the device is held in cold reset until VDD_AON falls. -/
def execThermtrip (s : State) : Host.Outcome State Fault Refusal :=
  let s := s.coldReset causeThermtrip 0 0
  { s with chip := { s.chip with tripped := true } }.done

/-! ### DEV_ENABLE (R518, R519) -/

/-- DEV_ENABLE_CHECK (R518): a write of 1 to SYS_CTL.DEV_ENABLE. -/
def execDevEnableCheck (s : State) : Host.Outcome State Fault Refusal := s.askDevEnable.done

/-- DEV_DISABLE (R519): a write of 0 to SYS_CTL.DEV_ENABLE. -/
def execDevDisable (s : State) : Host.Outcome State Fault Refusal := s.askDevDisable.done

/-! ### Requested resets (R513–R517) -/

/-- RST_CTL_COLD (R513). -/
def execRstCtlCold (s : State) : Host.Outcome State Fault Refusal := (s.coldReset causeSoftware 0 0).done

/-- RST_CTL_WARM (R514, R515). -/
def execRstCtlWarm (s : State) : Host.Outcome State Fault Refusal := s.askWarm.done

/-- WARM_RESET_STEP (R514): the next step completes. `fs` gives what the reads of the flush find, `ok` whether the read
recalibration of step 6 passes. Step 5 is the start of the firmware. -/
def execWarmResetStep (fs : Finds) (ok : Bool) (s : State) : Host.Outcome State Fault Refusal :=
  let at' := fun (n : Nat) (s : State) => { s with chip := { s.chip with warm := n } }
  match s.chip.warm with
  | 1 =>
    let s := (s.copiesWith SLC_CTL.RESET 1).foldl State.endSliceReset s
    (at' 2 (s.liveSlots.foldl State.dropSlot s)).done
  | 2 =>
    let s := (s.flush (fun _ => true) true fs).2
    (at' 3 ((s.writeBackCaches).drainPath fs)).done
  | 3 => .next s.warmCut
  | 4 => if s.on ENG_STAT.HORIZON_UP then (at' 5 s).done else s.done
  | 5 =>
    if ok then
      let chans : Table Channel := s.dram.channels.map fun (c : Nat × Channel) => (c.1, { c.2 with selfRefresh := false })
      (at' 6 { s with dram := { s.dram with channels := chans } }).done
    else (s.coldReset causeWarmFail 0 0).done
  | 6 => s.endWarm.done
  | _ => s.done

/-- RST_CTL_GO (R516): a write of 1 to RST_CTL.GO through a path. -/
def execRstCtlGo (p : Path) (s : State) : Host.Outcome State Fault Refusal :=
  (s.askBlockReset (askerOf p) (s.rd RST_CTL.BLOCK) (s.rd RST_CTL.INDEX)).done

/-- A block reset no longer runs. -/
def State.dropBlockReset (s : State) (block : ResetBlock) (index : Nat) : State :=
  { s with flt := { s.flt with blockResets := s.flt.blockResets.filter fun b => b != (block, index) } }

/-- GO returns to 0 when the block reset that it asked for is done. -/
def State.endGo (s : State) (block : ResetBlock) (index : Nat) : State :=
  let asked := (blockNamed (s.rd RST_CTL.BLOCK) (s.rd RST_CTL.INDEX)).map fun b => (b.1, b.2.1)
  if asked == some (block, index) then s.put RST_CTL.GO false else s

/-- BLOCK_RESET_END (R516, R572): a block reset, requested or a reaction, is done; GO returns to 0 when it was the requested
one. `dropped` writes of a link were not fully received. -/
def execBlockResetEnd (block : ResetBlock) (index dropped : Nat) (s : State) : Host.Outcome State Fault Refusal :=
  if !s.flt.blockResets.contains (block, index) then s.done
  else
    (((s.dropBlockReset block index).resetBlock block index dropped).endGo block index).done

end Sys2Proof.Machine
end

