-- ==== Sys2Proof/Machine/EngineCmds.lean ====
section
/-! DEFINITION. Engine commands and events (16_engines_and_worlds.md): accesses through the DPA window, walks, world calls and
returns, the map update port, TLB invalidation, the watchdog, holds, engine memory errors. -/

namespace Sys2Proof.Machine

/-! ### Memory accesses (R471, R474, R491) -/

/-- Causes of a data abort: NO_CLAIM, SEALED and POISON (R471), and an uncorrectable error in engine SRAM (R491). -/
def abortNoClaim : Nat := 0
def abortSealed : Nat := 1
def abortPoison : Nat := 2
def abortUe : Nat := 3

/-- A core's load takes a line. -/
def State.giveLine (s : State) (n : Nat) (l : Line) : State := s.setCore n { s.core n with line := l, stop := none }

/-- The stored ciphertext of a line of a sealed page: the spec fixes no value that the model could compute. -/
def State.giveCipher (s : State) (n : Nat) : State :=
  let (v, s) := s.draw
  s.giveLine n (BitVec.ofNat 512 v)

/-- A read of a line in a sealed claim (R471): the stored form, without its tag. -/
def State.readSealed (s : State) (n dpaLine : Nat) (fs : Finds) : State :=
  let e := s.entry (dpaLine / 64)
  let stored := fun (s : State) (line : Nat) =>
    match s.readMedia line (fs.line line).ecc (s.listed dpaLine) with
    | (.data _, s) => s.giveCipher n
    | (_, s) => s.abortCore n abortPoison
  match e.state, e.loc with
  | .lost, _ => s.abortCore n abortPoison
  | _, .nowhere => s.giveLine n 0
  | _, .frame mfn => stored s (mfn * 64 + dpaLine % 64)
  | _, .run h _ _ _ _ =>
    if dpaLine % 64 < e.loc.granules then stored s (s.granuleLine (h + dpaLine % 64)) else s.giveLine n 0

/-- ENGINE_DPA_ACCESS (R471): core `core` reads a line through the DPA window, or writes bytes of it. A read whose line the
pair's partner is asked for waits and is made again. -/
def execEngineDpaAccess (core dpaLine : Nat) (write : Option (Line × ByteMask)) (fs : Finds) (s : State) :
    Host.Outcome State Fault Refusal :=
  if !s.coreRuns core then s.done
  else
    let s := s.takeUnits masterService 1
    match s.claimOf (dpaLine * 64), write with
    | none, _ => (s.abortCore core abortNoClaim).done
    | some c, some (data, mask) =>
      if s.onAt MAP_CLAIMATTR.SEALED c then (s.abortCore core abortSealed).done
      else ((s.setCore core { s.core core with stop := none }).engineWrite ⟨dpaLine, data, mask, false⟩).done
    | some c, none =>
      if s.onAt MAP_CLAIMATTR.SEALED c then (s.readSealed core dpaLine fs).done
      else
        match s.deviceRead dpaLine fs with
        | (none, s) => s.done
        | (some (_, true), s) => (s.abortCore core abortPoison).done
        | (some (l, false), s) => (s.giveLine core l).done

/-- STAGE1_WALK (R474–R478): core `core` makes an access to a VA. It is looked up in the fixed windows, the TLBs and the
tables. `handler` says that the S-level exception handler makes it. -/
def execStage1Walk (core : Nat) (w : CoreWork) (va : Nat) (a : CoreAccess) (handler : Bool) (finds : List (Nat × Ecc))
    (fs : Finds) (s : State) : Host.Outcome State Fault Refusal :=
  let s := s.doWork core w
  let c := s.core core
  if !s.coreRuns core || core == steward || c.level == .hypervisor || c.stop.isSome then s.done
  else if 2 ^ 40 ≤ va then ((s.event Ev.translationFaults 0).toSupervisor core (.translation 0)).done
  else
    let root := (c.ctl.find corePtroot).getD 0
    let stag := bits root 48 8
    match c.fixedWindow va with
    | some k =>
      let r := (c.ctl.find (coreFwVa k)).getD 0
      let ipa := bits ((c.ctl.find (coreFwIpa k)).getD 0) 12 36 * 4096 + (va - bits r 12 28 * 4096)
      if !stage1Allows c.level a (bit r 1) (bit r 2) (bit r 3) (bit r 4) then (s.toSupervisor core .permission).done
      else
        match s.stage2 core ipa a with
        | .error cause => (s.stage2Fault core ipa cause).done
        | .ok _ => s.done
    | none =>
      match (c.tlb a).find? fun e => e.hits stag (va / 4096) with
      | some e => (s.useEntry core va a e).done
      | none =>
        let s := s.event Ev.tlbMisses 0
        match c.ltlb.find? fun e => e.hits stag (va / 4096) with
        | some e => ((s.setCore core (c.installL1 a e)).useEntry core va a e).done
        | none =>
          let s := (s.event Ev.tlbMisses 1).event Ev.walks 0
          match s.walk core va finds fs [0, 1, 2] (bits root 11 37 * 2 ^ 11) 0 with
          | (.waits, s) => s.done
          | (.leaf d, s) => (s.useLeaf core va a stag d).done
          | (.translation l, s) => ((s.event Ev.translationFaults 0).toSupervisor core (.translation l)).done
          | (.fault kind l ipa, s) =>
            let s := ((s.walkLog core kind l ipa (a == .fetch)).inc ENG_ERRCNT.WALK).raiseFor srcWalkFault core
            let s := (s.event Ev.walkFaults 0).toSupervisor core (.walk kind l)
            (if handler then s.haltCore core else s).done
          | (.stage2 cause l ipa, s) => ((s.walkLog core 3 l ipa (a == .fetch)).stage2Fault core ipa cause).done

/-- ENG_MEM_UE (R491): a core reads engine SRAM or always-on memory and finds an uncorrectable error. -/
def execEngMemUe (core : Nat) (s : State) : Host.Outcome State Fault Refusal :=
  ((s.abortCore core abortUe).raiseFor srcEngMemUe core).done

/-! ### World calls (R482, R484, R490) -/

/-- SPDM_MSG (R484): Zenith answers the message with `length` bytes. What the message asks for is a command of its own. -/
def execSpdmMsg (core : Nat) (w : CoreWork) (length : Nat) (s : State) : Host.Outcome State Fault Refusal :=
  (s.worldCall core w fun s => (callOk, length, s)).done

/-- VEIL_ROTATE (R484, R291). -/
def execVeilRotateCall (core : Nat) (w : CoreWork) (s : State) : Host.Outcome State Fault Refusal :=
  (s.worldCall core w fun s =>
    if s.on SEC_VEILSTAT.ROTATING then (callBusy, 0, s) else (callOk, 0, s.startRotation)).done

/-- FW_CHECK (R484, R489): a staged image of a type is verified; the result is its SVN. -/
def execFwCheck (core : Nat) (w : CoreWork) (image : Image) (type : Nat) (s : State) :
    Host.Outcome State Fault Refusal :=
  (s.worldCall core w fun s =>
    if type = 0 ∨ 3 < type then (callInvalid, 0, s)
    else if s.imageCause image type = 0 then (callOk, imageSvn image, s)
    else (callRefused, 0, s)).done

/-- SVN_COMMIT (R490) of an image type: 1 Zenith, 2 Horizon, 3 drift programs. -/
def execSvnCommitCall (core : Nat) (w : CoreWork) (type : Nat) (s : State) : Host.Outcome State Fault Refusal :=
  (s.worldCall core w fun s =>
    let (status, s) := s.commitSvn type
    (status, 0, s)).done

/-- Restart a halted core from its image (R472): with its reset state and empty TLBs. -/
def State.restartCore (s : State) (n : Nat) : State :=
  let s := (s.setCore n {}).setRunning n true
  if 6 ≤ n then { s with plc := { s.plc with drift := true } } else s

/-- CORE_RESTART (R484): Zenith restarts core `target`, which it halted. -/
def execCoreRestart (core : Nat) (w : CoreWork) (target : Nat) (s : State) : Host.Outcome State Fault Refusal :=
  (s.worldCall core w fun s =>
    if target < 46 ∧ (s.core target).halted = true then (callOk, 0, s.restartCore target) else (callInvalid, 0, s)).done

/-- WORLD_RETURN (R482, R483): a core leaves H. -/
def execWorldReturn (core : Nat) (s : State) : Host.Outcome State Fault Refusal :=
  let c := s.core core
  if !s.coreRuns core || core == steward || c.level != .hypervisor then s.done else (s.setCore core c.goBack).done

/-- ASYNC_ENTRY (R483): an interrupt routed to Zenith, a non-maskable interrupt or a stage-2 fault of an access. -/
def execAsyncEntry (core : Nat) (w : CoreWork) (why : EntryWhy) (s : State) : Host.Outcome State Fault Refusal :=
  let s := s.doWork core w
  if !s.coreRuns core || core == steward || (s.core core).level == .hypervisor then s.done
  else
    match why with
    | .interrupt => (s.enterH core .interrupt).done
    | .nmi => (s.enterH core .nmi).done
    | .stage2 ipa cause => (s.stage2Fault core ipa cause).done

/-! ### The map update port and the TLBs (R479–R481) -/

/-- MUP_GO (R480): a core issues the update that its port registers hold. Ignored while the port is busy; at U it raises an
exception at S. -/
def execMupGo (core : Nat) (w : CoreWork) (s : State) : Host.Outcome State Fault Refusal :=
  let s := s.doWork core w
  let c := s.core core
  if !s.coreRuns core || c.stop.isSome then s.done
  else if c.level = .user then (s.toSupervisor core .illegal).done
  else if c.portBusy then s.done
  else ((s.setCore core { c with zenith := c.level == .hypervisor }).runPort core).done

/-- CORE_INVAL (R479, R481): a core drops entries of its own. Scope 3 is for H only and traps to H from S. -/
def execCoreInval (core : Nat) (w : CoreWork) (v : Nat) (s : State) : Host.Outcome State Fault Refusal :=
  let s := s.doWork core w
  let c := s.core core
  if !s.coreRuns core || core == steward || c.stop.isSome then s.done
  else if c.level = .user then (s.toSupervisor core .illegal).done
  else if bits v 0 2 = 3 ∧ c.level = .supervisor then (s.enterH core .hOnly).done
  else
    ((s.setCore core (c.invalidate ⟨bits v 0 2, bits v 2 8, bits v 12 36⟩)).event Ev.invalidations 0).done

/-- ENG_TLBINV (R479): a write of a core mask starts the invalidation that ENG_TLBARG describes; ignored while one runs. -/
def State.startInvalidation (s : State) (mask : Nat) : State :=
  if s.rd ENG_TLBINV.CORES = 0 then s.wr ENG_TLBINV.CORES mask else s

/-- ENG_TLBINV (R479). -/
def execEngTlbinv (mask : Nat) (s : State) : Host.Outcome State Fault Refusal := (s.startInvalidation mask).done

/-- A core drops the entries that ENG_TLBARG describes, and its bit of ENG_TLBINV clears. -/
def State.finishInvalidation (s : State) (n : Nat) : State :=
  let x : TlbArg := ⟨s.rd ENG_TLBARG.SCOPE, s.rd ENG_TLBARG.STAG, s.rd ENG_TLBARG.ADDR⟩
  let s := (s.setCore n ((s.core n).invalidate x)).event Ev.invalidations 0
  s.wr ENG_TLBINV.CORES (setBit (s.rd ENG_TLBINV.CORES) n false)

/-- TLB_INVALIDATION_END (R479): a core has dropped every matching entry. -/
def execTlbInvalidationEnd (core : Nat) (s : State) : Host.Outcome State Fault Refusal :=
  if !bit (s.rd ENG_TLBINV.CORES) core then s.done
  else
    (s.finishInvalidation core).done

/-! ### Stewards and holds (R485, R486) -/

/-- ENG_WDOG_PET (R486): a write of 1 to ENG_WDOG.PET. -/
def State.pet (s : State) : State :=
  let s := s.put ENG_WDOG.EXPIRED false
  { s with chip := { s.chip with petted := true } }

/-- ENG_WDOG_PET (R486). -/
def execEngWdogPet (s : State) : Host.Outcome State Fault Refusal := s.pet.done

/-- ENG_ZWDOG (R486): TIMEOUT has passed without a pet. In NIGHT the watchdog is suspended (R578). -/
def execEngZwdog (s : State) : Host.Outcome State Fault Refusal :=
  if s.rd PWR_STAT.STATE = 3 then s.done
  else (((s.put ENG_WDOG.EXPIRED true).heartStop 2).raise srcZwdog).done

/-- ENG_LOCKSTEP (R486): the steward cores disagree; both halt. -/
def execEngLockstep (s : State) : Host.Outcome State Fault Refusal :=
  let s := ({ s with chip := { s.chip with stewardHalt := true } }.put ENG_STAT.ZENITH_UP false).heartStop 3
  (s.raise srcLockstep).done

/-- A write of ENG_HOLD (R485): domains that are gated or off and are now held wake as Zenith's own request. -/
def State.setHold (s : State) (v : Nat) : State :=
  let s := s.wr ENG_HOLD.DOMAINS (v % 2 ^ 33)
  (List.range 33).foldl (fun s d =>
    let s := s.putAt PWR_DOMSTAT.HELD d (bit v d)
    let st := s.rdAt PWR_DOMSTAT.STATE d
    if bit v d && (st == 1 || st == 2) then s.putAt PWR_DOMSTAT.WAKING d true else s) s

/-- ENG_HOLD_WRITE (R485). -/
def execEngHoldWrite (v : Nat) (s : State) : Host.Outcome State Fault Refusal := (s.setHold v).done

end Sys2Proof.Machine
end

