-- ==== Sys2Proof/Machine/Records.lean ====
section
/-! DEFINITION. CXL event records: which source gives which record (R576, R580), where a record goes (R579), the logs and their
overflow (R529). -/

namespace Sys2Proof.Machine

/-! ### Records and logs (R529, R579) -/

/-- Log numbers: Informational, Warning, Failure, Fatal, Dynamic Capacity. -/
def logInfo : Nat := 0
def logWarning : Nat := 1
def logFailure : Nat := 2
def logFatal : Nat := 3
def logCapacity : Nat := 4

/-- Records that a log holds. -/
def logSize (log : Nat) : Nat := if log = logCapacity then 64 else 256

/-- A log of a CCI. -/
def State.eventLog (s : State) (k log : Nat) : EventLog := (s.cci (logOwner k)).logs.get {} log

/-- Replace a log of a CCI. -/
def State.setEventLog (s : State) (k log : Nat) (x : EventLog) : State :=
  let c := s.cci (logOwner k)
  s.setCci (logOwner k) { c with logs := c.logs.set {} log x }

/-- The interrupt policy of a CCI asks for an interrupt of a log (PRESUMED: mode bits [1:0]). -/
def State.asksInterrupt (s : State) (k log : Nat) : Bool := (s.cci (logOwner k)).policy.getD log 0 % 4 != 0

/-- A record joins a log; a full log counts it as lost (PRESUMED: the standard drops the new record). -/
def State.logRecord (s : State) (r : EventRec) (log k : Nat) : State :=
  let x := s.eventLog k log
  if x.records.length < logSize log then
    let s := s.setEventLog k log { x with records := x.records ++ [r] }
    if s.asksInterrupt k log then s.send (.notice k log) else s
  else
    s.setEventLog k log { x with lost := min (x.lost + 1) 0xFFFF, lastLost := s.stamp
                                 firstLost := if x.lost = 0 then s.stamp else x.firstLost }

/-- A record is given its handle and joins the logs of these CCIs and of every management CCI (R579). -/
def State.placeRecord (s : State) (ks : List Nat) (log : Nat) (r : EventRec) : State :=
  let r := { r with handle := s.mbx.nextHandle }
  let s := { s with mbx := { s.mbx with
    nextHandle := s.mbx.nextHandle % 0xFFFF + 1
    maintenance := s.mbx.maintenance || log == logFailure || log == logFatal } }
  (ks ++ s.managers).eraseDups.foldl (fun s k => s.logRecord r log k) s

/-- LDs that hold READ or READ_WRITE on the claim of a line. -/
def State.readersOf (s : State) (line : Nat) : List Nat :=
  match s.claimOf (line * 64) with
  | none => []
  | some c => (s.lds.map Prod.fst).filter fun ld => s.grant c ld != grantNone

/-- The LDs whose logs a record gets, beside the management CCIs. -/
def State.concerned (s : State) (r : EventRec) : List Nat :=
  match r.line with
  | some l => s.readersOf l
  | none => if 8 ≤ r.source ∧ r.source ≤ 23 ∧ r.kind = .vendor then s.ldsOn ((r.source - 8) / 2) else []

/-- Place a record by R579. -/
def State.form (s : State) (log : Nat) (r : EventRec) : State := s.placeRecord (s.concerned r) log r

/-! ### The Record column of R576 -/

/-- The log of a source's vendor record; none where the column has none. -/
def vendorLog (src : Nat) : Option Nat :=
  if [7, 24, 27, 35, 38, 42, 46, 85, 90, 97, 103].contains src ∨ (8 ≤ src ∧ src ≤ 23 ∧ src % 2 = 0) then some logInfo
  else if [0, 1, 2, 3, 5, 6, 28, 29, 36, 43, 47, 83, 88, 91, 95, 96, 98, 102, 106, 108, 110, 111].contains src ∨
      (8 ≤ src ∧ src ≤ 23 ∧ src % 2 = 1) then some logWarning
  else if [26, 81, 84, 86, 89, 99, 100, 101].contains src then some logFailure
  else if [34, 104, 107].contains src then some logFatal
  else none

/-- Sources whose Record column is not a dash. -/
def hasRecord (src : Nat) : Bool :=
  (vendorLog src).isSome || [25, 30, 33, 37, 40, 44, 80, 112, 113].contains src || (decide (48 ≤ src) && decide (src < 80))

/-- Ticks of 2.5 ns in 1 ms. -/
def perMs : Nat := 400000

/-- A vendor record of a source (R581). -/
def State.vendorRecord (s : State) (src log count ts : Nat) (detail : List Nat) : State :=
  let s := { s with mbx := { s.mbx with vendorAt := s.mbx.vendorAt.put src (s.time + 1)
                                        vendorHeld := s.mbx.vendorHeld.erase src } }
  s.form log { kind := .vendor, source := src, count := min count 0xFFFF, ts := ts, detail := detail.take 8 }

/-- A source had a vendor record less than 1 ms ago (R579). -/
def State.vendorRecent (s : State) (src : Nat) : Bool :=
  match s.mbx.vendorAt.find src with
  | some t => decide (s.time + 1 < t + perMs)
  | none => false

/-- An event of a source that has vendor records: it gives one, or waits for the next (R579). -/
def State.vendorEvent (s : State) (src log ts : Nat) (detail : List Nat) : State :=
  let old := s.mbx.vendorHeld.get (0, ts) src
  if s.vendorRecent src then
    { s with mbx := { s.mbx with vendorHeld := s.mbx.vendorHeld.put src (old.1 + 1, old.2) } }
  else s.vendorRecord src log (old.1 + 1) old.2 detail

/-- Performance Degraded is set (R579). -/
def State.degrade (s : State) : State := { s with mbx := { s.mbx with degraded := true } }

/-- A channel's health record (R580). -/
def State.channelRecord (s : State) (ch ts : Nat) : ChanEvent → State
  | .freeze => (s.form logFailure { kind := .memoryModule, source := ch, count := 1, ts := ts, what := 1 }).degrade
  | .training => s.form logFailure { kind := .memoryModule, source := ch, count := 1, ts := ts, what := 1 }
  | .spared => s.form logInfo { kind := .sparing, source := ch, count := 1, ts := ts }
  | .throttled => (s.form logWarning { kind := .memoryModule, source := ch, count := 1, ts := ts, what := 2 }).degrade

/-- The record of one FIFO entry (R576, R579). -/
def State.sourceRecord (s : State) (src ts : Nat) (line : Option Nat) (chan : ChanEvent) (detail : List Nat) : State :=
  if src = 25 ∨ src = 80 then s.form logFailure { kind := .generalMedia, count := 1, ts := ts, line := line, source := src }
  else if src = 112 then (s.form logWarning { kind := .memoryModule, count := 1, ts := ts, source := src }).degrade
  else if src = 113 then s.form logFailure { kind := .memoryModule, count := 1, ts := ts, source := src }
  else if 48 ≤ src ∧ src < 80 then (if src % 2 = 1 then s.channelRecord ((src - 49) / 2) ts chan else s)
  else
    match vendorLog src with
    | some log =>
      let s := s.vendorEvent src log ts detail
      if src = 100 then s.degrade else s
    | none => s

/-- The oldest entry of the fault FIFO is removed (R588). -/
def State.popFault (s : State) : Option (Nat × Nat) × State :=
  match s.flt.fifo with
  | [] => (none, s)
  | x :: rest => (some x, { s with flt := { s.flt with fifo := rest } }.wr FLT_FIFOSTAT.LEVEL rest.length)

/-- A record of a scrub summary, a repair or an overflow. The spec states no SOURCE for it: a free value. -/
def State.plainRecord (s : State) (log : Nat) : State :=
  let (n, s) := s.draw
  s.form log { kind := .vendor, source := n % 128, count := 1, ts := s.stamp }

/-- Horizon forms the record of an event, where it still owes one (R579, R580, R582). -/
def State.eventRecord (s : State) : EventCause → State
  | .fifo line chan detail =>
    match s.popFault with
    | (none, s) => s
    | (some (src, ts), s) => s.sourceRecord src ts line chan detail
  | .held src =>
    match s.mbx.vendorHeld.find src, vendorLog src with
    | some (count, ts), some log => if s.vendorRecent src then s else s.vendorRecord src log count ts []
    | _, _ => s
  | .sticky src =>
    if s.mbx.afterWarm.has src then
      let s := { s with mbx := { s.mbx with afterWarm := s.mbx.afterWarm.remove src } }
      if s.sticky src && hasRecord src && !(s.flt.fifo.any fun x => x.1 == src) then
        s.vendorRecord src ((vendorLog src).getD logWarning) 0 (s.rdAt FLT_SRCTS.TS src) []
      else s
    else s
  | .prior =>
    if s.mbx.priorDue then
      let (n, s) := { s with mbx := { s.mbx with priorDue := false } }.draw
      s.form logFatal { kind := .vendor, source := s.rd RST_LAST.SOURCE, count := 1, ts := n % 2 ^ 64
                        detail := [s.rdAt FLT_PRIOR.SRC 0, s.rdAt FLT_PRIOR.SRC 1] }
    else s
  | .poison line known =>
    match s.med.poison.find line with
    | some e =>
      if e.source = .internal ∧ s.mbx.told.find line ≠ some (e.ts + 1) then
        let s := { s with mbx := { s.mbx with told := s.mbx.told.put line (e.ts + 1) } }
        s.form logFailure { kind := if known then .dram else .generalMedia, count := 1, ts := e.ts, line := some line }
      else s
    | none => s
  | .pending line =>
    match s.med.pending.find line with
    | some ts =>
      if s.mbx.toldPending.find line ≠ some (ts + 1) then
        let s := { s with mbx := { s.mbx with toldPending := s.mbx.toldPending.put line (ts + 1) } }
        s.form logFailure { kind := .dram, count := 1, ts := ts }
      else s
    | none => s
  | .corrected channel threshold =>
    s.form logInfo { kind := .dram, source := channel, count := 1, ts := s.stamp, what := flag threshold }
  | .marked channel => s.form logWarning { kind := .dram, source := channel, count := 1, ts := s.stamp }
  | .expiry link ld cause dpaLine =>
    let (count, at') := s.mbx.expiries.get (0, 0) link
    if count < (s.link link).expiries ∧ (at' = 0 ∨ at' + perMs ≤ s.time + 1) then
      let s := { s with mbx := { s.mbx with expiries := s.mbx.expiries.put link ((s.link link).expiries, s.time + 1) } }
      s.placeRecord (s.ldIndex link ld).toList logWarning
        { kind := .generalMedia, source := link, count := 1, ts := s.stamp, line := some dpaLine, what := cause }
    else s
  | .scrub =>
    let s := { s with mbx := { s.mbx with horizonLog := s.mbx.horizonLog ++ [(s.stamp, 0x100)] } }
    s.plainRecord logInfo
  | .repair => s.plainRecord logInfo
  | .overflow => s.plainRecord logWarning

end Sys2Proof.Machine
end

