-- ==== Sys2Proof/Machine/FaultCmds.lean ====
section
/-! DEFINITION. Faults and events (20_faults_and_events.md): the sticky bits (R570), the chip reset (R574), the FIFO (R588), HBEAT
(R578), event records (R579), reactions and the interrupt (R571, R573, R577). -/

namespace Sys2Proof.Machine

/-- `v` is written to FLT_STICKYk; ERR_N is released with the last bit that holds it (R570, R577). -/
def State.clearSticky (s : State) (k v : Nat) : State :=
  if 1 < k then s else (s.writeField FLT_STICKY.SRC k v).driveErrn

/-- FLT_STICKY_CLEAR (R570, R584). -/
def execFltStickyClear (k v : Nat) (s : State) : Host.Outcome State Fault Refusal := (s.clearSticky k v).done

/-- CHIPRST (R574 step 4): 10 µs after the event, the cold reset with cause FAULT. -/
def execChiprst (s : State) : Host.Outcome State Fault Refusal :=
  match s.flt.chipReset with
  | some src => (s.coldReset causeFault 0 src).done
  | none => s.done

/-- The word of a FIFO entry (R588). -/
def fifoWord (x : Nat × Nat) : Nat := x.1 + 2 ^ 7 + x.2 % 2 ^ 56 * 2 ^ 8

/-- FLT_FIFO_READ (R588): the read returns the oldest entry and removes it; in the BAR2 view it returns 0 and removes nothing. -/
def execFltFifoRead (p : Path) (s : State) : Host.Outcome State Fault Refusal :=
  if p = .bar2 then (s.send (.regData 0)).done
  else
    match s.popFault with
    | (some x, s) => (s.send (.regData (fifoWord x))).done
    | (none, s) => (s.send (.regData 0)).done

/-- HBEAT_TOGGLE (R578, R554): in NIGHT the always-on domain keeps it toggling. -/
def execHbeatToggle (s : State) : Host.Outcome State Fault Refusal :=
  if s.heartGood || (s.chip.petted && s.rd PWR_STAT.STATE == 3) then
    ((s.put FLT_PINS.HBEAT (!s.on FLT_PINS.HBEAT)).wr FLT_PINS.HBCAUSE 0).done
  else s.done

/-- EVENT_RECORD (R579): Horizon forms a record; while it is not up it forms none. -/
def execEventRecord (e : EventCause) (s : State) : Host.Outcome State Fault Refusal :=
  if s.on ENG_STAT.HORIZON_UP then (s.eventRecord e).done else s.done

/-- The reactions of a source are written; fixed ones stay set (R573, R577). -/
def State.setReactions (s : State) (src v : Nat) : State :=
  let v := Nat.lor v (s.rdAt FLT_SRCCFG.FIXED src)
  (s.storeFields [FLT_SRCCFG.INT, FLT_SRCCFG.NMI, FLT_SRCCFG.BLKRST, FLT_SRCCFG.CHIPRST, FLT_SRCCFG.ERRN] src v).driveErrn

/-- FLT_INTCFG is written; a held INT goes out where that lets it (R571). -/
def State.setInterrupt (s : State) (v : Nat) : State :=
  (s.storeFields [FLT_INTCFG.LINK, FLT_INTCFG.VECTOR, FLT_INTCFG.EN] 0 v).releaseInterrupt

/-- FLT_SRCCFG_WRITE (R573, R577, R586): `v` is written for the selected source. -/
def execFltSrccfgWrite (p : Path) (v : Nat) (s : State) : Host.Outcome State Fault Refusal :=
  (s.setReactions (s.rdAt FLT_SRCSEL.SOURCE (pathCopy p)) v).done

/-- FLT_INTCFG_WRITE (R571, R587). -/
def execFltIntcfgWrite (v : Nat) (s : State) : Host.Outcome State Fault Refusal := (s.setInterrupt v).done

end Sys2Proof.Machine
end

