-- ==== Sys2Proof/Machine/MailCmds.lean ====
section
/-! DEFINITION. The standard commands on the command interfaces (R527–R532, R541, R542), with poison (R267), media scan (R271) and
dynamic capacity. Values are answered in the order in which the rule names them. -/

namespace Sys2Proof.Machine

/-! ### Common -/

/-- A command arrives on a CCI that exists and responds; one that only management accepts is Unsupported on a tenant CCI (R527,
R528). -/
def State.received (s : State) (cci : Nat) (mgmt : Bool) (run : State → State) : State :=
  if !s.cciExists cci || !s.mailReady then s
  else if mgmt && !s.cciManages cci then s.reply cci rcUnsupported []
  else run s

/-- The same, and while Sanitize or Secure Erase runs the answer is Busy (R531, R541). -/
def State.standard (s : State) (cci : Nat) (mgmt : Bool) (run : State → State) : State :=
  s.received cci mgmt fun s => if s.erasing then s.reply cci rcBusy [] else run s

/-- A background command is asked for: one at a time on a CCI (R541). -/
def State.inBackground (s : State) (cci : Nat) (run : State → State) : State :=
  if (s.cci cci).background.isSome then s.reply cci rcBusy [] else run s

/-- Device timestamps in ns (R530). -/
def toNs (t : Nat) : Nat := t * 5 / 2

/-- An answer of one value that the spec does not state. -/
def State.replyFree (s : State) (cci : Nat) (first : List Nat) : State :=
  let (n, s) := s.draw
  s.reply cci rcSuccess (first ++ [n])

/-- CCI_IDENTIFY (R528, R529): the device ID and the payload size. -/
def execCciIdentify (cci : Nat) (s : State) : Host.Outcome State Fault Refusal :=
  (s.standard cci false fun s => s.reply cci rcSuccess [s.rd SYS_ID.DEVID, 12]).done

/-! ### Background operations (R541, R542) -/

/-- Opcodes of the background commands. -/
def BgOp.code : BgOp → Nat
  | .scanMedia => 0x4304 | .sanitize => 0x4400 | .secureErase => 0x4401 | .transferFw => 0x0201 | .configWrite => 0xC004
  | .scrubRange => 0xC220 | .pairDiscard => 0xC304

/-- Percentage of a range that the scrub of an owner has passed; 0 while it waits for a context. -/
def State.scrubPercent (s : State) (o : ScrubOwner) : Nat :=
  match s.med.scrubs.find? fun e => e.2.owner == o with
  | some (_, w) => 100 * (w.cursor - w.start) / max (w.stop - w.start) 1
  | none => 0

/-- Percent complete (R541). Progress of a flash write, and of Secure Erase, is not stated by any command: a free value. -/
def State.percent (s : State) (cci : Nat) (b : Background) : Nat × State :=
  match b.op with
  | .scanMedia => (s.scrubPercent (.scanMedia cci), s)
  | .scrubRange => (s.scrubPercent (.kamcon cci), s)
  | .sanitize => (s.rd DMC_INITSTAT.PCT, s)
  | .configWrite => (0, s)
  | .pairDiscard => (100 * (b.total - s.committed.length - s.releasing.length) / max b.total 1, s)
  | .transferFw | .secureErase =>
    let (n, s) := s.draw
    (n % 101, s)

/-- BACKGROUND_OPERATION_STATUS (R541): whether one runs, its percentage, its opcode, and the return code of the last. -/
def execBackgroundOperationStatus (cci : Nat) (s : State) : Host.Outcome State Fault Refusal :=
  (s.received cci false fun s =>
    let x := s.cci cci
    match x.background with
    | some b =>
      let (n, s) := s.percent cci b
      s.reply cci rcSuccess [1, n, b.op.code, 0]
    | none =>
      match x.last with
      | some (op, code) => s.reply cci rcSuccess [0, 100, op.code, code]
      | none => s.reply cci rcSuccess [0, 0, 0, 0]).done

/-- REQUEST_ABORT_BACKGROUND_OPERATION (R542). With none running it succeeds and does nothing (PRESUMED). -/
def execRequestAbortBackgroundOperation (cci : Nat) (s : State) : Host.Outcome State Fault Refusal :=
  (s.received cci false fun s =>
    match (s.cci cci).background with
    | none => s.reply cci rcSuccess []
    | some b =>
      match b.op with
      | .scanMedia => (s.stopScrub (.scanMedia cci)).reply cci rcSuccess []
      | .scrubRange => (s.stopScrub (.kamcon cci)).reply cci rcSuccess []
      | _ => s.reply cci rcUnsupported []).done

/-- GET_RESPONSE_MESSAGE_LIMIT (R528): the exponent of the limit. -/
def execGetResponseMessageLimit (cci : Nat) (s : State) : Host.Outcome State Fault Refusal :=
  (s.standard cci false fun s => s.reply cci rcSuccess [(s.cci cci).limit]).done

/-- SET_RESPONSE_MESSAGE_LIMIT (R528): 256 B to 4 KiB. -/
def execSetResponseMessageLimit (cci exponent : Nat) (s : State) : Host.Outcome State Fault Refusal :=
  (s.standard cci false fun s =>
    if 8 ≤ exponent ∧ exponent ≤ 12 then (s.setCci cci { s.cci cci with limit := exponent }).reply cci rcSuccess [exponent]
    else s.reply cci rcInvalidInput []).done

/-! ### Event records (R529, R530) -/

/-- The words of a record: handle, kind, timestamp in ns, source, count, raw timestamp, DPA line plus 1 or 0, type, log words. -/
def EventRec.words (r : EventRec) : List Nat :=
  let kind := match r.kind with
    | .generalMedia => 0 | .dram => 1 | .memoryModule => 2 | .sparing => 3 | .vendor => 4 | .capacity => 5
  [r.handle, kind, toNs r.ts, r.source, r.count, r.ts, (r.line.map (· + 1)).getD 0, r.what] ++ r.detail

/-- Records of one response: 128 bytes each behind a 32-byte head, within the limit (PRESUMED: the standard's sizes). -/
def recordsPerResponse (limit : Nat) : Nat := (2 ^ limit - 32) / 128

/-- What GET_EVENT_RECORDS gives of a log (R529): the overflow and more flags, the overflow's count and times, the number of records,
then the records, oldest first. -/
def State.eventWords (s : State) (cci log : Nat) : List Nat :=
  let x := s.eventLog cci log
  let shown := x.records.take (recordsPerResponse (s.cci cci).limit)
  let flags := flag (x.lost != 0) + 2 * flag (decide (shown.length < x.records.length))
  [flags, x.lost, toNs x.firstLost, toNs x.lastLost, shown.length] ++ shown.flatMap EventRec.words

/-- GET_EVENT_RECORDS (R529). -/
def execGetEventRecords (cci log : Nat) (s : State) : Host.Outcome State Fault Refusal :=
  (s.standard cci false fun s =>
    if logCapacity < log then s.reply cci rcInvalidInput [] else s.reply cci rcSuccess (s.eventWords cci log)).done

/-- CLEAR_EVENT_RECORDS (R529): all of a log, after an overflow only, or the oldest ones by handle (PRESUMED: the standard's rules).
Records that go make room, and the overflow is over. -/
def execClearEventRecords (cci log : Nat) (all : Bool) (handles : List Nat) (s : State) : Host.Outcome State Fault Refusal :=
  (s.standard cci false fun s =>
    let x := s.eventLog cci log
    if logCapacity < log then s.reply cci rcInvalidInput []
    else if all then
      if x.lost = 0 then s.reply cci rcInvalidInput [] else (s.setEventLog cci log {}).reply cci rcSuccess []
    else if handles ≠ (x.records.take handles.length).map (fun r => r.handle) then s.reply cci rcInvalidHandle []
    else if handles.isEmpty then s.reply cci rcSuccess []
    else (s.setEventLog cci log { records := x.records.drop handles.length }).reply cci rcSuccess []).done

/-- GET_EVENT_INTERRUPT_POLICY (R529). -/
def execGetEventInterruptPolicy (cci : Nat) (s : State) : Host.Outcome State Fault Refusal :=
  (s.standard cci false fun s => s.reply cci rcSuccess (s.cci (logOwner cci)).policy).done

/-- SET_EVENT_INTERRUPT_POLICY (R529): by log, none or the CCI's message; another mode is not supported (PRESUMED: mode bits
[1:0]). -/
def execSetEventInterruptPolicy (cci : Nat) (policy : List Nat) (s : State) : Host.Outcome State Fault Refusal :=
  (s.standard cci false fun s =>
    let p := (List.range 5).map fun k => policy.getD k 0
    if p.any fun m => 1 < m % 4 then s.reply cci rcInvalidInput []
    else
      let k := logOwner cci
      (s.setCci k { s.cci k with policy := p }).reply cci rcSuccess []).done

/-! ### Firmware (R532) -/

/-- Two slots, the slot that runs, and the state and RELEASE of each slot's Zenith image (R532). -/
def State.fwWords (s : State) : List Nat :=
  let image := fun k => s.chip.flash.getD k {}
  [2, if s.on ENG_BOOTSTAT.ZSLOT then 2 else 1, flag (image 0).valid, (image 0).release, flag (image 3).valid, (image 3).release]

/-- GET_FW_INFO (R532). -/
def execGetFwInfo (cci : Nat) (s : State) : Host.Outcome State Fault Refusal :=
  (s.standard cci false fun s => s.reply cci rcSuccess s.fwWords).done

/-- The images of a flash slot are no longer what they were. -/
def State.spoilSlot (s : State) (k : Nat) : State :=
  { s with chip := { s.chip with flash := s.chip.flash.mapIdx fun i (x : FwImage) => if i / 3 = k then { x with valid := false } else x } }

/-- TRANSFER_FW (R532, R541): action 0 the whole package, 1 its beginning, 2 a further part, 3 its end, 4 abort; slot 1 or 2. `pkg` is
the package that the slot then holds. -/
def execTransferFw (cci action slot : Nat) (pkg : Package) (s : State) : Host.Outcome State Fault Refusal :=
  (s.standard cci true fun s => s.inBackground cci fun s =>
    if 4 < action ∨ slot = 0 ∨ 2 < slot then s.reply cci rcInvalidInput []
    else if s.areaBusy (slot - 1) then s.reply cci rcBusy []
    else
      let last := action = 0 ∨ action = 3
      let s := s.spoilSlot (slot - 1)
      (s.startBackground cci { op := .transferFw, area := some (slot - 1), package := if last then some pkg else none }).reply
        cci rcBackground []).done

/-- ACTIVATE_FW (R532): only offline activation (action 1) of slot 1; slot A is what the ROM tries first in any case. -/
def execActivateFw (cci action slot : Nat) (s : State) : Host.Outcome State Fault Refusal :=
  (s.standard cci true fun s =>
    if action = 1 ∧ slot = 1 then s.reply cci rcSuccess [] else s.reply cci rcInvalidInput []).done

/-! ### Time and logs (R529, R530) -/

/-- GET_TIMESTAMP (R530). -/
def execGetTimestamp (cci : Nat) (s : State) : Host.Outcome State Fault Refusal :=
  (s.standard cci false fun s => s.reply cci rcSuccess [toNs s.stamp]).done

/-- Set the device timestamp; the clock runs on (R501, R530). -/
def State.setStamp (s : State) (v : Nat) : State := { s with stampBase := (v % 2 ^ 64 + 2 ^ 64 - s.time % 2 ^ 64) % 2 ^ 64 }

/-- SET_TIMESTAMP (R530). -/
def execSetTimestamp (cci t : Nat) (s : State) : Host.Outcome State Fault Refusal :=
  (s.standard cci true fun s => (s.setStamp (2 * t / 5)).reply cci rcSuccess []).done

/-- GET_SUPPORTED_LOGS (R529): one log, the Command Effects Log; its size is not stated. -/
def execGetSupportedLogs (cci : Nat) (s : State) : Host.Outcome State Fault Refusal :=
  (s.standard cci false fun s => s.replyFree cci [1]).done

/-- GET_LOG (R529): `effects` says that the log named is the Command Effects Log; its contents are not stated. -/
def execGetLog (cci : Nat) (effects : Bool) (s : State) : Host.Outcome State Fault Refusal :=
  (s.standard cci false fun s => if effects then s.replyFree cci [] else s.reply cci rcInvalidLog []).done

/-! ### The memory device (R529) -/

/-- IDENTIFY_MEMORY_DEVICE (R529): total, volatile and persistent capacity, partition alignment, the largest poison list, the poison
injection limit. -/
def execIdentifyMemoryDevice (cci : Nat) (s : State) : Host.Outcome State Fault Refusal :=
  (s.standard cci false fun s => s.reply cci rcSuccess [s.dpaCap, s.dpaCap, 0, 0, poisonCapacity, 0]).done

/-- GET_HEALTH_INFO (R529, R579, R605): Maintenance Needed and Performance Degraded, the temperature, Dirty Shutdown Count, and the
corrected volatile error count, which the spec ties to no counter: a free value. -/
def execGetHealthInfo (cci : Nat) (s : State) : Host.Outcome State Fault Refusal :=
  (s.standard cci false fun s =>
    s.replyFree cci [flag s.mbx.maintenance, flag s.mbx.degraded, s.rd TEL_THERMSTAT.HOTTEST, 0]).done

/-- An alert threshold as two values: set or not, and its bits. -/
def alertWords : Option Int → List Nat
  | some t => [1, (t % 65536).toNat]
  | none => [0, 0]

/-- GET_ALERT_CONFIGURATION (R529): the over- and under-temperature thresholds, and that of corrected errors. -/
def execGetAlertConfiguration (cci : Nat) (s : State) : Host.Outcome State Fault Refusal :=
  (s.standard cci false fun s =>
    let x := s.cci cci
    s.reply cci rcSuccess (alertWords x.overTemp ++ alertWords x.underTemp ++ [flag x.ceAlert.isSome, x.ceAlert.getD 0])).done

/-- SET_ALERT_CONFIGURATION (R529): each alert named is set to a threshold or disabled; another alert is not supported. -/
def execSetAlertConfiguration (cci : Nat) (over' under : Option (Option Int)) (ce : Option (Option Nat)) (other : Bool) (s : State) :
    Host.Outcome State Fault Refusal :=
  (s.standard cci false fun s =>
    if other then s.reply cci rcInvalidInput []
    else
      let x := s.cci cci
      (s.setCci cci { x with overTemp := over'.getD x.overTemp, underTemp := under.getD x.underTemp, ceAlert := ce.getD x.ceAlert }).reply
        cci rcSuccess []).done

/-! ### Poison (R267) -/

/-- The claim of a DPA, where it serves and grants the LD. -/
def State.grantedClaim (s : State) (ld dpa : Nat) : Option Nat :=
  match s.claimOf dpa with
  | some c => if ld < 64 && s.claimServes c && s.grant c ld != grantNone then some c else none
  | none => none

/-- Every byte of a range lies in claims that grant the LD; `fuel` bounds the claims that it crosses. -/
def State.rangeGranted (s : State) (ld from' to' : Nat) : Nat → Bool
  | 0 => decide (to' ≤ from')
  | fuel + 1 =>
    decide (to' ≤ from') || match s.grantedClaim ld from' with
      | some c => s.rangeGranted ld (s.claimBase c + s.claimSize c) to' fuel
      | none => false

/-- The range is one that the LD of the CCI may ask about. A management CCI that is no LD's has no grant (R24). -/
def State.mayList (s : State) (cci from' to' : Nat) : Bool := s.rangeGranted cci from' to' (s.committed.length + 1)

/-- Source codes of the poison list (R262). -/
def PoisonSource.code : PoisonSource → Nat
  | .external => 1 | .internal => 2 | .injected => 3

/-- Adjacent listed lines of one source make one record: first line, source, lines, timestamp of the first. -/
def mergeLines : List (Nat × PoisonEntry) → List (Nat × Nat × Nat × Nat)
  | [] => []
  | (l, e) :: rest =>
    match mergeLines rest with
    | (l', src, n, ts) :: more =>
      if l' = l + 1 ∧ src = e.source.code then (l, src, n + 1, e.ts) :: more
      else (l, e.source.code, 1, e.ts) :: (l', src, n, ts) :: more
    | [] => [(l, e.source.code, 1, e.ts)]

/-- Records of a range of lines. -/
def State.poisonRecords (s : State) (first n : Nat) : List (Nat × Nat × Nat × Nat) :=
  mergeLines (s.med.poison.filter fun (e : Nat × PoisonEntry) => decide (first ≤ e.1) && decide (e.1 < first + n))

/-- What GET_POISON_LIST gives (R267, R529): the more and overflow flags, the overflow timestamp, the number of records, and each
record's DPA, source and lines. -/
def State.poisonWords (s : State) (first lines : Nat) : List Nat :=
  let rs := s.poisonRecords first lines
  let shown := rs.take 127
  let flags := flag (decide (127 < rs.length)) + 2 * s.rd MED_POISONSTAT.OVERFLOW
  [flags, toNs (s.rd MED_POISONOVTS.TS), shown.length] ++ shown.flatMap fun r => [r.1 * 64, r.2.1, r.2.2.1]

/-- GET_POISON_LIST (R267, R529). -/
def execGetPoisonList (cci dpa lines : Nat) (s : State) : Host.Outcome State Fault Refusal :=
  (s.standard cci false fun s =>
    if !s.mayList cci (dpa / 64 * 64) ((dpa / 64 + lines) * 64) then s.reply cci rcInvalidAddress []
    else s.reply cci rcSuccess (s.poisonWords (dpa / 64) lines)).done

/-- A full-line write by an LD, as a request of its host (R267). -/
def State.mailReq (s : State) (ld : Ld) (dpaLine claim : Nat) (data : Line) (injected : Bool) : OpenReq :=
  { id := s.nextReq, link := ld.link, ld := ld.number, tag := 0, op := .wr false, dpaLine := dpaLine, claim := claim, data := data
    mask := ByteMask.full, poison := injected, hdmDb := true, ts := s.time, answered := true, applied := false
    stage := .walk, granted := 0, homed := false, urgency := 0, missed := false, biWait := false, stalled := false
    sampled := false, injected := injected }

/-- A full-line write of a CCI's LD to a line, as a host write of that LD; the answer is the CCI's. A device that serves no host
request there refuses it (R33, R437). A link that is fenced writes nothing (R335). -/
def State.mailWrite (s : State) (cci dpaLine claim : Nat) (data : Line) (injected : Bool) (f : AccessFind) : State :=
  match s.lds.find cci with
  | none => s
  | some ld =>
    if !s.on SYS_CTL.DEV_ENABLE || s.pairState == pairFenced || !s.homeFor (dpaLine * 64) then s.reply cci rcInvalidInput []
    else
      let r := s.mailReq ld dpaLine claim data injected
      let s := s.reply cci rcSuccess []
      if s.onAt MAP_CLAIMATTR.SHARED claim && s.fenced ld.link then s.inc HAL_ERRCNT.FENCEDREQ else s.takeIn r f

/-- The claim that a line command may write; the answer is sent where it may not (R267). A READ grant is Invalid Input (DESIGN
CHOICE). -/
def State.lineCommand (s : State) (cci dpa : Nat) (run : Nat → State → State) : State :=
  match s.grantedClaim cci dpa with
  | none => s.reply cci rcInvalidAddress []
  | some c => if s.grant c cci = grantWrite then run c s else s.reply cci rcInvalidInput []

/-- INJECT_POISON (R267). -/
def execInjectPoison (cci dpa : Nat) (f : AccessFind) (s : State) : Host.Outcome State Fault Refusal :=
  (s.standard cci false fun s => s.lineCommand cci dpa fun c s =>
    let (d, s) := s.poisonData
    s.mailWrite cci (dpa / 64) c d true f).done

/-- CLEAR_POISON (R267). -/
def execClearPoison (cci dpa : Nat) (data : Line) (f : AccessFind) (s : State) : Host.Outcome State Fault Refusal :=
  (s.standard cci false fun s => s.lineCommand cci dpa fun c s =>
    if (s.entry (dpa / 4096)).state = .lost then s.reply cci rcInvalidInput [] else s.mailWrite cci (dpa / 64) c data false f).done

/-! ### Media scan (R271) -/

/-- The backed pages of a DPA range. -/
def State.backedIn (s : State) (from' len : Nat) : List Nat :=
  s.listedPages.filter fun p => decide (from' ≤ p * 4096) && decide (p * 4096 < from' + len) &&
    [PageState.stratus, .nimbus, .inFlight].contains (s.entry p).state

/-- The time that a scan of a range takes, in ms: the range's backed bytes divided by RATE (R271). -/
def State.scanTime (s : State) (from' len : Nat) : Nat :=
  ceilDiv ((s.backedIn from' len).map fun p => (s.entry p).loc.bytes).sum (s.rd MED_SCRUBCFG.RATE * 16000)

/-- GET_SCAN_MEDIA_CAPABILITIES (R271). -/
def execGetScanMediaCapabilities (cci dpa lines : Nat) (s : State) : Host.Outcome State Fault Refusal :=
  (s.standard cci false fun s => s.reply cci rcSuccess [s.scanTime dpa (lines * 64)]).done

/-- SCAN_MEDIA (R271): a logical scrub with VERIFY in the background. A range that R270 calls invalid is Invalid Input. -/
def execScanMedia (cci dpa lines : Nat) (s : State) : Host.Outcome State Fault Refusal :=
  (s.standard cci false fun s => s.inBackground cci fun s =>
    if !s.scrubRangeOk true 0 dpa (lines * 64) then s.reply cci rcInvalidInput []
    else ((s.startBackground cci { op := .scanMedia }).reply cci rcBackground []).startScrub (.scanMedia cci) true true 0 dpa
      (lines * 64)).done

/-- GET_SCAN_MEDIA_RESULTS (R271): the number of UE lines that the last scan found, at most 512, and the lines' DPAs. -/
def execGetScanMediaResults (cci : Nat) (s : State) : Host.Outcome State Fault Refusal :=
  (s.standard cci false fun s =>
    let ls := (s.cci cci).ueList.take 512
    s.reply cci rcSuccess (ls.length :: ls.map fun l => l * 64)).done

/-! ### Sanitize and Secure Erase (R531) -/

/-- Nothing holds memory: no claim is committed or releasing, and no snapshot slot is live. -/
def State.unused (s : State) : Bool := s.committed.isEmpty && s.releasing.isEmpty && s.liveSlots.isEmpty

/-- Background initialization starts again (R230). -/
def State.restartInit (s : State) : State :=
  let s := (s.wr DMC_INITSTAT.PCT 0).put DMC_INITSTAT.DONE false
  { s with dram := { s.dram with init := { running := s.on DMC_COMMIT.COMMIT, next := 0 } } }

/-- Start one of the two. -/
def State.startErase (s : State) (cci : Nat) (op : BgOp) : State :=
  s.inBackground cci fun s =>
    if s.unused then ((s.drawVeil.restartInit).startBackground cci { op := op }).reply cci rcBackground []
    else s.reply cci rcInvalidInput []

/-- SANITIZE (R531): new veil keys, then zeros in every rank, which is the background initialization. -/
def execSanitize (cci : Nat) (s : State) : Host.Outcome State Fault Refusal := (s.standard cci true fun s => s.startErase cci .sanitize).done

/-- SECURE_ERASE (R531): new veil keys, an empty metadata area, and background initialization again. -/
def execSecureErase (cci : Nat) (s : State) : Host.Outcome State Fault Refusal :=
  (s.standard cci true fun s => s.startErase cci .secureErase).done

/-- Every line of the channels that can be written holds zeros, without error or poison (R531). -/
def State.zeroMedia (s : State) : State :=
  let stays := fun line => s.frozen (lineChannel line)
  let s := { s with
    dram := { s.dram with mem := s.dram.mem.filter fun x => stays (x.1 / 64), poisoned := s.dram.poisoned.filter stays
                          init := { running := false, next := s.regionTotal } }
    med := { s.med with pending := s.med.pending.filter fun e => stays e.1 } }
  ((s.poisonStatus).wr DMC_INITSTAT.PCT 100).put DMC_INITSTAT.DONE true

/-! ### Dynamic capacity (R21, R529) -/

/-- Dynamic capacity blocks of 256 MiB (R21). -/
def capacityBlock : Nat := 2 ^ 28

/-- An extent is whole blocks, in a committed claim that grants the LD (R529). -/
def State.extentOk (s : State) (ld : Nat) (x : Nat × Nat) : Bool :=
  x.1 % capacityBlock == 0 && x.2 % capacityBlock == 0 && x.2 != 0 && match s.claimOf x.1 with
    | some c => s.grant c ld != grantNone && decide (x.1 + x.2 ≤ s.claimBase c + s.claimSize c)
    | none => false

/-- An extent lies within another. -/
def within (x y : Nat × Nat) : Bool := decide (y.1 ≤ x.1) && decide (x.1 + x.2 ≤ y.1 + y.2)

/-- Two extents overlap. -/
def meet (x y : Nat × Nat) : Bool := decide (x.1 < y.1 + y.2) && decide (y.1 < x.1 + x.2)

/-- What is left of an extent without another. -/
def cutExtent (x y : Nat × Nat) : List (Nat × Nat) :=
  if !meet x y then [x]
  else (if x.1 < y.1 then [(x.1, y.1 - x.1)] else []) ++
    (if y.1 + y.2 < x.1 + x.2 then [(y.1 + y.2, x.1 + x.2 - (y.1 + y.2))] else [])

/-- An extent's pages become UNBACKED (R70, R529). -/
def State.discardExtent (s : State) (x : Nat × Nat) : State :=
  (s.backedIn x.1 x.2).foldl (fun s p => (s.bumpMove p).askUnback p) s

/-- A list of extents, as the values of an answer. -/
def extentWords (xs : List (Nat × Nat)) : List Nat := xs.length :: xs.flatMap fun x => [x.1, x.2]

/-- GET_DYNAMIC_CAPACITY_CONFIGURATION (R529): the LD's regions and the block size. -/
def execGetDynamicCapacityConfiguration (cci : Nat) (s : State) : Host.Outcome State Fault Refusal :=
  (s.standard cci false fun s => s.reply cci rcSuccess (capacityBlock :: extentWords (s.mbx.regions.get [] cci))).done

/-- GET_DC_EXTENT_LIST (R529). -/
def execGetDcExtentList (cci : Nat) (s : State) : Host.Outcome State Fault Refusal :=
  (s.standard cci false fun s => s.reply cci rcSuccess (extentWords (s.mbx.extents.get [] cci))).done

/-- The extents that an LD may accept: each one that the device may give, inside the offer, and apart from what the LD holds (R529). -/
def State.extentsFit (s : State) (ld : Nat) (xs : List (Nat × Nat)) : Bool :=
  xs.all fun x => s.extentOk ld x && ((s.mbx.offers.get [] ld).any fun o => within x o) &&
    !((s.mbx.extents.get [] ld).any fun h => meet x h)

/-- The LD holds the extents that it accepted, and the offer is over (PRESUMED: the standard's rule). -/
def State.takeExtents (s : State) (ld : Nat) (xs : List (Nat × Nat)) : State :=
  { s with mbx := { s.mbx with offers := s.mbx.offers.erase ld
                               extents := s.mbx.extents.set [] ld (s.mbx.extents.get [] ld ++ xs) } }

/-- The extents that an LD may give back: whole blocks of what it holds (R529). -/
def State.extentsHeld (s : State) (ld : Nat) (xs : List (Nat × Nat)) : Bool :=
  xs.all fun x => x.1 % capacityBlock == 0 && x.2 % capacityBlock == 0 && x.2 != 0 &&
    (s.mbx.extents.get [] ld).any fun h => within x h

/-- The LD holds the extents no more, and their pages are UNBACKED (R529, R70). -/
def State.giveExtents (s : State) (ld : Nat) (xs : List (Nat × Nat)) : State :=
  let rest := xs.foldl (fun (hs : List (Nat × Nat)) x => hs.flatMap fun h => cutExtent h x) (s.mbx.extents.get [] ld)
  xs.foldl State.discardExtent { s with mbx := { s.mbx with extents := s.mbx.extents.set [] ld rest } }

/-- ADD_DC_RESPONSE (R529): the host accepts extents of what it was offered. An extent outside the offer, or one that the device may
not give, is Invalid Input. -/
def execAddDcResponse (cci : Nat) (xs : List (Nat × Nat)) (s : State) : Host.Outcome State Fault Refusal :=
  (s.standard cci false fun s =>
    if s.extentsFit cci xs then (s.takeExtents cci xs).reply cci rcSuccess [] else s.reply cci rcInvalidInput []).done

/-- RELEASE_DYNAMIC_CAPACITY (R529, R70): extents that the LD holds are given back, and their pages become UNBACKED. -/
def execReleaseDynamicCapacity (cci : Nat) (xs : List (Nat × Nat)) (s : State) : Host.Outcome State Fault Refusal :=
  (s.standard cci false fun s =>
    if s.extentsHeld cci xs then (s.giveExtents cci xs).reply cci rcSuccess [] else s.reply cci rcInvalidInput []).done

/-! ### Other outcomes (R527–R529, R541) -/

/-- UNSUPPORTED_COMMAND (R527, R529, R535). -/
def execUnsupportedCommand (cci : Nat) (s : State) : Host.Outcome State Fault Refusal :=
  (s.received cci false fun s => s.reply cci rcUnsupported []).done

/-- No Kamcon command waits for its result any more. -/
def State.stopWaiting (s : State) : State := { s with mbx := { s.mbx with waiting := none } }

/-- COMMAND_TIMEOUT (R528): hardware completes the CCI's foreground command. The operation that it waits for goes on by itself; a command
that is still held may be carried out or not: a free value says which. -/
def execCommandTimeout (cci : Nat) (s : State) : Host.Outcome State Fault Refusal :=
  match s.mbx.waiting with
  | some (k, _) =>
    if k = cci then (s.stopWaiting.reply cci rcInternal []).done
    else
      match s.mbx.queue.findIdx? fun q => q.1 == cci && !q.2.1 with
      | none => s.done
      | some i =>
        let (n, s) := s.draw
        let q := if n % 2 = 0 then s.mbx.queue.eraseIdx i
          else s.mbx.queue.mapIdx fun j (x : Nat × Bool × Instr) => if j = i then (x.1, true, x.2.2) else x
        ({ s with mbx := { s.mbx with queue := q } }.reply cci rcInternal []).done
  | none => s.done

/-- The package that a slot holds, as it verifies (R532). -/
def State.storePackage (s : State) (slot : Nat) (p : Package) : State :=
  ((s.noteImage (3 * slot) 1 p.zenith).noteImage (3 * slot + 1) 2 p.horizon).noteDrift (3 * slot + 2) p.drift

/-- It verifies as the ROM would verify it. -/
def State.packageOk (s : State) (p : Package) : Bool :=
  s.imageCause p.zenith 1 == 0 && s.imageCause p.horizon 2 == 0 && p.drift.all fun x => s.imageCause x 3 == 0

/-- BACKGROUND_OPERATION_END (R541): a write of flash, or an erasure, has ended; `ok` says that the read-back passed. Scrubs end with
their context (R270), and a discard with DISCARD_END. -/
def execBackgroundOperationEnd (cci : Nat) (ok : Bool) (s : State) : Host.Outcome State Fault Refusal :=
  match (s.cci cci).background with
  | none => s.done
  | some b =>
    match b.op with
    | .sanitize => (s.zeroMedia.endBackground cci rcSuccess).done
    | .secureErase => (s.endBackground cci rcSuccess).done
    | .transferFw =>
      match b.package, b.area with
      | some p, some k =>
        let s := s.storePackage k p
        if s.packageOk p then (s.endBackground cci rcSuccess).done else ((s.spoilSlot k).endBackground cci rcInvalidInput).done
      | _, _ => (s.endBackground cci rcSuccess).done
    | .configWrite =>
      let first := olderCopy s.chip.copy0 s.chip.copy1 = 0
      let new := if ok then b.config else none
      let s := if first then { s with chip := { s.chip with copy0 := new } } else { s with chip := { s.chip with copy1 := new } }
      (s.endBackground cci (if ok then rcSuccess else rcInvalidInput)).done
    | .scanMedia | .scrubRange | .pairDiscard => s.done

end Sys2Proof.Machine
end

