-- ==== Sys2Proof/Machine/FmCmds.lean ====
section
/-! DEFINITION. Fabric manager commands (R21, R24, R25): LD allocations, device and head information, dynamic capacity. -/

namespace Sys2Proof.Machine

/-- The FM API is accepted over MCTP and through the FM-owned LDs (R24). -/
def State.fabric (s : State) (cci : Nat) (run : State → State) : State :=
  s.standard cci false fun s => if 64 ≤ cci then run s else s.reply cci rcUnsupported []

/-! ### LD allocations (R24, R53) -/

/-- LDs of a link. -/
def State.ldCount (s : State) (link : Nat) : Nat := (s.ldsOn link).length

/-- The port of an LD index (R53). -/
def ldPort (ld : Nat) : Nat := ld / 16

/-- The index that an LD has after its port's links hold `n0` and `n1` LDs; none for an LD that is removed (R53). -/
def Ld.newIndex (x : Ld) (port n0 n1 : Nat) : Option Nat :=
  if x.link = 2 * port then (if x.number < n0 then some (16 * port + x.number) else none)
  else if x.number < n1 then some (16 * port + n0 + x.number) else none

/-- What becomes of an index of any port. -/
def State.renumber (s : State) (port n0 n1 ld : Nat) : Option Nat :=
  if ld ≥ 64 ∨ ldPort ld ≠ port then some ld
  else (s.lds.find ld).bind fun x => x.newIndex port n0 n1

/-- A table by LD under new indexes. -/
def moveTable {α : Type} (f : Nat → Option Nat) (t : Table α) : Table α :=
  t.foldl (fun (r : Table α) e => match f e.1 with
    | some k => r.put k e.2
    | none => r) []

/-- The LDs of a port that a command removes. -/
def State.removedLds (s : State) (port n0 n1 : Nat) : List Nat :=
  (s.lds.filter fun (e : Nat × Ld) => ldPort e.1 == port && (e.2.newIndex port n0 n1).isNone).map Prod.fst

/-- An LD has a committed decoder. -/
def State.ldBusy (s : State) (ld : Nat) : Bool := s.decoders.any fun e => e.1 / 32 == ld && e.2.committed

/-- LDs that a command creates. -/
def State.createdLds (s : State) (port n0 n1 : Nat) : Nat := (n0 - s.ldCount (2 * port)) + (n1 - s.ldCount (2 * port + 1))

/-- Decoders in the free pool, once removed LDs have given theirs back. -/
def State.freeDecoders (s : State) (gone : List Nat) : Nat :=
  32 - ((s.lds.filter fun e => !gone.contains e.1).map fun e => e.2.alloc).sum

/-- The reason of a refusal, in the order of R24; 0 where there is none. -/
def State.ldSplitCheck (s : State) (port n0 n1 : Nat) : Nat :=
  let gone := s.removedLds port n0 n1
  let others := (s.lds.filter fun e => ldPort e.1 != port).length
  firstCode [
    (gone.any s.ldBusy, 0x13),
    (decide (16 < n0 + n1) || decide (32 < others + n0 + n1), 0x14),
    (decide (s.freeDecoders gone < s.createdLds port n0 n1), 0x10)]

/-- Grants of committed claims to LD indexes that do not exist become NONE (R53). -/
def State.clearGrants (s : State) : State :=
  (s.committed ++ s.releasing).foldl (fun s c =>
    let keep := fun lo v => ((List.range 32).map fun k => if s.ldExists (lo + k) then bits v (2 * k) 2 * 4 ^ k else 0).sum
    (s.wrAt MAP_CLAIMGRANT0.GRANTS c (keep 0 (s.rdAt MAP_CLAIMGRANT0.GRANTS c))).wrAt MAP_CLAIMGRANT1.GRANTS c
      (keep 32 (s.rdAt MAP_CLAIMGRANT1.GRANTS c))) s

/-- The scrub of an LD's CCI follows its LD. -/
def ScrubOwner.move (f : Nat → Option Nat) : ScrubOwner → ScrubOwner
  | .scanMedia k => .scanMedia ((f k).getD k)
  | o => o

/-- The LDs of a port are as a command asks (R24 steps 2 to 4). What a kept LD holds moves to its new index; grants stay with the index
(R53). -/
def State.splitLds (s : State) (port n0 n1 : Nat) : State :=
  let s := (s.removedLds port n0 n1).foldl (fun s k => s.stopScrub (.scanMedia k)) s
  let f := s.renumber port n0 n1
  let kept := moveTable f s.lds
  let want := ((List.range n0).map fun i => (16 * port + i, 2 * port, i)) ++
    ((List.range n1).map fun i => (16 * port + n0 + i, 2 * port + 1, i))
  let lds := want.foldl (fun (t : Table Ld) (w : Nat × Nat × Nat) =>
    if (t.find w.1).isSome then t else t.put w.1 ⟨w.2.1, w.2.2, 1⟩) kept
  { s with
    lds := lds
    decoders := moveTable (fun k => (f (k / 32)).map fun ld => ld * 32 + k % 32) s.decoders
    med := { s.med with scrubs := s.med.scrubs.map fun (e : Nat × Scrub) => (e.1, ({ e.2 with owner := ScrubOwner.move f e.2.owner } : Scrub))
                        scrubWait := s.med.scrubWait.map fun (w : Scrub) => { w with owner := ScrubOwner.move f w.owner } }
    mbx := { s.mbx with ccis := moveTable f s.mbx.ccis, regions := moveTable f s.mbx.regions
                        offers := moveTable f s.mbx.offers, extents := moveTable f s.mbx.extents } }.clearGrants

/-- Horizon records the reason of a refusal (R24). -/
def State.noteReason (s : State) (code : Nat) : State :=
  { s with mbx := { s.mbx with horizonLog := s.mbx.horizonLog ++ [(s.stamp, code)] } }

/-- FM_SET_LD_ALLOCATIONS (R24): `n0` and `n1` LDs on the links of a port in MLD mode. A port that is not, or a link that does not
exist, is Invalid Input. -/
def execFmSetLdAllocations (cci port n0 n1 : Nat) (s : State) : Host.Outcome State Fault Refusal :=
  (s.fabric cci fun s =>
    if 4 ≤ port ∨ !s.onAt LNK_PORTCFG.MLD port ∨ (n1 ≠ 0 ∧ !s.hasLink (2 * port + 1)) then s.reply cci rcInvalidInput []
    else
      let code := s.ldSplitCheck port n0 n1
      if code = 0 then (s.splitLds port n0 n1).reply cci rcSuccess [n0, n1]
      else (s.noteReason code).reply cci rcInvalidInput []).done

/-- FM_GET_LD_ALLOCATIONS (R24): LDs on the two links of a port. -/
def execFmGetLdAllocations (cci port : Nat) (s : State) : Host.Outcome State Fault Refusal :=
  (s.fabric cci fun s =>
    if 4 ≤ port then s.reply cci rcInvalidInput []
    else s.reply cci rcSuccess [s.ldCount (2 * port), s.ldCount (2 * port + 1)]).done

/-! ### Information (R21) -/

/-- FM_LD_INFO (R21): memory size, and LDs of the device. -/
def execFmLdInfo (cci : Nat) (s : State) : Host.Outcome State Fault Refusal :=
  (s.fabric cci fun s => s.reply cci rcSuccess [s.dpaCap, s.lds.length]).done

/-- Heads of the device: the links that exist (R16, R21). -/
def State.heads (s : State) : List Nat := (List.range 8).filter s.hasLink

/-- FM_MULTI_HEADED_INFO (R21): LDs, heads, and the head of each LD in the order of LD indexes. -/
def execFmMultiHeadedInfo (cci : Nat) (s : State) : Host.Outcome State Fault Refusal :=
  (s.fabric cci fun s =>
    s.reply cci rcSuccess ([s.lds.length, s.heads.length] ++ s.lds.map fun (e : Nat × Ld) => e.2.link)).done

/-- FM_HEAD_INFO (R21): port, configured width, and whether the link is up with its rate and width. -/
def execFmHeadInfo (cci link : Nat) (s : State) : Host.Outcome State Fault Refusal :=
  (s.fabric cci fun s =>
    if !s.hasLink link then s.reply cci rcInvalidInput []
    else s.reply cci rcSuccess [link / 2, if s.onAt LNK_PORTCFG.BIF (link / 2) then 8 else 16, s.rdAt LNK_LSTAT.UP link,
      s.rdAt LNK_LSTAT.RATE link, s.rdAt LNK_LSTAT.WIDTH link]).done

/-! ### Dynamic capacity (R21) -/

/-- Regions that an LD may have. -/
def regionLimit : Nat := 8

/-- A set of regions is one that the device can have: whole blocks within MAP_DPACAP that do not overlap (PRESUMED). -/
def State.regionsOk (s : State) (rs : List (Nat × Nat)) : Bool :=
  decide (rs.length ≤ regionLimit) &&
    (rs.all fun x => x.1 % capacityBlock == 0 && x.2 % capacityBlock == 0 && x.2 != 0 && decide (x.1 + x.2 ≤ s.dpaCap)) &&
    decide (rs.Pairwise fun x y => !meet x y)

/-- An event of an LD's Dynamic Capacity log: 0 capacity added, 1 release asked for, 2 forced removal (PRESUMED: the standard's
record). -/
def State.capacityEvent (s : State) (ld what : Nat) (x : Nat × Nat) : State :=
  let r : EventRec := { handle := s.mbx.nextHandle, kind := .capacity, ts := s.stamp, line := some (x.1 / 64), what := what
                        detail := [x.1, x.2] }
  ({ s with mbx := { s.mbx with nextHandle := s.mbx.nextHandle % 0xFFFF + 1 } }).logRecord r logCapacity ld

/-- FM_DCD_MANAGEMENT (R21, R529): an extent that is offered lies in a region of the LD and in a committed claim that grants it. -/
def execFmDcdManagement (cci : Nat) (op : DcdOp) (s : State) : Host.Outcome State Fault Refusal :=
  (s.fabric cci fun s =>
    let answer := fun (s : State) (ok : Bool) => s.reply cci (if ok then rcSuccess else rcInvalidInput) []
    match op with
    | .info => s.reply cci rcSuccess [s.lds.length, regionLimit, capacityBlock, s.dpaCap]
    | .regions ld => s.reply cci rcSuccess (extentWords (s.mbx.regions.get [] ld))
    | .extents ld => s.reply cci rcSuccess (extentWords (s.mbx.extents.get [] ld))
    | .configure ld rs =>
      if s.ldExists ld && s.regionsOk rs && (s.mbx.extents.get [] ld).isEmpty then
        answer { s with mbx := { s.mbx with regions := s.mbx.regions.set [] ld rs } } true
      else answer s false
    | .add ld xs =>
      let regions := s.mbx.regions.get [] ld
      let held := s.mbx.extents.get [] ld ++ s.mbx.offers.get [] ld
      if s.ldExists ld && xs.all fun x => s.extentOk ld x && (regions.any fun r => within x r) && !(held.any fun h => meet x h) then
        let s := { s with mbx := { s.mbx with offers := s.mbx.offers.set [] ld (s.mbx.offers.get [] ld ++ xs) } }
        answer (xs.foldl (fun s x => s.capacityEvent ld 0 x) s) true
      else answer s false
    | .release ld xs forced =>
      let held := s.mbx.extents.get [] ld
      if xs.all fun x => held.any fun h => within x h then
        let s := xs.foldl (fun s x => s.capacityEvent ld (if forced then 2 else 1) x) s
        if forced then
          let rest := xs.foldl (fun (hs : List (Nat × Nat)) x => hs.flatMap fun h => cutExtent h x) held
          answer (xs.foldl State.discardExtent { s with mbx := { s.mbx with extents := s.mbx.extents.set [] ld rest } }) true
        else answer s true
      else answer s false).done

end Sys2Proof.Machine
end

