-- ==== Sys2Proof/Machine/HaloCmds.lean ====
section
/-! DEFINITION. Halo's commands and events (11_coherence_halo_directory.md): answers to back-invalidates (R327, R328), their timer
(R334), the grant hold (R331), background evictions (R333), and fences (R335, R336). -/

namespace Sys2Proof.Machine

/-- The open back-invalidate of a line that waits for an answer of an LD. -/
def State.awaited (s : State) (link ld dpaLine : Nat) : Option BackInv :=
  s.hal.trackers.find? fun t => t.line == dpaLine && t.waits.contains (link, ld)

/-- An answer whose back-invalidate is over for its link: late and discarded, or a protocol error (R334, R341). -/
def State.strayAnswer (s : State) (link dpaLine : Nat) : State :=
  if s.hal.late.contains (dpaLine, link) then
    { s with hal := { s.hal with late := s.hal.late.erase (dpaLine, link) } }.inc HAL_ERRCNT.LATERSP
  else s.halProtocol

/-- BIRSP (R327): BIRspI, or BIRspS where `shared`, from an LD. -/
def execBirsp (link ld dpaLine : Nat) (shared : Bool) (s : State) : Host.Outcome State Fault Refusal :=
  match s.awaited link ld dpaLine with
  | none => (s.strayAnswer link dpaLine).done
  | some t =>
    let s := if shared && t.inv then s.halProtocol else s
    ((s.answerBi t link ld shared).revoking).done

/-- The acknowledgement of a conflict goes after the completion of request `id`. -/
def State.holdAck (s : State) (id link ld dpaLine : Nat) : State :=
  { s with hal := { s.hal with acks := s.hal.acks ++ [(id, link, ld, dpaLine)] } }

/-- BICONFLICT (R328): the acknowledgement goes at once, or after the completion of the holder's request that the home ordered
first. -/
def execBiconflict (link ld dpaLine : Nat) (s : State) : Host.Outcome State Fault Refusal :=
  match s.awaited link ld dpaLine with
  | none => (s.strayAnswer link dpaLine).done
  | some _ =>
    let s := s.event Ev.biConflicts link
    match s.reqs.find? fun r => r.link == link && r.ld == ld && r.dpaLine == dpaLine && r.homed && !r.answered with
    | some r => (s.holdAck r.id link ld dpaLine).done
    | none => (s.send (.biConflictAck link ld dpaLine)).done

/-- T_BI_EXPIRY (R334): the timer of a line's back-invalidate has reached T_BI. -/
def execTBiExpiry (dpaLine : Nat) (s : State) : Host.Outcome State Fault Refusal :=
  match s.hal.trackers.find? fun t => t.line == dpaLine with
  | none => s.done
  | some t =>
    let silent := (List.range 8).filter fun n => t.waits.any fun w => w.1 == n
    ((s.cutOff t silent toTimer).revoking).done

/-- GRANT_HOLD_END (R331): the hold of a line has run out. -/
def execGrantHoldEnd (dpaLine : Nat) (s : State) : Host.Outcome State Fault Refusal :=
  (s.advanceLine dpaLine true 512).haloStatus.done

/-- BACKGROUND_EVICTION (R333): a set that has fewer INVALID ways than FREEWAYS evicts an entry, when a tracker is free and no
other transaction waits for one (R330). -/
def execBackgroundEviction (set : Nat) (s : State) : Host.Outcome State Fault Refusal :=
  if s.rd HAL_TIMING.FREEWAYS ≤ (s.freeDirWays set).length || !s.trackerFree then s.done
  else
    match s.dirVictim set with
    | none => s.done
    | some k =>
      let waited := match s.hal.dir.find k with
        | some e => !(s.waitsFor e.line).isEmpty
        | none => true
      if waited then s.done
      else
        match s.evictDir k .background 0 with
        | none => s.haloStatus.done
        | some s => s.haloStatus.done

/-! ### Fences (R335, R336) -/

/-- A link's fence ends. -/
def State.unfence (s : State) (link : Nat) : State :=
  let s := s.wr HAL_HOSTSTAT.FENCED (setBit (s.rd HAL_HOSTSTAT.FENCED) link false)
  { s with hal := { s.hal with unfenceLater := s.hal.unfenceLater.remove link } }

/-- The links of a mask are fenced (R335). -/
def State.fenceLinks (s : State) (mask : Nat) : State :=
  ((List.range 8).filter fun n => bit mask n).foldl (fun s n => ((s.fenceLink n).cutLink n toFence).revoking) s

/-- The fences of the links of a mask end; where a fence sweep runs, after it (R336). -/
def State.unfenceLinks (s : State) (mask : Nat) : State :=
  ((List.range 8).filter fun n => bit mask n && s.fenced n).foldl (fun s n =>
    if bit (s.rd HAL_HOSTSTAT.SWEEP) n then
      { s with hal := { s.hal with unfenceLater := s.hal.unfenceLater.add n } }
    else s.unfence n) s

/-- The peaks are cleared (R345). -/
def State.clearPeaks (s : State) : State := (s.wr HAL_PEAK.WAITMAX 0).wr HAL_PEAK.BIMAX 0

/-- HAL_FENCE (R335, R344): the FENCE bits of a write of HAL_HOSTCTL. -/
def execHalFence (mask : Nat) (s : State) : Host.Outcome State Fault Refusal := (s.fenceLinks mask).done

/-- HAL_UNFENCE (R336, R344): the UNFENCE bits of a write of HAL_HOSTCTL, without the links that the same write fences. -/
def execHalUnfence (mask : Nat) (s : State) : Host.Outcome State Fault Refusal := (s.unfenceLinks mask).done

/-- The sweep of a fence has taken the link out of every directory entry (R335). -/
def State.endFenceSweep (s : State) (link : Nat) : State :=
  let s := (s.hal.dir.map fun e => e.2.line).foldl (fun s l => s.fenceLine l link) s
  let s := s.wr HAL_HOSTSTAT.SWEEP (setBit (s.rd HAL_HOSTSTAT.SWEEP) link false)
  (if s.hal.unfenceLater.has link then s.unfence link else s).haloStatus

/-- FENCE_SWEEP_END (R335, R336): a link's fence sweep has visited every set. -/
def execFenceSweepEnd (link : Nat) (s : State) : Host.Outcome State Fault Refusal :=
  if bit (s.rd HAL_HOSTSTAT.SWEEP) link then
    (s.endFenceSweep link).done
  else s.done

/-- HAL_PEAK_CLEAR (R345): a write of 1 to HAL_PEAK.CLEAR. -/
def execHalPeakClear (s : State) : Host.Outcome State Fault Refusal :=
  .next s.clearPeaks

end Sys2Proof.Machine
end

