-- ==== Sys2Proof/Machine/QosCmds.lean ====
section
/-! DEFINITION. The regulator's windows (13_bandwidth_regulation.md): refill, yield and profiles (R387, R392, R396), the decode of
waiting host requests (R388), and priorities (R390). -/

namespace Sys2Proof.Machine

/-! ### Windows (R387, R392, R396) -/

/-- Every HOST master stays below urgency 2. -/
def State.hostsCalm (s : State) : Bool := (List.range 8).all fun m => decide (s.rdAt QOS_STAT.URGENCY m < 2)

/-- Rate of a master in the window that starts: RATE, or its YIELD fraction while yielding, never below 1 (R392). -/
def State.windowRate (s : State) (m : Nat) : Nat :=
  let rate := s.profile QOS_BUCKET.RATE m
  if background m && s.on QOS_STATUS.YIELDING then max 1 (rate / 2 ^ s.profile QOS_BUCKET.YIELD m) else rate

/-- Depth of a master's bucket: a BURST below RATE acts as RATE. -/
def State.burst (s : State) (m : Nat) : Nat := max (s.profile QOS_BUCKET.BURST m) (s.profile QOS_BUCKET.RATE m)

/-- A waiting profile becomes active; TOKENS are clamped to the new BURST (R396). -/
def State.takeProfile (s : State) : State :=
  if !s.qos.applying then s
  else
    let active := profileFields.foldl (fun t f =>
      (List.range 15).foldl (fun t m => Table.set t (f.resetAt m) (f.key m) (s.rdAt f m)) t) s.qos.active
    let s := { s with qos := { s.qos with active := active, applying := false } }.put QOS_PROFILE.ENABLE false
    (List.range 15).foldl (fun s m => s.wrAt QOS_STAT.TOKENS m (min (s.rdAt QOS_STAT.TOKENS m) (s.burst m))) s

/-- The window of one master ends and the next begins: its counts, and its refill. -/
def State.refill (s : State) (m : Nat) : State :=
  if s.profile QOS_BUCKET.RATE m = 0 then s.wrAt QOS_STAT.TOKENS m 0
  else
    let left := s.rdAt QOS_STAT.TOKENS m
    let s := if left = 0 then (s.incAt QOS_CNT.EMPTY m).event Ev.bucketEmpty m else s
    let s := if background m && s.on QOS_STATUS.YIELDING then s.event Ev.yieldWindows m else s
    s.wrAt QOS_STAT.TOKENS m (min (s.burst m) (left + s.windowRate m))

/-- The oldest request of a HOST master that is not answered. -/
def State.oldestReq (s : State) (m : Nat) : Option OpenReq := s.reqs.find? fun r => r.link == m && !r.answered

/-- AGE and PRIORITY of a HOST master follow its oldest request (R401). -/
def State.showOldest (s : State) (m : Nat) : State :=
  match s.oldestReq m with
  | none => (s.wrAt QOS_STAT.AGE m 0).wrAt QOS_STAT.PRIORITY m 0
  | some r => (s.wrAt QOS_STAT.AGE m (min ((s.time - r.ts) / 4) 0xFFFF)).wrAt QOS_STAT.PRIORITY m (max r.urgency r.prio)

/-- Decode the requests that waited at their ports, as far as tokens reach, each link in order (R388). -/
def State.decodePort : List (Nat × Instr) → State → State
  | [], s => s
  | (link, i) :: rest, s =>
    match i with
    | .memRead link number tag hpa kind f =>
      decodePort rest (s.decodeSlot i link number tag hpa kind.op 0 ByteMask.full false f)
    | .memWrite link number tag hpa shared data mask poison f =>
      decodePort rest (s.decodeSlot i link number tag hpa (.wr shared) data mask poison f)
    | .memClnEvct link number tag hpa f =>
      decodePort rest (s.decodeSlot i link number tag hpa .evict 0 ByteMask.full false f)
    | _ => decodePort rest { s with qos := { s.qos with port := s.qos.port ++ [(link, i)] } }

/-- A window ends and the next one begins: the waiting profile, the yield, the refills, the ages. -/
def State.nextWindow (s : State) : State :=
  let yielding := s.qos.urgent || !s.hostsCalm
  let s := s.takeProfile.put QOS_STATUS.YIELDING yielding
  let s := { s with qos := { s.qos with urgent := !s.hostsCalm } }
  let s := (List.range 15).foldl (fun s m => s.refill m) s
  (List.range 8).foldl (fun s m =>
    match s.oldestReq m with
    | some r => (s.occur Ev.oldestAge m ((s.time - r.ts) / 4) none).showOldest m
    | none => s.showOldest m) s

/-- The requests that wait at their ports are decoded again. -/
def State.decodeWaiting (s : State) : State := State.decodePort s.qos.port { s with qos := { s.qos with port := [] } }

/-- TOKEN_WINDOW (R387, R388, R392, R396): a window boundary. -/
def execTokenWindow (s : State) : Host.Outcome State Fault Refusal := s.nextWindow.decodeWaiting.done

/-! ### Priority (R390) -/

/-- Ramp step of an age under a target, both in 10 ns units. -/
def rampStep (age target : Nat) : Nat :=
  if target = 0 ∨ 2 * age < target then 0
  else if 4 * age < 3 * target then 1
  else if age < target then 2
  else 3

/-- A request with the priority that its age gives it; it never falls. -/
def State.aged (s : State) (r : OpenReq) : OpenReq :=
  { r with prio := max r.prio (max r.urgency (rampStep ((s.time - r.ts) / 4) (s.profile QOS_URG.TARGET r.link))) }

/-- PRIORITY_RECOMPUTE (R390): waiting requests' priorities rise by their age. -/
def execPriorityRecompute (s : State) : Host.Outcome State Fault Refusal :=
  .next ((List.range 8).foldl (fun s m => s.showOldest m) { s with reqs := s.reqs.map s.aged })

/-! ### The profile (R396) -/

/-- The regulator profile check. -/
def State.profileCheck (s : State) : Nat :=
  let ms := List.range 15
  firstCode
    [(s.qos.applying, 0xB0),
     (ms.any fun m => decide (s.rdAt QOS_URG.U2 m < s.rdAt QOS_URG.U1 m) || decide (s.rdAt QOS_URG.U3 m < s.rdAt QOS_URG.U2 m),
      0xB1),
     (ms.any fun m => background m && s.rdAt QOS_BUCKET.RATE m == 0, 0xB2),
     ((List.range 8).any fun m => s.rdAt QOS_URG.TARGET m != 0 &&
       decide (s.rd RTR_DEADLINE.TIME * 100 ≤ s.rdAt QOS_URG.TARGET m), 0xB3)]

/-- Run the profile check: the staged profile waits for the boundary where it passes. -/
def State.askProfile (s : State) : State :=
  let code := s.profileCheck
  let s := s.wr QOS_PROFILE.CHECK code
  if code = 0 then { s with qos := { s.qos with applying := true } }.put QOS_PROFILE.ENABLE true
  else s.put QOS_PROFILE.ENABLE s.qos.applying

/-- QOS_PROFILE_ENABLE (R396): a write of 1 to QOS_PROFILE.ENABLE. -/
def execQosProfileEnable (s : State) : Host.Outcome State Fault Refusal := s.askProfile.done

end Sys2Proof.Machine
end

