-- ==== Sys2Proof/Machine/Reading.lean ====
section
/-! DEFINITION. What a read of the register file returns (R6, R588, R622–R624): fields that are formed when they are read, the
diagnosis captures (R277, R287), the sample records (R604, R613), and the words at an offset. -/

namespace Sys2Proof.Machine

/-! ### Diagnosis captures (R277, R287) -/

/-- A command record, 128 bits. -/
def DiagCmd.word (d : DiagCmd) : Nat :=
  d.ts + d.cmd * 2 ^ 32 + d.subch * 2 ^ 36 + d.rank * 2 ^ 37 + d.bg * 2 ^ 40 + d.bank * 2 ^ 43 + d.addr * 2 ^ 45 +
    d.outcome * 2 ^ 64 + d.master * 2 ^ 66 + flag d.panic * 2 ^ 70 + d.wq % 2 ^ 7 * 2 ^ 71 + d.rq % 2 ^ 7 * 2 ^ 78

/-- An entry of a capture by INDEX: commands from the oldest on, open rows, UE lines; a higher index reads 0. -/
def DiagCapture.entry (x : DiagCapture) (k : Nat) : Nat :=
  if k < 256 then
    match x.commands.reverse[k]? with
    | some d => d.word
    | none => 0
  else if k < 768 then
    match x.openRows.find (k - 256) with
    | some row => 1 + 2 * row
    | none => 0
  else if k < 784 then
    match x.ueLines[k - 768]? with
    | some line => line / 64 + 2 ^ 63
    | none => 0
  else 0

/-- The capture that a path has selected. -/
def State.diag (s : State) (p : Path) : Option DiagCapture := (s.chan (s.rdAt MED_DIAGSEL.CHANNEL (pathCopy p))).capture

/-- The entry of it that the path has selected. -/
def State.diagEntry (s : State) (p : Path) : Nat :=
  match s.diag p with
  | some x => x.entry (s.rdAt MED_DIAGSEL.INDEX (pathCopy p))
  | none => 0

/-! ### Fields formed when they are read -/

/-- Bit `k` of the result is set where `f` holds of `k`. -/
def maskOf (n : Nat) (f : Nat → Bool) : Nat := ((List.range n).map fun k => flag (f k) * 2 ^ k).sum

/-- SYS_SUMMARY (R629), SYS_ID.LOCKED (R628), MAP_CAPINSTALLED (R86), MED_CESTAT.VALID (R281), the diagnosis registers (R287), and
the fault FIFO, which the engine view alone shows (R588). -/
def State.formed (s : State) (p : Path) : List (Fld × Nat) :=
  let d := s.diag p
  let e := s.diagEntry p
  let head := if p = .bar2 then none else s.flt.fifo.head?
  [(SYS_SUMMARY.DEV_ENABLE, s.rd SYS_CTL.DEV_ENABLE), (SYS_SUMMARY.MEMACTIVE, s.rd SYS_BOOT.MEMACTIVE),
    (SYS_SUMMARY.STAGE, s.rd SYS_BOOT.STAGE), (SYS_SUMMARY.PWRSTATE, s.rd PWR_STAT.STATE),
    (SYS_SUMMARY.GUARD, s.rd PWR_STAT.GUARD), (SYS_SUMMARY.PAIRSTATE, s.rd PAR_STAT.STATE),
    (SYS_SUMMARY.CONSTATE, s.rd CON_STAT.STATE), (SYS_SUMMARY.ERRN, s.rd FLT_PINS.ERRN),
    (SYS_SUMMARY.STICKY, flag ((List.range 2).any fun k => s.rdAt FLT_STICKY.SRC k != 0)),
    (SYS_SUMMARY.FROZEN, flag ((List.range 16).any fun c => s.onAt DMC_CHSTAT.FROZEN c)),
    (SYS_SUMMARY.YIELDING, s.rd QOS_STATUS.YIELDING), (SYS_SUMMARY.THROTTLE, s.rd TEL_THERMSTAT.THROTTLE),
    (SYS_SUMMARY.FALLBACK, s.rd PLC_STATUS.FALLBACK), (SYS_ID.LOCKED, s.rd ENG_STAT.LOCKED),
    (MAP_CAPINSTALLED.BYTES, s.installed),
    (MED_CESTAT.VALID, maskOf 32 fun k => s.onAt MED_CELOG2.VALID k),
    (MED_DIAGDATA0.DATA, e % 2 ^ 64), (MED_DIAGDATA1.DATA, e / 2 ^ 64),
    (MED_DIAGINFO.VALID, flag d.isSome),
    (MED_DIAGINFO.NCMD, (d.map fun x => x.commands.length).getD 0),
    (MED_DIAGINFO.NUE, (d.map fun x => x.ueLines.length).getD 0),
    (MED_DIAGTS.TS, (d.map fun x => x.ts).getD 0),
    (FLT_FIFO.SOURCE, (head.map Prod.fst).getD 0), (FLT_FIFO.VALID, flag head.isSome),
    (FLT_FIFO.TS, (head.map fun x => x.2 % 2 ^ 56).getD 0),
    (FLT_FIFOSTAT.LEVEL, if p = .bar2 then 0 else s.rd FLT_FIFOSTAT.LEVEL),
    (FLT_FIFOSTAT.LOST, if p = .bar2 then 0 else s.rd FLT_FIFOSTAT.LOST)]

/-- What copy `i` of a field reads as through a path: a write-only field reads 0 (R6). -/
def State.readField (s : State) (p : Path) (f : Fld) (i : Nat) : Nat :=
  if f.acc = .wo then 0
  else match (s.formed p).find? fun e => e.1 == f with
    | some e => e.2
    | none => s.shown f i

/-- The word of copy `i` of a register as a path reads it; reserved bits read 0 (R6). -/
def State.readRegister (s : State) (p : Path) (r : Register) (i : Nat) : Nat :=
  (r.fields.map fun f => s.readField p f i * 2 ^ f.lo).sum

/-! ### Sample records (R604, R613) -/

/-- Offset of sample record 0 in the register file, and bytes of a record. -/
def sampleBase : Nat := 0x840000
def sampleBytes : Nat := 32

/-- The 256 bits of a sample record. -/
def Sample.word (x : Sample) : Nat :=
  x.ts % 2 ^ 64 + x.dpaLine * 2 ^ 64 + x.opClass * 2 ^ 103 + flag x.hdmDb * 2 ^ 105 + x.link * 2 ^ 106 + x.ld * 2 ^ 109 +
    x.slice * 2 ^ 113 + x.outcome * 2 ^ 128 + flag x.mapMiss * 2 ^ 132 + flag x.sealed * 2 ^ 133 + flag x.bi * 2 ^ 134 +
    flag x.stall * 2 ^ 135 + min x.latency 0xFFFFFF * 2 ^ 136 + x.urgency * 2 ^ 160 + x.cause * 2 ^ 162 + x.seq % 2 ^ 32 * 2 ^ 192

/-! ### Words at an offset (R622, R624) -/

/-- First offset of copy `i` of a register. -/
def Register.base (r : Register) (i : Nat) : Nat :=
  match r.reach with
  | .strided => r.addr + r.step * i
  | _ => r.addr

/-- The `n` low bits of what lies from an offset on, within the register there: 0 where there is none. -/
def State.readBits (s : State) (p : Path) (off n : Nat) : Nat :=
  if sampleBase ≤ off ∧ off < sampleBase + sampleBytes * sampleCount then
    match s.smp.records.find ((off - sampleBase) / sampleBytes) with
    | some x => bits x.word (8 * ((off - sampleBase) % sampleBytes)) n
    | none => 0
  else match s.registerAt p off with
    | some (r, i) => bits (s.readRegister p r i) (8 * (off - r.base i)) n
    | none => 0

end Sys2Proof.Machine
end

