-- ==== Sys2Proof/Machine/KamconCmds.lean ====
section
/-! DEFINITION. Kamcon's device, configuration and resource commands (R533–R537). Each takes the CCI that it arrives on and its
input payload. -/

namespace Sys2Proof.Machine

/-! ### Framing (R527, R533, R534) -/

/-- A Kamcon command arrives. On a tenant CCI it is Unsupported; while another waits for its result it is held, in order of arrival
(R534); while media is erased it is Busy (R531). -/
def State.arrive (s : State) (cci : Nat) (i : Instr) (run : State → State) : State :=
  s.received cci true fun s =>
    if s.mbx.waiting.isSome then { s with mbx := { s.mbx with queue := s.mbx.queue ++ [(cci, false, i)] } }
    else if s.erasing then s.reply cci rcBusy []
    else run s

/-- Its length and its reserved bits are checked: a bit outside `fields` gives CHECK 0x02 with a body of `blen` zeros (R533). -/
def State.framed (s : State) (cci : Nat) (input : List Byte) (len blen : Nat) (fields : List (Nat × Nat × Nat))
    (run : State → State) : State :=
  if input.length ≠ len then s.reply cci rcInvalidLength []
  else if strayBits input fields then s.answer cci 0x02 0 (List.replicate blen 0)
  else run s

/-- Both. -/
def State.kamcon (s : State) (cci : Nat) (i : Instr) (input : List Byte) (len blen : Nat) (fields : List (Nat × Nat × Nat))
    (run : State → State) : State :=
  s.arrive cci i fun s => s.framed cci input len blen fields run

/-- A check has left its code in a register: the command answers with it. -/
def State.answerCode (s : State) (cci : Nat) (code : Nat) : State := s.answer cci code 0 []

/-- A command waits for its result (R534). -/
def State.await (s : State) (cci : Nat) (w : KamWait) : State :=
  { s with mbx := { s.mbx with waiting := some (cci, w) } }

/-! ### Device (R535) -/

/-- The ordering code of the part (R535, R661): production parts are locked, engineering samples are not. -/
def orderingCode (locked : Bool) : List Nat :=
  [0x49, 0x4D, 0x59, 0x37, 0x31, 0x36, 0x30, 0x42, 0x31, if locked then 0x50 else 0x45, 0x54] ++ List.replicate 5 0

/-- Offsets of ENG_SVN and ENG_STAT. -/
def engSvnOffset : Nat := engWindow + 0x10
def engStatOffset : Nat := engWindow

/-- The body of IDENTIFY's answer (R535). -/
def State.identityBytes (s : State) : List Nat :=
  outBytes (s.rd SYS_ID.DEVID) 2 ++ [s.rd SYS_ID.STEPPING, s.rd SYS_ID.PAIRID] ++
    outBytes s.chip.zenith 2 ++ outBytes s.chip.horizon 2 ++ outBytes (s.readBits .engine engSvnOffset 64) 8 ++
    orderingCode (s.on ENG_STAT.LOCKED) ++ outBytes (s.readBits .engine engStatOffset 64) 8

/-- IDENTIFY (R535). -/
def execIdentify (cci : Nat) (input : List Byte) (s : State) : Host.Outcome State Fault Refusal :=
  (s.kamcon cci (.identify cci input) input 0 40 [] fun s =>
    s.answer cci 0 0 s.identityBytes).done

/-- The 64-bit word at an offset: both of its halves where they are registers of their own (R535). -/
def State.wordAt (s : State) (off : Nat) : Nat :=
  s.readBits .engine off 32 + s.readBits .engine (off + 4) 32 * 2 ^ 32

/-- Words from an offset on, as the bytes of an answer. -/
def State.wordBytes (s : State) (off count : Nat) : List Nat :=
  (List.range count).flatMap fun k => outBytes (s.wordAt (off + 8 * k)) 8

/-- REG_READ (R535): no register is changed but the selector, and no entry of the fault FIFO is removed. -/
def execRegRead (cci : Nat) (input : List Byte) (s : State) : Host.Outcome State Fault Refusal :=
  let count := field input 20 2
  let ok := decide (1 ≤ count) && decide (count ≤ 256)
  (s.kamcon cci (.regRead cci input) input 22 (if ok then 8 * count else 0) [(0, 0, 32), (8, 0, 64), (16, 0, 32), (20, 0, 16)] fun s =>
    let off := field input 16 4
    let bad := fun (s : State) => s.answer cci 0x02 0 (List.replicate (if ok then 8 * count else 0) 0)
    let give := fun (s : State) => s.answer cci 0 0 (s.wordBytes off count)
    if !ok || off % 8 != 0 then bad s
    else if field input 0 4 = 0xFFFFFFFF then give s
    else match registerMap.find? fun r => r.addr == field input 0 4 && r.reach == .selector with
      | some r => give (s.storeFields r.fields 1 (field input 8 8))
      | none => bad s).done

/-- DEV_ENABLE (R518, R519, R535): a value that DEV_ENABLE has already changes nothing. -/
def execDevEnable (cci : Nat) (input : List Byte) (s : State) : Host.Outcome State Fault Refusal :=
  (s.kamcon cci (.devEnable cci input) input 1 0 [(0, 0, 1)] fun s =>
    let want := field input 0 1 == 1
    if want == s.on SYS_CTL.DEV_ENABLE then s.answerCode cci 0
    else
      let s := if want then s.askDevEnable else s.askDevDisable
      s.answerCode cci (s.rd SYS_CHECK.CODE)).done

/-! ### Configuration (R507, R535, R536) -/

/-- Replace an element of a list. -/
def setNth {α : Type} (xs : List α) (k : Nat) (x : α) : List α := xs.set k x

/-- The value of an item in a copy, by ITEM ID; none for an ID that R536 does not name. -/
def itemOf (c : ConfigCopy) (id : Nat) : Option Nat :=
  let b := c.boot
  if id < 4 then
    some (b.split.getD id 0 + b.maxRate.getD id 0 * 4 + flag (b.mld.getD id false) * 32 + flag (b.sris.getD id false) * 64)
  else if id = 0x10 then some b.speed
  else if id = 0x11 then some b.exclude
  else if 0x20 ≤ id ∧ id < 0x30 then
    let n := id - 0x20
    some (b.mode.getD n 0 + b.aorder.getD n 0 * 2 + b.refmode.getD n 0 * 8)
  else if id = 0x30 then some (b.primary + b.secondary * 16)
  else if id = 0x31 then some b.cap
  else if id = 0x32 then some (flag b.autocommit)
  else if 0x40 ≤ id ∧ id < 0x48 then some ((c.offsets.getD (id - 0x40) 0) % 256).toNat
  else none

/-- ITEM IDs of R536. -/
def itemIds : List Nat :=
  List.range 4 ++ [0x10, 0x11] ++ (List.range 16).map (0x20 + ·) ++ [0x30, 0x31, 0x32] ++ (List.range 8).map (0x40 + ·)

/-- A VALUE is one that its item can hold (R536). -/
def itemOk (id v : Nat) : Bool :=
  if id < 4 then decide (v < 128) && decide (bits v 0 2 < 2) && decide (bits v 2 3 < 4)
  else if id = 0x10 then decide (v < 8)
  else if id = 0x11 then decide (v < 2 ^ 16)
  else if 0x20 ≤ id ∧ id < 0x30 then decide (v < 32)
  else if id = 0x30 then decide (v < 256)
  else if id = 0x31 then decide (v < 2 ^ 18)
  else if id = 0x32 then decide (v < 2)
  else if 0x40 ≤ id ∧ id < 0x48 then decide (v < 256)
  else false

/-- A copy with an item replaced. -/
def setItem (c : ConfigCopy) (id v : Nat) : ConfigCopy :=
  let b := c.boot
  if id < 4 then
    { c with boot := { b with split := setNth b.split id (bits v 0 2)
                              maxRate := setNth b.maxRate id (bits v 2 3)
                              mld := setNth b.mld id (bit v 5)
                              sris := setNth b.sris id (bit v 6) } }
  else if id = 0x10 then { c with boot := { b with speed := v } }
  else if id = 0x11 then { c with boot := { b with exclude := v } }
  else if 0x20 ≤ id ∧ id < 0x30 then
    let n := id - 0x20
    { c with boot := { b with mode := setNth b.mode n (bits v 0 1)
                              aorder := setNth b.aorder n (bits v 1 2)
                              refmode := setNth b.refmode n (DMC_CHCFG.REFMODE.clamp.apply (bits v 3 2)) } }
  else if id = 0x30 then { c with boot := { b with primary := bits v 0 4, secondary := bits v 4 4 } }
  else if id = 0x31 then { c with boot := { b with cap := v } }
  else if id = 0x32 then { c with boot := { b with autocommit := v == 1 } }
  else
    let offsets := if c.offsets.isEmpty then List.replicate 8 0 else c.offsets
    { c with offsets := setNth offsets (id - 0x40) (if v < 128 then (v : Int) else (v : Int) - 256) }

/-- The newest valid copy, or the built-in defaults (R507). -/
def State.newestCopy (s : State) : ConfigCopy :=
  match chosenCopy s.chip.copy0 s.chip.copy1 with
  | some (_, c) => c
  | none => { seq := 0 }

/-- The bytes of an item (R536). -/
def itemBytes (id v : Nat) : List Nat := outBytes id 2 ++ [0, 0] ++ outBytes v 4

/-- The body of CONFIG_READ's answer (R535). With no valid copy there is no item. -/
def State.configBytes (s : State) : List Nat :=
  let src := s.rd SYS_BOOT.CFGSRC
  match chosenCopy s.chip.copy0 s.chip.copy1 with
  | none => [src, 0, 0, 0, 0, 0, 0, 0]
  | some (_, c) =>
    [src, itemIds.length, 0, 0] ++ outBytes c.seq 4 ++ itemIds.flatMap fun id => itemBytes id ((itemOf c id).getD 0)

/-- CONFIG_READ (R535). -/
def execConfigRead (cci : Nat) (input : List Byte) (s : State) : Host.Outcome State Fault Refusal :=
  (s.kamcon cci (.configRead cci input) input 0 0 [] fun s => s.answer cci 0 0 s.configBytes).done

/-- The items of a CONFIG_WRITE: ID and VALUE. -/
def itemsOf (input : List Byte) (n : Nat) : List (Nat × Nat) :=
  (List.range n).map fun k => (field input (8 + 8 * k) 2, field input (12 + 8 * k) 4)

/-- The copy that CONFIG_WRITE writes: the newest one with the items replaced, and the next sequence number (R507, R535). -/
def State.nextCopy (s : State) (items : List (Nat × Nat)) : ConfigCopy :=
  let c := items.foldl (fun (c : ConfigCopy) x => setItem c x.1 x.2) s.newestCopy
  { c with seq := (c.seq + 1) % 2 ^ 32 }

/-- Fields of a CONFIG_WRITE of `n` items. -/
def itemFields (n : Nat) : List (Nat × Nat × Nat) :=
  (0, 0, 8) :: (List.range n).flatMap fun k => [(8 + 8 * k, 0, 16), (12 + 8 * k, 0, 32)]

/-- CONFIG_WRITE (R535, R541). The length is that of N items; N itself is looked at once the length fits the payload. -/
def execConfigWrite (cci : Nat) (input : List Byte) (s : State) : Host.Outcome State Fault Refusal :=
  (s.arrive cci (.configWrite cci input) fun s =>
    let n := field input 0 1
    let items := itemsOf input n
    if input.length < 8 then s.reply cci rcInvalidLength []
    else if n = 0 ∨ 64 < n then s.answerCode cci 0x02
    else s.framed cci input (8 + 8 * n) 0 (itemFields n) fun s =>
      s.inBackground cci fun s =>
        if s.areaBusy 2 then s.reply cci rcBusy []
        else if items.any fun x => !itemOk x.1 x.2 then s.answerCode cci 0x02
        else (s.startBackground cci { op := .configWrite, area := some 2, config := some (s.nextCopy items) }).answerStarted cci).done

/-- RESET (R513–R516, R535). The response goes out before a cold reset, with the acceptance of a warm one, and after a block
reset. -/
def execReset (cci : Nat) (input : List Byte) (s : State) : Host.Outcome State Fault Refusal :=
  (s.kamcon cci (.reset cci input) input 3 0 [(0, 0, 8), (1, 0, 8), (2, 0, 8)] fun s =>
    match field input 0 1 with
    | 0 => (s.answerCode cci 0).coldReset causeSoftware 0 0
    | 1 =>
      let s := s.askWarm
      s.answerCode cci (if s.on RST_CTL.WARM then 0 else s.rd RST_CTL.CHECK)
    | 2 =>
      let block := field input 1 1
      let index := field input 2 1
      let s := ((s.wr RST_CTL.BLOCK block).wr RST_CTL.INDEX index).askBlockReset .kamcon block index
      if s.rd RST_CTL.CHECK ≠ 0 then s.answerCode cci (s.rd RST_CTL.CHECK) else s.await cci (.block block index)
    | _ => s.answerCode cci 0x02).done

/-! ### Decoders (R25, R53, R537) -/

/-- LDs of the links under an allocation. -/
def linkCounts (input : List Byte) : List Nat := (List.range 8).map fun n => field input (64 + n) 1

/-- The LD index exists under an allocation (R53). -/
def indexExists (counts : List Nat) (ld : Nat) : Bool :=
  decide (ld % 16 < counts.getD (2 * (ld / 16)) 0 + counts.getD (2 * (ld / 16) + 1) 0)

/-- A link cannot have the count asked for: it does not exist, or its port is not in MLD mode and has one LD (R24). -/
def State.countWrong (s : State) (n count : Nat) : Bool :=
  if s.hasLink n then !s.mldLink n && count != 1 else count != 0

/-- An LD has a committed decoder and its allocation changes, or it goes. -/
def State.decoderClash (s : State) (counts : List Nat) (input : List Byte) : Bool :=
  s.lds.any fun (e : Nat × Ld) =>
    s.ldBusy e.1 && match e.2.newIndex (ldPort e.1) (counts.getD (2 * ldPort e.1) 0) (counts.getD (2 * ldPort e.1 + 1) 0) with
      | none => true
      | some k => field input k 1 != e.2.alloc

/-- The check of DECODER_ALLOC, in the order of R537. -/
def State.allocCheck (s : State) (input : List Byte) : Nat :=
  let counts := linkCounts input
  let lds := (List.range 64).filter (indexExists counts)
  firstCode [
    ((List.range 4).any fun p => decide (16 < counts.getD (2 * p) 0 + counts.getD (2 * p + 1) 0), 0x14),
    (decide (32 < counts.sum), 0x14),
    ((List.range 8).any fun n => s.countWrong n (counts.getD n 0), 0x02),
    ((List.range 64).any fun k => !lds.contains k && field input k 1 != 0, 0x02),
    (lds.any fun k => !decoderCounts.contains (field input k 1), 0x11),
    (decide (32 < (lds.map fun k => field input k 1).sum), 0x10),
    (s.decoderClash counts input, 0x13)]

/-- The allocations of an LD: decoders above them cease to exist (R25). -/
def State.allocate (s : State) (input : List Byte) : State :=
  { s with
    lds := s.lds.map fun (e : Nat × Ld) => (e.1, ({ e.2 with alloc := field input e.1 1 } : Ld))
    decoders := s.decoders.filter fun (e : Nat × Decoder) => decide (e.1 % 32 < field input (e.1 / 32) 1) }

/-- The LDs of every port are as an allocation asks, with their decoders (R24, R25). -/
def State.reallocate (s : State) (input : List Byte) : State :=
  let counts := linkCounts input
  ((List.range 4).foldl (fun (s : State) p =>
    let n0 := counts.getD (2 * p) 0
    let n1 := counts.getD (2 * p + 1) 0
    if s.ldCount (2 * p) = n0 ∧ s.ldCount (2 * p + 1) = n1 then s else s.splitLds p n0 n1) s).allocate input

/-- DECODER_ALLOC (R25, R537). -/
def execDecoderAlloc (cci : Nat) (input : List Byte) (s : State) : Host.Outcome State Fault Refusal :=
  (s.kamcon cci (.decoderAlloc cci input) input 72 0 ((List.range 72).map fun k => (k, 0, 8)) fun s =>
    if s.allocCheck input ≠ 0 then s.answerCode cci (s.allocCheck input) else (s.reallocate input).answerCode cci 0).done

/-! ### Claims (R65, R66, R83, R537) -/

/-- Bits of MAP_CLAIMATTR that are reserved (R82). -/
def attrReserved : Nat := 0xF800 + 0xF0000000

/-- The fields that define a claim come from a payload (R537). -/
def State.defineClaim (s : State) (c : Nat) (input : List Byte) : State :=
  let s := s.wrAt MAP_CLAIMSEL.CLAIM 1 c
  let s := (s.storeFields [MAP_CLAIMBASE.BASE] c (field input 4 4)).storeFields [MAP_CLAIMSIZE.SIZE] c (field input 8 4)
  (s.storeFields claimAttr c (field input 12 4)).setGrants c (field input 16 8) (field input 24 8)

/-- CLAIM_COMMIT (R65, R443, R537). -/
def execClaimCommit (cci : Nat) (input : List Byte) (s : State) : Host.Outcome State Fault Refusal :=
  (s.kamcon cci (.claimCommit cci input) input 32 8
      [(0, 0, 13), (4, 0, 17), (8, 0, 18), (12, 1, 31), (16, 0, 64), (24, 0, 64)] fun s =>
    let c := field input 0 2
    let charged := fun (s : State) => outBytes (s.rd MAP_CAPCHARGED.BYTES) 8
    if s.onAt MAP_CLAIMATTR.COMMIT c then s.answer cci 0x03 0 (charged s)
    else
      let s := (s.defineClaim c input).askCommit c (Nat.land (field input 12 4) attrReserved != 0)
      if s.pair.fwd.contains (.commit c) then s.await cci (.commit c)
      else s.answer cci (s.rd MAP_CHECK.CODE) 0 (charged s)).done

/-- CLAIM_RELEASE (R66, R443, R537): answered once release has started. -/
def execClaimRelease (cci : Nat) (input : List Byte) (s : State) : Host.Outcome State Fault Refusal :=
  (s.kamcon cci (.claimRelease cci input) input 2 0 [(0, 0, 13)] fun s =>
    let c := field input 0 2
    if !s.onAt MAP_CLAIMATTR.COMMIT c then s.answerCode cci 0x03
    else
      let s := (s.wrAt MAP_CLAIMSEL.CLAIM 1 c).askRelease c
      if s.pair.fwd.contains (.release c) then s.await cci (.release c) else s.answerCode cci (s.rd MAP_CHECK.CODE)).done

/-- CLAIM_GRANT (R83, R537): both registers at once. -/
def execClaimGrant (cci : Nat) (input : List Byte) (s : State) : Host.Outcome State Fault Refusal :=
  (s.kamcon cci (.claimGrant cci input) input 24 0 [(0, 0, 13), (8, 0, 64), (16, 0, 64)] fun s =>
    let c := field input 0 2
    if !s.onAt MAP_CLAIMATTR.COMMIT c then s.answerCode cci 0x03
    else
      let s := (s.wrAt MAP_CLAIMSEL.CLAIM 1 c).setGrants c (field input 8 8) (field input 16 8)
      s.answerCode cci (s.rd MAP_CHECK.CODE)).done

/-! ### Slices (R348–R350, R373, R374, R537) -/

/-- A pin quota is written, clamped as its register (R117). -/
def State.setQuota (s : State) (n v : Nat) : State :=
  (s.wrAt CIR_SLICESEL.SLICE 1 n).wrAt CIR_PINQUOTA.QUOTA n (CIR_PINQUOTA.QUOTA.clamp.apply v)

/-- PASID and TEL_USER of a slice come from a payload (R537). -/
def State.defineSlice (s : State) (n : Nat) (input : List Byte) : State :=
  ((s.wrAt SLC_SEL.SLICE 1 n).storeFields [SLC_CFG.PASID] n (field input 4 4)).putAt SLC_CFG.TEL_USER n (field input 8 1 == 1)

/-- SLICE_ENABLE (R348, R537). -/
def execSliceEnable (cci : Nat) (input : List Byte) (s : State) : Host.Outcome State Fault Refusal :=
  (s.kamcon cci (.sliceEnable cci input) input 16 0 [(0, 0, 12), (4, 0, 20), (8, 0, 1), (12, 0, 32)] fun s =>
    let n := field input 0 2
    let already := s.onAt SLC_CTL.ENABLE n
    let s := (s.defineSlice n input).askSlice n
    let code := if already then 0 else s.rdAt SLC_CTL.CHECK n
    (if code = 0 then s.setQuota n (field input 12 4) else s).answerCode cci code).done

/-- SLICE_SET (R537). -/
def execSliceSet (cci : Nat) (input : List Byte) (s : State) : Host.Outcome State Fault Refusal :=
  (s.kamcon cci (.sliceSet cci input) input 16 0 [(0, 0, 12), (8, 0, 1), (12, 0, 32)] fun s =>
    let n := field input 0 2
    if !s.onAt SLC_CTL.ENABLE n then s.answerCode cci 0x03
    else
      let s := (s.wrAt SLC_SEL.SLICE 1 n).putAt SLC_CFG.TEL_USER n (field input 8 1 == 1)
      (s.setQuota n (field input 12 4)).answerCode cci 0).done

/-- SLICE_RESET (R373, R537): answered when the reset has ended, with the new GEN. -/
def execSliceReset (cci : Nat) (input : List Byte) (s : State) : Host.Outcome State Fault Refusal :=
  (s.kamcon cci (.sliceReset cci input) input 2 2 [(0, 0, 12)] fun s =>
    let n := field input 0 2
    if !s.onAt SLC_CTL.ENABLE n then s.answer cci 0x03 0 [0, 0]
    else if s.onAt SLC_STAT.RESETTING n then s.answer cci 0xA5 0 [0, 0]
    else ((s.wrAt SLC_SEL.SLICE 1 n).askSliceReset n).await cci (.sliceReset n)).done

/-- SLICE_REMOVE (R374, R537). -/
def execSliceRemove (cci : Nat) (input : List Byte) (s : State) : Host.Outcome State Fault Refusal :=
  (s.kamcon cci (.sliceRemove cci input) input 2 0 [(0, 0, 12)] fun s =>
    let n := field input 0 2
    if n = 0 then s.answerCode cci 0xA2
    else if !s.onAt SLC_CTL.ENABLE n then s.answerCode cci 0x03
    else
      let s := (s.wrAt SLC_SEL.SLICE 1 n).askRemove n
      s.answerCode cci (s.rdAt SLC_CTL.CHECK n)).done

/-- A doorbell page is selected, and the slice for it named (R350). -/
def State.namePage (s : State) (page slice : Nat) : State := (s.wrAt SLC_DBSEL.PAGE 1 page).wrAt SLC_DBOWN.SLICE page slice

/-- DOORBELL (R350, R537). -/
def execDoorbell (cci : Nat) (input : List Byte) (s : State) : Host.Outcome State Fault Refusal :=
  (s.kamcon cci (.doorbell cci input) input 6 0 [(0, 0, 10), (2, 0, 1), (4, 0, 12)] fun s =>
    let page := field input 0 2
    let s := s.namePage page (field input 4 2)
    let s := if field input 2 1 = 0 then s.assignPage page else s.freePage page
    s.answerCode cci (s.rdAt SLC_DBOWN.CHECK page)).done

/-! ### Placement, snapshots, bandwidth (R146, R189, R396, R537) -/

/-- The fields of a register table row, as bits of a payload that holds the register's 8 bytes at `o`. -/
def fieldsAt (o : Nat) (fs : List Fld) : List (Nat × Nat × Nat) := fs.map fun f => (o, f.lo, f.width)

/-- Writable fields of the staged PLC registers, by offset in the parameter block (R146, R149–R151). -/
def policyBlock : List (Nat × List Fld) :=
  [(0x00, [PLC_EPOCH.LEN]), (0x08, [PLC_HEATCFG.RD, PLC_HEATCFG.WR, PLC_HEATCFG.NFETCH, PLC_HEATCFG.MIRWR]),
    (0x10, [PLC_THRESH.PROMOTE_T, PLC_THRESH.DEMOTE_T, PLC_THRESH.PIN_T, PLC_THRESH.AMP_MAX]),
    (0x18, [PLC_BUDGET.PROMOTE_MAX, PLC_BUDGET.DEMOTE_MAX, PLC_BUDGET.COMPACT_MAX]),
    (0x20, [PLC_MOVECFG.MAXPASS, PLC_MOVECFG.SWITCHMAX, PLC_MOVECFG.SWITCHTRY, PLC_MOVECFG.MINGAIN, PLC_MOVECFG.PROMOTE_EN,
      PLC_MOVECFG.DEMOTE_EN, PLC_MOVECFG.COMPACT_EN, PLC_MOVECFG.PIN_EN]),
    (0x28, [PLC_SCANCFG.RATE, PLC_SCANCFG.FRAG_T])]

/-- The staged PLC registers come from a parameter block (R146). -/
def State.stagePolicy (s : State) (input : List Byte) : State :=
  policyBlock.foldl (fun (s : State) x => s.storeFields x.2 0 (field input x.1 8)) s

/-- Fields of a parameter block. -/
def policyFields : List (Nat × Nat × Nat) := (4, 0, 32) :: policyBlock.flatMap fun x => fieldsAt x.1 x.2

/-- PLC_POLICY (R146, R537): the block is the image of the staged registers; the read-only NUM may hold anything. -/
def execPlcPolicy (cci : Nat) (input : List Byte) (s : State) : Host.Outcome State Fault Refusal :=
  (s.kamcon cci (.plcPolicy cci input) input 64 0 policyFields fun s =>
    let s := (s.stagePolicy input).askApply
    s.answerCode cci (s.rd PLC_APPLY.CHECK)).done

/-- PLC_CLAIM_MODE (R537). -/
def execPlcClaimMode (cci : Nat) (input : List Byte) (s : State) : Host.Outcome State Fault Refusal :=
  (s.kamcon cci (.plcClaimMode cci input) input 3 0 [(0, 0, 13), (2, 0, 2)] fun s =>
    let c := field input 0 2
    if field input 2 1 = 3 then s.answerCode cci 0x02
    else ((s.wrAt PLC_CLAIMSEL.CLAIM 1 c).wrAt PLC_CLAIMPOL.MODE c (field input 2 1)).answerCode cci 0).done

/-- The registers of a slot take what an arming asks for (R189, R537). -/
def State.stageArm (s : State) (input : List Byte) : State :=
  let n := field input 0 1
  let size := min (field input 4 4) (2 ^ 23 - 1)
  let stage := min (field input 8 4) (2 ^ 23 - 1)
  let s := (s.wrAt SNP_SLOTSEL.SLOT 1 n).storeFields [SNP_ARM.TARGET, SNP_ARM.CLAIM] n (field input 1 1 * 2 + field input 2 2 * 2 ^ 16)
  s.storeFields [SNP_RESERVE.SIZE, SNP_RESERVE.STAGEMAX] n (size + stage * 2 ^ 32)

/-- The body of SNAP_ARM's answer: PEER and STREAMID of the slot (R537). -/
def State.armBytes (s : State) (n : Nat) : List Nat :=
  outBytes (s.rdAt SNP_STATUS.PEER n) 8 ++ outBytes (s.rdAt SNP_STREAMID.STREAMID n) 8

/-- SNAP_ARM (R189, R201, R537): with target PARTNER it answers when the partner has. -/
def execSnapArm (cci : Nat) (input : List Byte) (s : State) : Host.Outcome State Fault Refusal :=
  (s.kamcon cci (.snapArm cci input) input 12 16 [(0, 0, 8), (1, 0, 2), (2, 0, 13), (4, 0, 32), (8, 0, 32)] fun s =>
    let n := field input 0 1
    let s := (s.stageArm input).askArm n
    if (s.slot n).waitPartner then s.await cci (.arm n)
    else s.answer cci (s.rdAt SNP_STATUS.CHECK n) 0 (s.armBytes n)).done

/-- Fields of QOS_BUCKETm and QOS_URGm. -/
def bucketFields : List Fld := [QOS_BUCKET.RATE, QOS_BUCKET.BURST, QOS_BUCKET.YIELD]
def urgencyFields : List Fld := [QOS_URG.U1, QOS_URG.U2, QOS_URG.U3, QOS_URG.TARGET]

/-- Fields of a profile. -/
def profileBits : List (Nat × Nat × Nat) :=
  (List.range 15).flatMap fun m => fieldsAt (16 * m) bucketFields ++ fieldsAt (16 * m + 8) urgencyFields

/-- The staged bandwidth registers come from a profile (R396). -/
def State.stageProfile (s : State) (input : List Byte) : State :=
  (List.range 15).foldl (fun (s : State) m =>
    (s.storeFields bucketFields m (field input (16 * m) 8)).storeFields urgencyFields m (field input (16 * m + 8) 8)) s

/-- QOS_PROFILE (R396, R537): QOS_BUCKETm and QOS_URGm of masters 0 to 14. -/
def execQosProfile (cci : Nat) (input : List Byte) (s : State) : Host.Outcome State Fault Refusal :=
  (s.kamcon cci (.qosProfile cci input) input 240 0 profileBits fun s =>
    let s := (s.stageProfile input).askProfile
    s.answerCode cci (s.rd QOS_PROFILE.CHECK)).done

end Sys2Proof.Machine
end

