-- ==== Sys2Proof/Machine/PairMsgs.lean ====
section
/-! DEFINITION. CTRL messages (R412, R413, R460): what each does on the member that receives it. -/

namespace Sys2Proof.Machine

/-- A CTRL packet is taken in SEQ order, its credits are freed, and its message is handled by `act` (R412, R415). -/
def State.onCtrl (s : State) (h : RxHead) (m : CtrlMsg) (act : State → State) : State :=
  match s.acceptSeq h .ct (Packet.ctrl m).credits with
  | (true, s) => act s
  | (false, s) => s

/-! ### Mirroring (R447, R451–R453) -/

/-- Acknowledgements have made progress (R449). -/
def State.unstall (s : State) : State := { s with pair := { s.pair with stalled := false } }

/-- MIRACK (R445, R447): the entries that it covers leave the journal, and the writes that waited for them are completed. -/
def execMirack (h : RxHead) (jseq : Nat) (s : State) : Host.Outcome State Fault Refusal :=
  (s.onCtrl h (.mirack jseq) fun s =>
    (s.ackJournal jseq).2.unstall.completeWrites (s.ackJournal jseq).1 outMirrored |>.releaseFetches).done

/-- STRIPE_DONE (R452): every line of the stripe has been applied, so it is acknowledged. -/
def execStripeDone (h : RxHead) (stripe : Nat) (s : State) : Host.Outcome State Fault Refusal :=
  (s.onCtrl h (.stripeDone stripe) fun s => s.ctrl (.stripeAck stripe)).done

/-- The bit of a stripe clears. -/
def State.clearStripe (s : State) (stripe : Nat) : State :=
  ({ s with pair := { s.pair with
    outbits := s.pair.outbits.remove stripe, sent := s.pair.sent.remove stripe } }).outStatus

/-- STRIPE_ACK (R452): the stripe's bit clears, unless it was set again since the stripe was sent. -/
def execStripeAck (h : RxHead) (stripe : Nat) (s : State) : Host.Outcome State Fault Refusal :=
  (s.onCtrl h (.stripeAck stripe) fun s =>
    if s.pair.sent.has stripe then (s.clearStripe stripe).joinEnd.resyncEnd else s).done

/-- Pages of claims become UNBACKED. -/
def State.unbackPages (s : State) (dpn count : Nat) : State :=
  (List.range count).foldl (fun s i =>
    if (s.claimOf ((dpn + i) * 4096)).isSome && (s.entry (dpn + i)).state != .unbacked then
      (s.bumpMove (dpn + i)).askUnback (dpn + i)
    else s) s

/-- UNBACK (R444, R452): the pages become UNBACKED, as by MAP_UPDATE. -/
def execUnback (h : RxHead) (dpn count : Nat) (s : State) : Host.Outcome State Fault Refusal :=
  (s.onCtrl h (.unback dpn count) fun s =>
    s.unbackPages dpn count).done

/-- FETCH (R453): the line's current contents go back in an RSW packet; a FENCED member sends none (R456). -/
def execFetch (h : RxHead) (dpaLine : Nat) (s : State) : Host.Outcome State Fault Refusal :=
  (s.onCtrl h (.fetch dpaLine) fun s =>
    if s.pairState = pairFenced then s else s.queuePacket (.rsw [⟨dpaLine, (s.peek dpaLine).1, ByteMask.full, (s.peek dpaLine).2⟩])).done

/-- The partner's counts are shown. -/
def State.countPeer (s : State) (outbits journal : Nat) : State :=
  let s := (s.wr PAR_PEER.OUTBITS outbits).wr PAR_PEER.JOURNAL journal
  let s := s.put PAR_STAT.PEERDIRTY (outbits != 0)
  { s with pair := { s.pair with peerCounted := true } }

/-- PSTAT (R451, R454): the partner's counts and epoch. -/
def execPstat (h : RxHead) (outbits journal epoch : Nat) (s : State) : Host.Outcome State Fault Refusal :=
  (s.onCtrl h (.pstat outbits journal epoch) fun s =>
    ((s.countPeer outbits journal).meetEpoch epoch none).resyncEnd).done

/-! ### Joining and homes (R440, R458) -/

/-- The parameters of the partner are whole: an enable that waits for them runs its check (R440). A set of slices that does not
give the digest counts as parameters that did not arrive (R460). -/
def State.peerArrived (s : State) : State :=
  if s.pair.enabling && s.pair.peer.isSome && s.pair.mapsSeen.length == 8 then s.runPairCheck s.peerComplete else s

/-- The partner's parameters arrive. -/
def State.takeParams (s : State) (p : PeerParams) : State :=
  { s with pair := { s.pair with peer := some p, peerEnabled := [], peerOwners := [], mapsSeen := [], peerAt := s.time } }

/-- PARAMS (R440, R460): the pieces of the slice bitmaps follow. -/
def execParams (h : RxHead) (p : PeerParams) (s : State) : Host.Outcome State Fault Refusal :=
  (s.onCtrl h (.params p) fun s =>
    s.takeParams p).done

/-- A piece of a bitmap is noted. -/
def State.takePiece (s : State) (piece : Nat) (owners : Bool) (slices : List Nat) : State :=
  let add := fun (t : NSet) => slices.foldl (fun (t : NSet) i => NSet.add t (1024 * piece + i)) t
  let p := s.pair
  { s with pair := { p with
      mapsSeen := NSet.add p.mapsSeen (2 * piece + flag owners)
      peerEnabled := if owners then p.peerEnabled else add p.peerEnabled
      peerOwners := if owners then add p.peerOwners else p.peerOwners } }

/-- SLICEMAP (R460): a piece of the partner's bitmaps. -/
def execSlicemap (h : RxHead) (piece : Nat) (owners : Bool) (slices : List Nat) (s : State) :
    Host.Outcome State Fault Refusal :=
  (s.onCtrl h (.sliceMap piece owners slices) fun s =>
    (s.takePiece piece owners slices).peerArrived).done

/-- GIVEBACK (R454, R458): the member becomes home for its natural half under the new epoch. -/
def execGiveback (h : RxHead) (epoch : Nat) (s : State) : Host.Outcome State Fault Refusal :=
  (s.onCtrl h (.giveback epoch) fun s =>
    if s.pairState = pairMirrored then (s.wr PAR_EPOCH.CUR epoch).wr PAR_STAT.HOME s.naturalHome else s).done

/-! ### Claim operations (R442, R443) -/

/-- The claim is committed here exactly as the operation defines it. -/
def State.sameClaim (s : State) (o : ClaimOp) : Bool :=
  s.onAt MAP_CLAIMATTR.COMMIT o.claim && s.claimDefOf o.claim == .claimDef o.claim o.base o.size o.attr

/-- The registers of a claim take a definition. -/
def State.putClaimDef (s : State) (o : ClaimOp) : State :=
  let s := (s.wrAt MAP_CLAIMBASE.BASE o.claim o.base).wrAt MAP_CLAIMSIZE.SIZE o.claim o.size
  claimAttr.foldl (fun s f => s.wrAt f o.claim (f.of o.attr)) s

/-- Run an operation that the partner forwarded: its check code, and the state after it; a failure changes nothing (R443).
In a join the claim is committed with its grants at NONE (R442). One that has been run already and is repeated succeeds
(DEDUCED). MAP_CHECK is that of the member on which the operation was written. -/
def State.runClaimOp (s : State) (o : ClaimOp) : Nat × State :=
  let mapCheck := s.rd MAP_CHECK.CODE
  if o.rel then
    if !s.onAt MAP_CLAIMATTR.COMMIT o.claim then (0, s)
    else if !(s.slotsOf o.claim).isEmpty then (0x2B, s)
    else (0, (s.startRelease o.claim).wr MAP_CHECK.CODE mapCheck)
  else if s.sameClaim o then (0, s)
  else if s.onAt MAP_CLAIMATTR.COMMIT o.claim then (0x20, s)
  else
    let s' := s.putClaimDef o
    let s' := if s.pairState = pairJoining ∧ s.on PAR_STAT.ROLE = true then
        (s'.wrAt MAP_CLAIMGRANT0.GRANTS o.claim 0).wrAt MAP_CLAIMGRANT1.GRANTS o.claim 0
      else s'
    match s'.claimCheck o.claim false with
    | 0 => (0, (s'.commitClaim o.claim).wr MAP_CHECK.CODE mapCheck)
    | code => (code, s)

/-- Answer a forwarded operation; its number is that of its claim (DESIGN CHOICE). A claim that a joiner cannot commit ends
the join (R442). -/
def State.answerClaimOp (s : State) (o : ClaimOp) : State :=
  let (code, s) := s.runClaimOp o
  let s := s.ctrl (.result o.claim code)
  if code ≠ 0 ∧ s.pairState = pairJoining ∧ s.on PAR_STAT.ROLE = true then (s.wr PAR_CTL.CHECK 0xC9).leaveJoin else s

/-- An operation arrives from the partner. While this member's own awaits its answer, the operation of the member with
PAIR_ID 0 goes first (R443). -/
def State.takeClaimOp (s : State) (o : ClaimOp) : State :=
  if s.pairState ≠ pairMirrored ∧ s.pairState ≠ pairJoining then s.ctrl (.result o.claim 0xC8)
  else if !s.pair.fwd.isEmpty && s.pairId == 0 && s.pairState == pairMirrored then
    { s with pair := { s.pair with deferred := s.pair.deferred ++ [o] } }
  else s.answerClaimOp o

/-- CLAIMDEF (R442, R443). -/
def execClaimdef (h : RxHead) (claim base size attr : Nat) (s : State) : Host.Outcome State Fault Refusal :=
  (s.onCtrl h (.claimDef claim base size attr) fun s => s.takeClaimOp ⟨claim, false, base, size, attr⟩).done

/-- CLAIMREL (R443). -/
def execClaimrel (h : RxHead) (claim : Nat) (s : State) : Host.Outcome State Fault Refusal :=
  (s.onCtrl h (.claimRel claim) fun s => s.takeClaimOp { claim := claim, rel := true }).done

/-- The claim of a forwarded operation. -/
def Forward.claim : Forward → Nat
  | .commit c | .release c | .join c => c

/-- The answer to this member's oldest operation on a claim (R442, R443). -/
def State.endForward (s : State) (f : Forward) (code : Nat) : State :=
  let s := { s with pair := { s.pair with fwd := s.pair.fwd.erase f } }
  match f with
  | .join c =>
    if code ≠ 0 then ((s.wr PAR_STAT.PEERCHECK code).wr PAR_CTL.CHECK 0xC9).leaveJoin
    else if s.onAt MAP_CLAIMATTR.SEALED c then (s.ctrl (.sealEn c c)).joinEnd
    else s.joinEnd
  | .commit c =>
    let s := s.wr PAR_STAT.PEERCHECK code
    if code ≠ 0 then s.wr MAP_CHECK.CODE 0xC9 else s.commitClaim c
  | .release c =>
    let s := s.wr PAR_STAT.PEERCHECK code
    if code ≠ 0 then s.wr MAP_CHECK.CODE 0xC9 else s.startRelease c

/-- The operations that were forwarded and not in a join. -/
def Forward.awaited : Forward → Bool
  | .join _ => false
  | _ => true

/-- FWD follows the operations that wait for the partner; with none left, the partner's own that waited are run. -/
def State.runDeferred (s : State) : State :=
  let s := s.put PAR_STAT.FWD (s.pair.fwd.any Forward.awaited)
  if s.pair.fwd.isEmpty then
    let waiting := s.pair.deferred
    waiting.foldl State.answerClaimOp { s with pair := { s.pair with deferred := [] } }
  else s

/-- RESULT (R443): then the partner's operations that waited are checked against the result. -/
def execResult (h : RxHead) (op code : Nat) (s : State) : Host.Outcome State Fault Refusal :=
  (s.onCtrl h (.result op code) fun s =>
    match s.pair.fwd.find? fun f => f.claim == op with
    | none => s
    | some f =>
      (s.endForward f code).runDeferred).done

/-! ### Snapshot messages (R201, R413) -/

/-- Take a receive slot for the partner's export: the lowest FREE slot, if the reserve passes R58; gives the check code. It is
DRAINING until END arrives (DESIGN CHOICE: the spec names no state for it before DONE). -/
def State.openReceive (s : State) (op slot slice size claim streamId : Nat) : Nat × Nat × State :=
  match (List.range 256).find? fun n => s.slotState n == slotFree && !(s.slot n).waitPartner with
  | none => (0, 0x50, s)
  | some n =>
    if s.rd MAP_CAPUSABLE.BYTES - s.rd MAP_CAPSTORMSIZE.BYTES < s.rd MAP_CAPCHARGED.BYTES + size * 2 ^ 21 then (0, 0x56, s)
    else
      let s := s.setSlot n { receive := true, slice := slice, op := op }
      let s := (s.wrAt SNP_RESERVE.SIZE n size).wrAt SNP_ARM.CLAIM n claim
      let s := ((s.putAt SNP_ARM.ARM n true).wrAt SNP_STATUS.STATE n slotDraining).wrAt SNP_STATUS.PEER n slot
      let s := (s.wrAt SNP_STREAMID.STREAMID n streamId).wrAt SNP_BYTES.BYTES n 0
      (n, 0, (s.wr MAP_CAPCHARGED.BYTES (s.rd MAP_CAPCHARGED.BYTES + s.reserveBytes n)).accounts.slotUse n)

/-- RXOPEN (R201, R413). -/
def execRxopen (h : RxHead) (op slot slice size claim streamId : Nat) (s : State) : Host.Outcome State Fault Refusal :=
  (s.onCtrl h (.rxOpen op slot slice size claim streamId) fun s =>
    let r := s.openReceive op slot slice size claim streamId
    r.2.2.ctrl (.rxResult op r.1 r.2.1)).done

/-- The slot whose arm check waits under an operation number. -/
def State.armingSlot (s : State) (op : Nat) : Option Nat :=
  (s.snp.slots.find? fun e => e.2.waitPartner && s.rdAt SNP_STREAMID.STREAMID e.1 % 2 ^ 32 == op).map Prod.fst

/-- RXRESULT (R413). -/
def execRxresult (h : RxHead) (op slot code : Nat) (s : State) : Host.Outcome State Fault Refusal :=
  (s.onCtrl h (.rxResult op slot code) fun s =>
    match s.armingSlot op with
    | some n => s.armAnswer n (if code = 0 then some slot else none)
    | none => if code = 0 then s.ctrl (.rxClose op slot 0) else s).done

/-- RXOPEN_TIMEOUT (R413): no answer within 100 ms. -/
def execRxopenTimeout (slot : Nat) (s : State) : Host.Outcome State Fault Refusal :=
  if (s.slot slot).waitPartner then (s.armAnswer slot none).done else s.done

/-- The receive slot of an export has gone: the export aborts. -/
def State.loseReceiver (s : State) (op slot cause : Nat) : State :=
  match s.liveSlots.find? fun n => !(s.slot n).receive && s.rdAt SNP_ARM.TARGET n == targetPartner &&
      s.rdAt SNP_STATUS.PEER n == slot && s.rdAt SNP_STREAMID.STREAMID n % 2 ^ 32 == op with
  | some n =>
    if [slotArming, slotArmed, slotPreserving, slotDraining].contains (s.slotState n) then
      s.abortSlot n (if cause = 0 then abortPartner else cause)
    else s
  | none => s

/-- RXCLOSE (R413): a receive slot of this member is freed; an export whose receive slot has gone aborts, with the cause of
the message, or PARTNER_LOST where it has none (DEDUCED). -/
def execRxclose (h : RxHead) (op slot cause : Nat) (s : State) : Host.Outcome State Fault Refusal :=
  (s.onCtrl h (.rxClose op slot cause) fun s =>
    if (s.slot slot).receive && (s.slot slot).op == op then s.dropSlot slot else s.loseReceiver op slot cause).done

/-! ### Zenith messages (R307, R311, R413) -/

/-- SEALEN (R307): the partner asks for the same region; the code goes back. -/
def execSealen (h : RxHead) (op claim : Nat) (s : State) : Host.Outcome State Fault Refusal :=
  (s.onCtrl h (.sealEn op claim) fun s =>
    let t := if s.sealCheck claim = 0 then (s.enableRegion claim).wr SEC_REGIONCTL.CHECK (s.rd SEC_REGIONCTL.CHECK) else s
    t.ctrl (.sealRes op (s.sealCheck claim))).done

/-- A seal enable no longer waits for the partner. -/
def State.endEnabling (s : State) (op : Nat) : State := { s with sec := { s.sec with enabling := s.sec.enabling.erase op } }

/-- SEALRES (R307): the enable that waits for it completes, or fails with 0x83. -/
def execSealres (h : RxHead) (op code : Nat) (s : State) : Host.Outcome State Fault Refusal :=
  (s.onCtrl h (.sealRes op code) fun s =>
    match s.sec.enabling.find op with
    | none => s
    | some c =>
      if code = 0 then (s.endEnabling op).enableRegion c else (s.endEnabling op).wr SEC_REGIONCTL.CHECK 0x83).done

/-- The backed pages of a claim that an entry of its counter tree covers. -/
def State.pagesUnder (s : State) (claim level index : Nat) : List Nat :=
  (s.pagesOf claim).filter fun p =>
    underEntry level index 0 (s.pageIndex claim p) && (s.entry p).state != .unbacked

/-- REFETCH (R311): every covered backed line goes to the partner, then REFDONE with their number. -/
def execRefetch (h : RxHead) (op claim level index : Nat) (s : State) : Host.Outcome State Fault Refusal :=
  (s.onCtrl h (.refetch op claim level index) fun s =>
    let pages : List Nat := s.pagesUnder claim level index
    (pages.foldl (State.sendPage · []) s).ctrl (.refDone op (64 * pages.length))).done

/-- A whole claim's recovery awaits one REFDONE fewer. -/
def State.awaitLess (s : State) (k choice left : Nat) : State :=
  { s with sec := { s.sec with whole := s.sec.whole.put k (choice, left - 1) } }

/-- REFDONE (R311): the recovery of a record ends, or that of a whole claim with the last REFDONE that it awaits. -/
def execRefdone (h : RxHead) (op lines : Nat) (s : State) : Host.Outcome State Fault Refusal :=
  (s.onCtrl h (.refDone op lines) fun s =>
    if op < 64 then
      if s.onAt SEC_BREACH.VALID op && s.rdAt SEC_BREACH.PROGRESS op == recoverRefetch then
        s.endRecovery (s.rdAt SEC_BREACH.KEYID op) (some op) recoverRefetch
      else s
    else
      match s.sec.whole.find (op - 64) with
      | some (choice, left) =>
        if choice ≠ recoverRefetch then s
        else if left ≤ 1 then s.endRecovery (op - 64) none recoverRefetch
        else s.awaitLess (op - 64) choice left
      | none => s).done

/-- An export key is held. -/
def State.loadKey (s : State) (keyRef key : Nat) : State :=
  { s with sec := { s.sec with loaded := s.sec.loaded.put keyRef key } }

/-- XKEY (R208, R413): the export key is held where there is room among 256 loaded keys. -/
def execXkey (h : RxHead) (keyRef slot key : Nat) (s : State) : Host.Outcome State Fault Refusal :=
  (s.onCtrl h (.xkey keyRef slot key) fun s =>
    if (s.sec.loaded.find keyRef).isNone && decide (256 ≤ s.sec.loaded.length) then s.ctrl (.xkeyAck keyRef 3)
    else (s.loadKey keyRef key).ctrl (.xkeyAck keyRef 0)).done

/-- XKEYACK (R413): status 3 leaves the key with the sender alone; it changes nothing here. -/
def execXkeyack (h : RxHead) (keyRef status : Nat) (s : State) : Host.Outcome State Fault Refusal :=
  (s.onCtrl h (.xkeyAck keyRef status) fun s => s).done

end Sys2Proof.Machine
end

