-- ==== Sys2Proof/Machine/PairCmds.lean ====
section
/-! DEFINITION. The pair manager's controls and timers (15_redundant_pair.md): PAR_CTL (R440, R456–R458, R462), the timeouts of
R440 and R449, the next stripe of a resync (R452), and PSTAT (R451). -/

namespace Sys2Proof.Machine

/-- Parameters that arrived count for 100 ms (R440): 40,000,000 ticks of 2.5 ns. -/
def State.freshPeer (s : State) : Option PeerParams :=
  if s.time ≤ s.pair.peerAt + 40000000 then s.peerComplete else none

/-- A write of 1 to PAR_CTL.ENABLE (R440): PARAMS go to the partner; the check runs once the partner's have arrived, at once
where they already have, or where it fails without them. -/
def State.askPair (s : State) : State :=
  let code := s.pairCheck none
  if code ≠ 0xC1 ∨ s.linkUp = false then s.wr PAR_CTL.CHECK code
  else
    let s := s.sendParams
    match s.freshPeer with
    | some p => s.runPairCheck (some p)
    | none => { s with pair := { s.pair with enabling := true } }

/-- PAR_CTL_ENABLE (R440). -/
def execParCtlEnable (s : State) : Host.Outcome State Fault Refusal := s.askPair.done

/-- A write of 0 to PAR_CTL.ENABLE (R439): it leaves the pair from JOINING or TAKEN_OVER, and is ignored in other states. -/
def State.leavePair (s : State) : State :=
  if s.pairState = pairJoining then s.leaveJoin.put PAR_CTL.ENABLE false
  else if s.pairState = pairTakenOver then (s.clearPair.pairEnter pairAlone).put PAR_CTL.ENABLE false
  else s

/-- PAR_CTL_LEAVE (R439). -/
def execParCtlLeave (s : State) : Host.Outcome State Fault Refusal := s.leavePair.done

/-- PARAMS_TIMEOUT (R440): the partner's parameters have not arrived within 100 ms. -/
def execParamsTimeout (s : State) : Host.Outcome State Fault Refusal :=
  if s.pair.enabling then (s.runPairCheck none).done else s.done

/-- The epoch in PAR_TAKEOVER is not above both epochs. -/
def State.epochStale (s : State) : Bool :=
  decide (s.rd PAR_TAKEOVER.EPOCH ≤ s.rd PAR_EPOCH.CUR) || decide (s.rd PAR_TAKEOVER.EPOCH ≤ s.rd PAR_EPOCH.PEER)

/-- The take-over check (R457). -/
def State.takeoverCheck (s : State) : Nat :=
  let st := s.pairState
  firstCode
    [(st != pairMirrored && st != pairExposed && st != pairResync, 0xCD), (s.epochStale, 0xCB),
     (s.linkUp && s.rd PAR_STAT.PEERSTATE != pairFenced, 0xCC), (s.on PAR_STAT.PEERDIRTY && !s.on PAR_CTL.FORCE, 0xCE)]

/-- The member is home for everything, under the new epoch. Writes that wait for the partner are completed; the journal can no longer be acknowledged and is
emptied (DEDUCED). -/
def State.takenOver (s : State) : State :=
  let waits := s.journalWaits
  let s := { s with pair := { s.pair with journal := [], fetches := [], fetchQueue := [] } }.journalStatus
  let s := (s.pairEnter pairTakenOver).wr PAR_STAT.HOME 3
  let s := (s.wr PAR_EPOCH.CUR (s.rd PAR_TAKEOVER.EPOCH)).wr PAR_CTL.CHECK 0
  (s.raise srcParFence).completeWrites waits outWrite

/-- Take over (R457). -/
def State.takeOver (s : State) : State :=
  match s.takeoverCheck with
  | 0 => s.takenOver
  | code => s.wr PAR_CTL.CHECK code

/-- PAR_CTL_TAKEOVER (R457); the same write sets FORCE. -/
def execParCtlTakeover (force : Bool) (s : State) : Host.Outcome State Fault Refusal :=
  (s.put PAR_CTL.FORCE force).takeOver.done

/-- The member is home for its natural half under the new epoch, and tells the partner. -/
def State.givenBack (s : State) : State :=
  let epoch := s.rd PAR_TAKEOVER.EPOCH
  let s := (s.wr PAR_STAT.HOME s.naturalHome).wr PAR_EPOCH.CUR epoch
  (s.wr PAR_CTL.CHECK 0).ctrl (.giveback epoch)

/-- The give-back check (R458). -/
def State.givebackCheck (s : State) : Nat :=
  firstCode [(s.pairState != pairMirrored || s.rd PAR_STAT.HOME != 3, 0xCD), (s.epochStale, 0xCB)]

/-- Give back the partner's natural half (R458). -/
def State.giveBack (s : State) : State :=
  match s.givebackCheck with
  | 0 => s.givenBack
  | code => s.wr PAR_CTL.CHECK code

/-- PAR_CTL_GIVEBACK (R458). -/
def execParCtlGiveback (s : State) : Host.Outcome State Fault Refusal := s.giveBack.done

/-- Enter FENCED on request (R439, R456): from any state but ALONE and FENCED. -/
def State.askFence (s : State) : State :=
  if s.pairState = pairAlone ∨ s.pairState = pairFenced then s else s.fenceNow

/-- PAR_CTL_FENCE (R456). -/
def execParCtlFence (s : State) : Host.Outcome State Fault Refusal := s.askFence.done

/-- Discard a FENCED member's contents (R456); ignored in other states. -/
def State.askDiscard (s : State) : State := if s.pairState = pairFenced then s.discardAll else s

/-- PAR_CTL_DISCARD (R456). -/
def execParCtlDiscard (s : State) : Host.Outcome State Fault Refusal := s.askDiscard.done

/-- The PAIR_DISCARD commands in the background end with it (R541). -/
def State.endDiscards (s : State) : State :=
  (s.mbx.ccis.filter fun (e : Nat × Cci) => match e.2.background with
    | some b => b.op == .pairDiscard
    | none => false).foldl (fun s e => s.endBackground e.1 rcSuccess) s

/-- The member is ALONE, home for everything, with its epoch kept. -/
def State.standAlone (s : State) : State :=
  ((s.clearPair.pairEnter pairAlone).wr PAR_STAT.HOME 3).put PAR_CTL.ENABLE false

/-- DISCARD_END (R456): the releases have ended; the member is ALONE with its epoch kept. -/
def execDiscardEnd (s : State) : Host.Outcome State Fault Refusal :=
  if s.pair.discarding && s.committed.isEmpty && s.releasing.isEmpty then
    let s := { s with pair := { s.pair with discarding := false } }.endDiscards
    (if s.pairState = pairFenced then s.standAlone else s).done
  else s.done

/-- Exports to the partner and receive slots abort when Contrail stays down past the partner timeout (R201). -/
def State.abortPartnerSlots (s : State) : State :=
  s.liveSlots.foldl (fun s n =>
    let st := s.slotState n
    let open' := [slotArming, slotArmed, slotPreserving, slotDraining].contains st
    if open' && ((s.slot n).receive || s.rdAt SNP_ARM.TARGET n == targetPartner) then s.abortSlot n abortPartner else s) s

/-- PTIMEOUT_EXPIRY (R449, R450): UNRESP has held for PTIMEOUT. -/
def execPtimeoutExpiry (s : State) : Host.Outcome State Fault Refusal :=
  if !s.on PAR_STAT.UNRESP then s.done
  else
    let s := if s.linkUp then s else s.abortPartnerSlots
    if s.pairState = pairMirrored ∨ s.pairState = pairResync then s.exposeNow.done
    else if s.pairState = pairJoining then s.leaveJoin.done
    else s.done

/-- MIRACK_STALL_TIMEOUT (R449): the journal is not empty, and 100 µs have passed without MIRACK progress. -/
def execMirackStallTimeout (s : State) : Host.Outcome State Fault Refusal :=
  if s.pair.journal.isEmpty then s.done else { s with pair := { s.pair with stalled := true } }.done

/-- The member sends stripes: in RESYNC, or as the source of a join, over the link, and not under the guard. -/
def State.sendsStripes (s : State) : Bool :=
  (s.pairState == pairResync || (s.pairState == pairJoining && !s.on PAR_STAT.ROLE)) && s.linkUp && !s.on PWR_STAT.GUARD

/-- A page of the stripe is on a channel whose panic holds the resync. -/
def State.stripePanics (s : State) (k : Nat) : Bool :=
  (List.range 16).any fun i =>
    (s.locationChannel (s.entry (k * 16 + i)).loc).any fun c => s.panicHolds masterResync c

/-- The lines of a stripe go to the partner. -/
def State.sendStripe (s : State) (k : Nat) (fs : Finds) : State :=
  let s := ((List.range 16).map fun i => k * 16 + i).foldl (fun s p => s.sendPage fs p) s
  let s := { s with pair := { s.pair with sent := s.pair.sent.add k } }.ctrl (.stripeDone k)
  s.event Ev.stripesResynced 0

/-- RESYNC_STRIPE (R452): in RESYNC and on the source of a join, the next stripe whose bit is set and that was not sent yet;
`fs` gives what the reads of stored lines find. -/
def execResyncStripe (fs : Finds) (s : State) : Host.Outcome State Fault Refusal :=
  match s.pair.outbits.find? fun k => !s.pair.sent.has k with
  | some k =>
    if s.sendsStripes && s.stripePanics k then (s.holdUnits masterResync 1).done
    else if s.sendsStripes then
      (s.sendStripe k fs).done
    else s.done
  | none => s.done

/-- PSTAT_SEND (R451): every 100 µs. -/
def execPstatSend (s : State) : Host.Outcome State Fault Refusal :=
  if s.linkUp && s.pairState != pairAlone then
    (s.ctrl (.pstat s.pair.outbits.length s.pair.journal.length (s.rd PAR_EPOCH.CUR))).done
  else s.done

end Sys2Proof.Machine
end

