-- ==== Sys2Proof/Machine/Power.lean ====
section
/-! DEFINITION. Power states and domains (19_power_states.md): the states and their changes (R547–R554), domain requests (R555,
R556, R558), the brownout guard (R560). -/

namespace Sys2Proof.Machine

/-- PWR_STAT.STATE codes (R563). -/
def pwrClear : Nat := 0
def pwrHaze : Nat := 1
def pwrOvercast : Nat := 2
def pwrNight : Nat := 3

/-- LASTWAKE codes (R563). -/
def wakeNone : Nat := 0
def wakeClear : Nat := 4
def wakeActivity : Nat := 5

/-- LASTWAKE code of a source. -/
def sourceCode : WakeSource → Nat
  | .link => 1
  | .contrail => 2
  | .vsense => 3

/-- PWR_DOMSTAT.STATE codes (R564). -/
def domOn : Nat := 0
def domGated : Nat := 1
def domOff : Nat := 2
def domRetention : Nat := 3

/-- The fault source of a late wake (R561). -/
def srcWakeLate : Nat := 7

/-- Change the power state: its entry and the time in the old one are counted. -/
def State.setPower (s : State) (st : Nat) : State :=
  let old := s.rd PWR_STAT.STATE
  let s := s.occur Ev.stateTime old ((s.time - s.pow.since) / 400) none
  ({ s with pow := { s.pow with since := s.time } }.wr PWR_STAT.STATE st).event Ev.stateEntries st

/-- A change of domains that the state brings about leaves held ones as they are (R558). -/
def State.gateFor (s : State) (ds : List Nat) (st : Nat) : State :=
  ds.foldl (fun s d =>
    if s.rdAt PWR_DOMSTAT.STATE d = domOn ∧ (st = domRetention ∨ s.held d = false) then s.wrAt PWR_DOMSTAT.STATE d st else s) s

/-- Domains return to ON from a state of the device; those that a request took off stay so. -/
def State.ungate (s : State) (ds : List Nat) (st : Nat) : State :=
  ds.foldl (fun s d => if s.rdAt PWR_DOMSTAT.STATE d = st then s.wrAt PWR_DOMSTAT.STATE d domOn else s) s

/-- Domains that HAZE puts in retention and that it gates (R547): Cirrus, the map cache and the halo directory; the codec,
the protection unit's neighbours 9 and 10, and 31. -/
def hazeRetained : List Nat := [6, 7, 8]
def hazeGated : List Nat := [9, 10, 31]

/-- Domains that OVERCAST gates as well: the drift engines. Service cores 1–5 share domain 25 with core 0, whose state it does
not change (R547, R550). -/
def overcastGated : List Nat := [26, 27, 28, 29, 30]

/-- Nothing moves in the device (R548). -/
def State.quiet (s : State) : Bool :=
  s.reqs.isEmpty && s.qos.port.isEmpty && s.con.openMW.isEmpty && !(s.que.descs.any fun d => d.status.isNone) &&
    s.hal.trackers.isEmpty && s.plc.moves.isEmpty && s.med.scrubs.isEmpty && s.pairState != pairResync &&
    !(s.liveSlots.any fun n => s.cursorRuns n)

/-- Leave HAZE or OVERCAST for CLEAR. -/
def State.toClear (s : State) (why : Nat) : State :=
  let s := ((s.ungate hazeRetained domRetention).ungate hazeGated domGated).ungate overcastGated domGated
  (s.setPower pwrClear).wr PWR_STAT.LASTWAKE why

/-- A link in L0 exists. -/
def State.someL0 (s : State) : Bool := (List.range 8).any fun n => s.isUp n && s.inL0 n

/-- The source is selected (R553). -/
def State.wakeSelected (s : State) : WakeSource → Bool
  | .link => s.on PWR_CFG.WAKE_LINK
  | .contrail => s.on PWR_CFG.WAKE_CON
  | .vsense => s.on PWR_CFG.WAKE_VSENSE

/-- WAKE_N is asserted by a wake that is not host link activity while a link stays in L2 (R553). -/
def State.assertWake (s : State) (why : Nat) : State :=
  if why = 1 then s
  else { s with chip := { s.chip with wakeN := s.links.any fun x => x.2.state == .l2 } }

/-! ### NIGHT (R551–R554) -/

/-- The check of a NIGHT request. -/
def State.nightCheck (s : State) : Nat :=
  firstCode [
    (s.pairState == pairJoining || s.mirroring || s.pairState == pairResync, 0xD7),
    (s.rd CIR_HOLDCFG.HELD != 0, 0xD8),
    (!s.on SYS_CTL.DEV_ENABLE, 0xD6)]

/-- A NIGHT request (R551). -/
def State.askNight (s : State) : State :=
  let code := s.nightCheck
  let s := s.wr PWR_CTL.CHECK code
  if code = 0 then (s.put PWR_STAT.PENDING true).put PWR_CTL.NIGHT true else s

/-- Drop a pending NIGHT request. -/
def State.dropNight (s : State) : State :=
  ({ s with pow := { s.pow with night := 0 } }.put PWR_STAT.PENDING false).put PWR_CTL.NIGHT false

/-- The exit from NIGHT begins (R554 step 1): the domains are powered up. -/
def State.leaveNight (s : State) (why : Nat) : State :=
  let s := (List.range 33).foldl (fun s d => s.wrAt PWR_DOMSTAT.STATE d domOn) s
  ({ s with pow := { s.pow with leaving := 1 } }.wr PWR_STAT.LASTWAKE why).assertWake why

/-- A CLEAR request (R551, R553). -/
def State.askClear (s : State) : State :=
  let s := s.wr PWR_CTL.CHECK 0
  if s.rd PWR_STAT.STATE = pwrNight then (if s.pow.leaving = 0 then s.leaveNight wakeClear else s)
  else if s.on PWR_STAT.PENDING then (if s.pow.night = 0 then s.dropNight else s)
  else if s.rd PWR_STAT.STATE = pwrClear then s
  else s.toClear wakeClear

/-- The last host link is in L1.2 or L2. -/
def State.linksAsleep (s : State) : Bool :=
  (List.range 8).all fun n =>
    !s.isUp n || (s.link n).state == .l12 || (s.link n).state == .l2

/-- NIGHT entry, step 1: queues stop, scrubs stop, snapshot slots abort, moves abort, the sweep ends (R552). -/
def State.nightStops (s : State) : State :=
  let s := (s.que.descs.filter fun d => d.status.isNone && !completesOnDisable d.op).foldl (fun s d => s.stopDesc d stStopped) s
  let s := ((s.med.scrubs.map fun e => e.2.owner) ++ (s.med.scrubWait.map fun w => w.owner)).foldl State.stopScrub s
  let live := s.liveSlots.filter fun n =>
    s.slotState n == slotArming || s.slotState n == slotPreserving || s.slotState n == slotDraining
  let s := live.foldl (fun s n => s.abortSlot n abortNight) s
  let s := s.plc.moves.foldl (fun s m => s.abortMove m true true 6) s
  { s with cir := { s.cir with sweep := none }, pow := { s.pow with night := 1 } }.put CIR_SWEEP.START false

/-- Step 3: Cirrus is flushed and emptied, pins included, and the caches and the write path are written back. -/
def State.nightFlush (s : State) (fs : Finds) : State :=
  let s := (s.flush (fun _ => true) true fs).2
  let s := (s.cir.ways.map Prod.fst).foldl (fun s k => s.dropWay k) s
  let s := (s.writeBackCaches).drainPath fs
  { s with pow := { s.pow with night := 3 } }

/-- Step 4: Contrail goes to OFF, the channels enter self-refresh, the domains but 0 are powered down or kept in retention, and
the PLLs stop. Registers and queue state keep their values, which stands for their saving and restoring (R552, R554; DESIGN
CHOICE). The sampling buffer is cleared (R598). -/
def State.nightFall (s : State) : State :=
  let plls := [s.rd CLK_STAT.ROOT, s.rd CLK_STAT.DRAM, s.rd CLK_STAT.HOST, s.rd CLK_STAT.CON]
  let s := if s.rd CON_STAT.STATE = conOff then s else s.conDropTo conOff downSoftware
  let chans : Table Channel := s.dram.channels.map fun (c : Nat × Channel) => (c.1, { c.2 with selfRefresh := true })
  let s := { s with dram := { s.dram with channels := chans }, smp := {} }
  let s := (List.range 33).foldl (fun s d =>
    if d = 0 then s else s.wrAt PWR_DOMSTAT.STATE d (if s.held d || d == 8 then domRetention else domOff)) s
  let s := (((s.wr CLK_STAT.ROOT 0).wr CLK_STAT.DRAM 0).wr CLK_STAT.HOST 0).wr CLK_STAT.CON 0
  let s := ((s.dropNight).setPower pwrNight).inc PWR_STAT.NIGHTS
  { s with pow := { s.pow with plls := plls, heldLinks := [] } }

/-- A link that tried to leave its low-power state during NIGHT is released to L0 (R554 step 6). -/
def State.releaseLink (s : State) (n : Nat) : State :=
  let s := s.setLink n { s.link n with state := .l0 }
  (s.putAt LNK_LSTAT.UP n true).linkWoke n

/-! ### Domain requests (R555, R556, R558) -/

/-- Actions. -/
def actOn : Nat := 0
def actGate : Nat := 1
def actOff : Nat := 2

/-- The domain has the action (R555). -/
def domainAllows (d action : Nat) : Bool :=
  let gate := (2 ≤ d && d ≤ 5) || (9 ≤ d && d ≤ 12) || (26 ≤ d && d ≤ 31)
  let off := (2 ≤ d && d ≤ 5) || d == 9 || d == 10 || (12 ≤ d && d ≤ 23) || (26 ≤ d && d ≤ 30)
  action == actOn || (action == actGate && gate) || (action == actOff && off)

/-- An in-use condition holds (R555). -/
def State.domainInUse (s : State) (d : Nat) : Bool :=
  if 2 ≤ d ∧ d ≤ 5 then s.chip.perstOff.has (d - 2)
  else if d = 12 then !s.liveSlots.isEmpty
  else if 13 ≤ d ∧ d ≤ 15 then bit (s.rd CON_STAT.BUNDLES) (d - 13)
  else if 16 ≤ d ∧ d ≤ 23 then s.inService (2 * (d - 16)) || s.inService (2 * (d - 16) + 1)
  else false

/-- A NIGHT entry or exit, or a warm reset, is in progress. -/
def State.inTransition (s : State) : Bool :=
  s.pow.night != 0 || s.rd PWR_STAT.STATE == pwrNight || s.on RST_CTL.WARM

/-- The refuser of a domain request, 0 for none, in the order of R558. A request to turn a domain on is refused only in a
transition (DEDUCED). -/
def State.refuserOf (s : State) (who : Asker) (d action : Nat) : Nat :=
  let down := action != actOn
  firstCode [
    (down && who != .zenith && s.held d, refuserHold),
    (!domainAllows d action, refuserAlways),
    (down && s.domainInUse d, refuserInUse),
    (s.inTransition, refuserTransition)]

/-- A domain request (R558): its code, its refuser, and the state. -/
def State.askDomain (s : State) (who : Asker) (d action : Nat) : Nat × Nat × State :=
  if 32 < d ∨ 2 < action then (0xD6, 0, s)
  else
    let r := s.refuserOf who d action
    if r ≠ 0 then (if r = refuserHold then 0xD4 else 0xD9, r, s.refuseDomain who d action r)
    else if action = actOn then
      let s := { s with pow := { s.pow with gates := s.pow.gates.erase d } }
      let st := s.rdAt PWR_DOMSTAT.STATE d
      (0, 0, if st = domGated ∨ st = domOff then s.putAt PWR_DOMSTAT.WAKING d true else s)
    else (0, 0, { s with pow := { s.pow with gates := s.pow.gates.put d action } })

/-- Drift engines of a domain stop, or go on. -/
def State.driftDomain (s : State) (d : Nat) (run : Bool) : State :=
  if 26 ≤ d ∧ d ≤ 30 then
    ((List.range 8).foldl (fun s i => s.setRunning (6 + 8 * (d - 26) + i) run) s).driftStatus
  else s

/-! ### The brownout guard (R560) -/

/-- The fault source of a rail (R559). -/
def railSource (rail : Nat) : Nat := [0, 1, 6, 2, 2, 3, 3].getD rail 0

/-- The guard is engaged or lifted: snapshot slots and placement show it. -/
def State.showGuard (s : State) (b : Bool) : State :=
  let s := (s.put PWR_STAT.GUARD b).put PLC_STATUS.PAUSED b
  s.liveSlots.foldl (fun s n => s.putAt SNP_STATUS.PAUSED n b) s

end Sys2Proof.Machine
end

