-- ==== Sys2Proof/Machine/PowerCmds.lean ====
section
/-! DEFINITION. Power commands and events (19_power_states.md). -/

namespace Sys2Proof.Machine

/-! ### HAZE and OVERCAST (R548–R550, R553) -/

/-- HAZE_ENTRY (R548): HAZE_IDLE has passed without activity. -/
def execHazeEntry (s : State) : Host.Outcome State Fault Refusal :=
  if s.clearState && s.on SYS_CTL.DEV_ENABLE && s.rd PWR_CFG.HAZE_IDLE != 0 && s.quiet && s.pow.night == 0 then
    (((s.gateFor hazeRetained domRetention).gateFor hazeGated domGated).setPower pwrHaze).done
  else s.done

/-- HAZE_EXIT (R549): activity ends HAZE; `late` where the arrays took more than 2 µs (R561). -/
def execHazeExit (late : Bool) (s : State) : Host.Outcome State Fault Refusal :=
  if s.rd PWR_STAT.STATE = pwrHaze then
    let s := s.toClear wakeActivity
    (if late then s.raise srcWakeLate else s).done
  else s.done

/-- OVERCAST_ENTRY (R550): OVC_IDLE has passed with every link in L1 or deeper and without activity; Contrail is OFF or DOWN,
and no excursion sweep runs. -/
def execOvercastEntry (s : State) : Host.Outcome State Fault Refusal :=
  let st := s.rd PWR_STAT.STATE
  let con := s.rd CON_STAT.STATE
  if (st == pwrClear || st == pwrHaze) && s.on SYS_CTL.DEV_ENABLE && s.rd PWR_CFG.OVC_IDLE != 0 && s.quiet && !s.someL0 &&
      (con == conOff || con == conDown) && s.cir.sweep.isNone && s.pow.night == 0 then
    let s := ((s.gateFor hazeRetained domRetention).gateFor hazeGated domGated).gateFor overcastGated domGated
    (s.setPower pwrOvercast).done
  else s.done

/-- OVERCAST_WAKE (R553, R554): a selected source. -/
def execOvercastWake (source : WakeSource) (s : State) : Host.Outcome State Fault Refusal :=
  if s.rd PWR_STAT.STATE = pwrOvercast ∧ s.wakeSelected source = true then
    ((s.toClear (sourceCode source)).assertWake (sourceCode source)).done
  else s.done

/-- LINK_LOW_POWER_ENTRY (R21, R550): a link leaves L0. -/
def execLinkLowPowerEntry (link : Nat) (to' : LowPower) (s : State) : Host.Outcome State Fault Refusal :=
  if s.inL0 link then
    let st : LinkState := match to' with
      | .l1 => .l1
      | .l11 => .l11
      | .l12 => .l12
      | .l2 => .l2
    (s.setLink link { s.link link with state := st }).done
  else s.done

/-! ### NIGHT (R551–R554) -/

/-- PWR_CTL_NIGHT (R551). -/
def execPwrCtlNight (s : State) : Host.Outcome State Fault Refusal := s.askNight.done

/-- PWR_CTL_CLEAR (R551, R553). -/
def execPwrCtlClear (s : State) : Host.Outcome State Fault Refusal := s.askClear.done

/-- NIGHT_ENTRY (R552): the last host link has reached L1.2 or L2 with a request pending. -/
def execNightEntry (s : State) : Host.Outcome State Fault Refusal :=
  if s.on PWR_STAT.PENDING && s.pow.night == 0 && s.linksAsleep then s.nightStops.done else s.done

/-- NIGHT_ENTRY_STEP (R552): step 2, 3 or 4 completes. -/
def execNightEntryStep (fs : Finds) (s : State) : Host.Outcome State Fault Refusal :=
  match s.pow.night with
  | 1 => { s with pow := { s.pow with night := 2 } }.done
  | 2 => (s.nightFlush fs).done
  | 3 => s.nightFall.done
  | _ => s.done

/-- NIGHT_WAKE (R552–R554): a selected source wakes the device; host link activity before step 4 of the entry cancels it. -/
def execNightWake (source : WakeSource) (s : State) : Host.Outcome State Fault Refusal :=
  if s.pow.night ≠ 0 then (if source = .link then s.dropNight.done else s.done)
  else if s.rd PWR_STAT.STATE = pwrNight ∧ s.pow.leaving = 0 ∧ s.wakeSelected source = true then
    (s.leaveNight (sourceCode source)).done
  else s.done

/-- NIGHT_EXIT_STEP (R554): the next step completes; `ok` says whether the read recalibration of step 3 passes. -/
def execNightExitStep (ok : Bool) (s : State) : Host.Outcome State Fault Refusal :=
  let on' := fun (n : Nat) (s : State) => { s with pow := { s.pow with leaving := n } }
  match s.pow.leaving with
  | 1 =>
    let p := fun (i : Nat) => s.pow.plls.getD i 0
    (on' 2 ((((s.wr CLK_STAT.ROOT (p 0)).wr CLK_STAT.DRAM (p 1)).wr CLK_STAT.HOST (p 2)).wr CLK_STAT.CON (p 3))).done
  | 2 =>
    if ok then
      let chans : Table Channel := s.dram.channels.map fun (c : Nat × Channel) => (c.1, { c.2 with selfRefresh := false })
      (on' 3 { s with dram := { s.dram with channels := chans } }).done
    else (s.coldReset causeWarmFail 0 0).done
  | 3 => (on' 4 (if s.on CON_CTL.LINKEN then s.startLink else s)).done
  | 4 => (on' 5 (s.setPower pwrClear)).done
  | 5 => ((on' 0 (s.pow.heldLinks.foldl State.releaseLink s)).releaseInterrupt).done
  | _ => s.done

/-! ### Domains (R556, R558) -/

/-- DOMAIN_WAKE (R556): an access needs a domain of the wake-on-demand class that is gated or off. -/
def execDomainWake (domain : Nat) (s : State) : Host.Outcome State Fault Refusal :=
  let st := s.rdAt PWR_DOMSTAT.STATE domain
  if ([9, 10, 11, 31].contains domain) && (st == domGated || st == domOff) then (s.wakeDomain domain).done else s.done

/-- DOMAIN_WAKE_END (R556): a woken domain is ON, and held accesses go on; `late` where the wake exceeded its bound. -/
def execDomainWakeEnd (domain : Nat) (late : Bool) (s : State) : Host.Outcome State Fault Refusal :=
  if s.onAt PWR_DOMSTAT.WAKING domain then
    let gated := s.rdAt PWR_DOMSTAT.STATE domain == domGated
    let s := (s.putAt PWR_DOMSTAT.WAKING domain false).wrAt PWR_DOMSTAT.STATE domain domOn
    let s := if gated then s.driftDomain domain true else s
    (if late then s.raise srcWakeLate else s).done
  else s.done

/-- The request that PWR_DOMSEL and PWR_DOMCTL name through a path (R558). -/
def State.askNamedDomain (s : State) (p : Path) : State :=
  let (code, r, s) := s.askDomain (askerOf p) (s.rdAt PWR_DOMSEL.DOMAIN (pathCopy p)) (s.rd PWR_DOMCTL.ACTION)
  let s := s.wr PWR_DOMCTL.CHECK code
  if r = 0 then s else s.wr PWR_DOMCTL.REFUSER r

/-- PWR_DOMCTL_GO (R558, R564): a write of 1 to GO through a path. -/
def execPwrDomctlGo (p : Path) (s : State) : Host.Outcome State Fault Refusal := (s.askNamedDomain p).done

/-- A domain is gated or switched off (R556). -/
def State.gateNow (s : State) (domain action : Nat) : State :=
  let s := { s with pow := { s.pow with gates := s.pow.gates.erase domain } }
  let s := (s.wrAt PWR_DOMSTAT.STATE domain action).driftDomain domain false
  if s.held domain then s.putAt PWR_DOMSTAT.WAKING domain true else s

/-- DOMAIN_GATE_EFFECT (R556): no access is in flight in a domain whose gate or off request was accepted. One that is held by
now wakes again (R485). -/
def execDomainGateEffect (domain : Nat) (s : State) : Host.Outcome State Fault Refusal :=
  match s.pow.gates.find domain with
  | none => s.done
  | some action =>
    (s.gateNow domain action).done

/-! ### Supply (R560) -/

/-- A rail falls below its warning level (R560). -/
def State.warnSupply (s : State) (rail : Nat) : State :=
  let s := (s.wr VMON_STAT.BELOW (setBit (s.rd VMON_STAT.BELOW) rail true)).incAt VMON_LEVEL.EXCUR rail
  let s := if s.guarded then s else { s with pow := { s.pow with guardSince := s.time } }.showGuard true
  s.raise (railSource rail)

/-- SUPPLY_WARNING (R560): a rail crosses below its warning level. -/
def execSupplyWarning (rail : Nat) (s : State) : Host.Outcome State Fault Refusal :=
  if 6 < rail then s.done
  else
    (s.warnSupply rail).done

/-- The guard is lifted, and the time that it was engaged is counted. -/
def State.liftGuard (s : State) : State :=
  ((s.occur Ev.guardTime 0 ((s.time - s.pow.guardSince) / 400) none).wr VMON_STAT.BELOW 0).showGuard false

/-- GUARD_LIFT (R560): every rail has been above its warning level plus HYST for 100 µs; held work goes on, and the excursion
sweep starts (R114). -/
def execGuardLift (s : State) : Host.Outcome State Fault Refusal :=
  if !s.guarded then s.done
  else
    let s := s.liftGuard
    (if s.rd PWR_STAT.STATE = pwrNight then s else s.startSweep true).done

end Sys2Proof.Machine
end

