-- ==== Sys2Proof/Machine/KamconRas.lean ====
section
/-! DEFINITION. Kamcon's DRAM and RAS commands (R538, R539), and its pair, power and firmware commands (R540). -/

namespace Sys2Proof.Machine

/-! ### Channels (R243–R248, R538) -/

/-- Fields of DMC_COMMIT. -/
def channelFields : List (Nat × Nat × Nat) :=
  [(0, 0, 3), (2, 0, 16), (4, 0, 4), (5, 0, 4)] ++ (List.range 16).map fun n => (8 + n, 0, 5)

/-- The configuration of the channels comes from a payload (R538). -/
def State.stageChannels (s : State) (input : List Byte) : State :=
  let s := (s.storeFields [DMC_CFG.SPEED, DMC_CFG.EXCLUDE] 0 (field input 0 4)).storeFields
    [DMC_METACFG.PRIMARY, DMC_METACFG.SECONDARY] 0 (field input 4 1 + field input 5 1 * 16)
  (List.range 16).foldl (fun (s : State) n =>
    s.storeFields [DMC_CHCFG.MODE, DMC_CHCFG.AORDER, DMC_CHCFG.REFMODE] n (field input (8 + n) 1)) s

/-- DMC_COMMIT (R248, R538). -/
def execDmcCommit (cci : Nat) (input : List Byte) (s : State) : Host.Outcome State Fault Refusal :=
  (s.kamcon cci (.dmcCommit cci input) input 24 0 channelFields fun s =>
    if s.on DMC_COMMIT.COMMIT then s.answerCode cci 0x03
    else
      let s := (s.stageChannels input).askChannels
      s.answerCode cci (s.rd DMC_COMMIT.CHECK)).done

/-- CHANNEL_RELEASE (R243, R244, R538). -/
def execChannelRelease (cci : Nat) (input : List Byte) (s : State) : Host.Outcome State Fault Refusal :=
  (s.kamcon cci (.channelRelease cci input) input 1 0 [(0, 0, 4)] fun s =>
    let c := field input 0 1
    if !s.frozen c then s.answerCode cci 0x6B
    else
      let kept := s.onAt DMC_CHSTAT.KEPT c
      (s.askChannelRelease c).answerCode cci (if kept then 0 else 0x6A)).done

/-- SPARE_START (R245, R538). -/
def execSpareStart (cci : Nat) (input : List Byte) (s : State) : Host.Outcome State Fault Refusal :=
  (s.kamcon cci (.spareStart cci input) input 2 0 [(0, 0, 4), (1, 0, 3)] fun s =>
    let c := field input 0 1
    let rank := field input 1 1
    if s.rdAt DMC_CHSTAT.SPARESTAT c ≠ spareReady ∨ s.spareRank c ≤ rank then s.answerCode cci 0x6C
    else ((s.wrAt DMC_SPARECTL.RANK c rank).askSpareRank c).answerCode cci 0).done

/-! ### Poison (R264, R267, R538, R539) -/

/-- A record of R539 before it is encoded: line, source, claim, lines, timestamp of the first. -/
structure ListedLines where
  line : Nat
  source : Nat
  claim : Nat
  count : Nat
  ts : Nat
  deriving DecidableEq, Repr

/-- Adjacent lines of one source and claim make one record. -/
def joinListed : List ListedLines → List ListedLines
  | [] => []
  | x :: rest =>
    match joinListed rest with
    | y :: more =>
      if y.line = x.line + 1 ∧ y.source = x.source ∧ y.claim = x.claim then { x with count := y.count + 1 } :: more
      else x :: y :: more
    | [] => [x]

/-- The claim that a DPA belongs to, while it is committed or releasing; 0xFFFF where there is none. -/
def State.ownerOf (s : State) (dpa : Nat) : Nat :=
  ((s.committed ++ s.releasing).find? fun c => s.inClaim c dpa).getD 0xFFFF

/-- The records of a POISON_LIST over lines `[from', to')`. A pending entry comes from a UE, which is Internal (R262; DEDUCED). -/
def State.listPoison (s : State) (pending : Bool) (from' to' : Nat) : List ListedLines :=
  let inside := fun (l : Nat) => decide (from' ≤ l * 64) && decide (l * 64 < to')
  if pending then joinListed ((s.med.pending.filter fun (e : Nat × Nat) => inside e.1).map fun e => ⟨e.1, 2, 0xFFFF, 1, e.2⟩)
  else joinListed ((s.med.poison.filter fun (e : Nat × PoisonEntry) => inside e.1).map fun e =>
    ⟨e.1, e.2.source.code, s.ownerOf (e.1 * 64), 1, e.2.ts⟩)

/-- The 24 bytes of a record (R539). -/
def ListedLines.bytes (x : ListedLines) (pending : Bool) : List Nat :=
  outBytes (x.line % 2 ^ 39 + x.source * 2 ^ 39 + flag pending * 2 ^ 42) 8 ++ outBytes x.claim 2 ++ [0, 0] ++
    outBytes x.count 4 ++ outBytes x.ts 8

/-- Records of one response (R538). -/
def listedPerResponse : Nat := 169

/-- The body of POISON_LIST's answer for a range (R538). -/
def State.listedBytes (s : State) (pending : Bool) (from' to' : Nat) : List Nat :=
  let rs := s.listPoison pending from' to'
  let shown := rs.take listedPerResponse
  let flags := flag (decide (listedPerResponse < rs.length)) + 2 * s.rd MED_POISONSTAT.OVERFLOW
  outBytes shown.length 4 ++ [flags, 0, 0, 0] ++ outBytes (s.rd MED_POISONOVTS.TS) 8 ++ shown.flatMap fun x => x.bytes pending

/-- POISON_LIST (R538). -/
def execPoisonList (cci : Nat) (input : List Byte) (s : State) : Host.Outcome State Fault Refusal :=
  (s.kamcon cci (.poisonList cci input) input 17 16 [(0, 0, 64), (8, 0, 64), (16, 0, 1)] fun s =>
    let start := field input 0 8
    let pending := field input 16 1 == 1
    if start % 64 ≠ 0 then s.answer cci 0x02 0 (List.replicate 16 0)
    else s.answer cci 0 0 (s.listedBytes pending start (start + field input 8 8))).done

/-- POISON_CLEAR (R267, R538): a full-line write from the platform. -/
def execPoisonClear (cci : Nat) (input : List Byte) (s : State) : Host.Outcome State Fault Refusal :=
  (s.kamcon cci (.poisonClear cci input) input 72 0 [(0, 0, 64), (8, 0, 512)] fun s =>
    let dpa := field input 0 8
    if dpa % 64 ≠ 0 ∨ (s.claimOf dpa).isNone then s.answerCode cci 0x02
    else if !s.listed (dpa / 64) || (s.entry (dpa / 4096)).state == .lost then s.answerCode cci 0x03
    else (s.engineWrite ⟨dpa / 64, Line.ofBytes (input.drop 8), ByteMask.full, false⟩).answerCode cci 0).done

/-! ### Scrubs (R268–R272, R538) -/

/-- SCRUB_RANGE (R268–R270, R538, R541). -/
def execKamconScrubRange (cci : Nat) (input : List Byte) (s : State) : Host.Outcome State Fault Refusal :=
  (s.kamcon cci (.kamconScrubRange cci input) input 24 0 [(0, 0, 2), (1, 0, 8), (8, 0, 64), (16, 0, 64)] fun s =>
    s.inBackground cci fun s =>
      let logical := bit (field input 0 1) 0
      let verify := bit (field input 0 1) 1
      let base := field input 8 8
      let len := field input 16 8
      let c := field input 1 1
      if !s.scrubRangeOk logical c base len then s.answerCode cci 0x02
      else ((s.startBackground cci { op := .scrubRange }).answerStarted cci).startScrub (.kamcon cci) logical verify c base len).done

/-- SCRUB_RESULT (R270, R538). -/
def execScrubResult (cci : Nat) (input : List Byte) (s : State) : Host.Outcome State Fault Refusal :=
  (s.kamcon cci (.scrubResult cci input) input 0 128 [] fun s =>
    match (s.cci cci).summary with
    | none => s.answer cci 0x03 0 (List.replicate 128 0)
    | some x => s.answer cci 0 0 (x.bytes.map fun b => b.toNat)).done

/-- The three bytes of the scrub policy (R538). -/
def State.policyBytes (s : State) : List Nat :=
  [flag s.med.policyOn + 2 * flag s.med.policySpare + 4 * flag s.med.policyQueue, s.med.policyHours, s.med.policyWindow]

/-- The scrub policy is as a payload says (R272, R538). -/
def State.setScrubPolicy (s : State) (input : List Byte) : State :=
  let v := field input 0 1
  { s with med := { s.med with
    policyOn := bit v 0, policySpare := bit v 1, policyQueue := bit v 2
    policyHours := field input 1 1, policyWindow := field input 2 1 } }

/-- SCRUB_POLICY (R272, R538): PERIOD and WINDOW are looked at where WRITE is 1. -/
def execScrubPolicy (cci : Nat) (input : List Byte) (s : State) : Host.Outcome State Fault Refusal :=
  (s.kamcon cci (.scrubPolicy cci input) input 3 3 [(0, 0, 3), (0, 7, 1), (1, 0, 8), (2, 0, 8)] fun s =>
    let v := field input 0 1
    let hours := field input 1 1
    let window := field input 2 1
    if !bit v 7 then s.answer cci 0 0 s.policyBytes
    else if hours = 0 ∨ 168 < hours ∨ window = 0 ∨ hours ≤ window then s.answer cci 0x02 0 [0, 0, 0]
    else (s.setScrubPolicy input).answer cci 0 0 (s.setScrubPolicy input).policyBytes).done

/-! ### Row repair (R273–R275, R538) -/

/-- The row that an input names at byte `o` on. -/
def State.rowAt (s : State) (input : List Byte) (o row : Nat) : RepairRow :=
  let c := field input o 1
  let rank := field input (o + 2) 1
  ⟨c, field input (o + 1) 1, rank, field input (o + 3) 1, field input (o + 4) 1, field input row 4, s.rankSerial c rank⟩

/-- A row lies in its channel's geometry (R538). -/
def State.rowInside (s : State) (r : RepairRow) : Bool :=
  match s.geometry r.channel with
  | none => false
  | some g => decide (r.subch < 2) && decide (r.rank < g.ranks) && decide (r.bg < 8) && decide (r.bank < 4) &&
      decide (r.row < 2 ^ g.dimm.rowBits)

/-- Two rows are at one place, whatever the DIMM. -/
def RepairRow.same (a b : RepairRow) : Bool :=
  a.channel == b.channel && a.subch == b.subch && a.rank == b.rank && a.bg == b.bg && a.bank == b.bank && a.row == b.row

/-- The first 16 bytes of an entry of REPAIR_LIST, its location at the offsets of the input (R538). -/
def RepairRow.bytes (r : RepairRow) : List Nat :=
  [0, r.channel, r.subch, r.rank, r.bg, r.bank, 0, 0] ++ outBytes r.row 4 ++ [0, 0, 0, 0]

/-- Entries of one response: what 4 KiB hold (R528, R538). -/
def entriesPerResponse : Nat := 170

/-- The body of REPAIR_LIST's answer: the number of entries, and the entries (R538). -/
def entryBytes (es : List (List Nat)) : List Nat := [es.length, 0, 0, 0, 0, 0, 0, 0] ++ es.flatten

/-- The repair list (R273). -/
def State.setRepairs (s : State) (rs : List RepairRow) : State := { s with med := { s.med with repairList := rs } }

/-- REPAIR_LIST (R273, R275, R538). Of a longer log the newest entries are given. -/
def execRepairList (cci : Nat) (input : List Byte) (s : State) : Host.Outcome State Fault Refusal :=
  (s.kamcon cci (.repairList cci input) input 12 8
      [(0, 0, 2), (1, 0, 8), (2, 0, 8), (3, 0, 8), (4, 0, 8), (5, 0, 8), (8, 0, 32)] fun s =>
    let r := s.rowAt input 1 8
    let listed := s.med.repairList.any fun x => x.same r
    let fail := fun (code : Nat) => s.answer cci code 0 (List.replicate 8 0)
    match field input 0 1 with
    | 0 => s.answer cci 0 0 (entryBytes (s.med.repairList.map fun x => x.bytes ++ outBytes x.serial 8))
    | 1 =>
      let code := firstCode [(!s.rowInside r, 0x02), (decide (32 ≤ s.med.repairList.length), 0x6D), (listed, 0x03)]
      if code ≠ 0 then fail code
      else (s.setRepairs (s.med.repairList ++ [r])).answer cci 0 0 (entryBytes [])
    | 2 =>
      let code := firstCode [(!s.rowInside r, 0x02), (!listed, 0x03)]
      if code ≠ 0 then fail code
      else (s.setRepairs (s.med.repairList.filter fun (x : RepairRow) => !x.same r)).answer cci 0 0 (entryBytes [])
    | _ =>
      let log := s.med.repairLog.drop (s.med.repairLog.length - entriesPerResponse)
      s.answer cci 0 0 (entryBytes (log.map fun (x : RepairRow × Nat × Nat) => x.1.bytes ++ [x.2.1] ++ outBytes x.2.2 7))).done

/-- A row is named for a repair (R274, R538). -/
def State.nameRow (s : State) (input : List Byte) : State :=
  let s := ((s.wr MED_PPRCTL.CHANNEL (field input 0 1)).wr MED_PPRCTL.SUBCH (field input 1 1)).wr MED_PPRCTL.RANK (field input 2 1)
  ((s.wr MED_PPRCTL.BG (field input 3 1)).wr MED_PPRCTL.BANK (field input 4 1)).wr MED_PPRCTL.ROW (field input 8 4)

/-- PPR_RUN (R274, R538): answered with the result of the repair. -/
def execPprRun (cci : Nat) (input : List Byte) (s : State) : Host.Outcome State Fault Refusal :=
  (s.kamcon cci (.pprRun cci input) input 12 2
      [(0, 0, 4), (1, 0, 1), (2, 0, 3), (3, 0, 3), (4, 0, 2), (8, 0, 18)] fun s =>
    if s.on MED_PPRSTAT.BUSY then s.reply cci rcBusy []
    else
      let s := (s.nameRow input).startRepair
      if s.on MED_PPRSTAT.BUSY then s.await cci .repair
      else s.answer cci 0 0 [s.rd MED_PPRSTAT.RESULT, s.rd MED_PPRSTAT.POISONED]).done

/-! ### Salvage (R101, R102, R538) -/

/-- The 128 bytes of a record (R101); `shown` says that DATA and MASK are given. -/
def Salvage.bytes (x : Salvage) (shown : Bool) : List Nat :=
  (if shown then x.data.bytes.map (fun b => b.toNat) ++ outBytes x.mask.toNat 8 else List.replicate 72 0) ++
    outBytes x.ts 8 ++ outBytes x.dpaLine 8 ++
    outBytes (x.claim + x.slice * 2 ^ 16 + x.cause * 2 ^ 32 + flag x.sealed * 2 ^ 36 + x.keyid * 2 ^ 40) 8 ++ List.replicate 32 0

/-- SALVAGE_READ (R102, R538). -/
def execSalvageRead (cci : Nat) (input : List Byte) (s : State) : Host.Outcome State Fault Refusal :=
  (s.kamcon cci (.salvageRead cci input) input 1 128 [(0, 0, 6)] fun s =>
    match s.cir.salvage.find (field input 0 1) with
    | none => s.answer cci 0x03 0 (List.replicate 128 0)
    | some x => s.answer cci 0 0 (x.bytes (!x.sealed))).done

/-- SALVAGE_FREE (R102, R538): the held records of the mask are freed and counted. -/
def execSalvageFree (cci : Nat) (input : List Byte) (s : State) : Host.Outcome State Fault Refusal :=
  (s.kamcon cci (.salvageFree cci input) input 8 8 [(0, 0, 64)] fun s =>
    let mask := field input 0 8
    let held := (s.cir.salvage.map Prod.fst).filter fun k => bit mask k
    (held.foldl State.freeSalvage s).answer cci 0 0 (outBytes held.length 8)).done

/-! ### The pair (R440, R456–R458, R540) -/

/-- PAR_CFG comes from a payload, each field clamped (R439, R540). -/
def State.stagePair (s : State) (input : List Byte) : State :=
  let put := fun (s : State) (f : Fld) (v : Nat) => s.storeFields [f] 0 (min v (2 ^ f.width - 1) * 2 ^ f.lo)
  let s := put (put s PAR_CFG.MODE (field input 1 1)) PAR_CFG.GRANLOG (field input 2 1)
  put (put s PAR_CFG.PTIMEOUT (field input 4 2)) PAR_CFG.ASYNCWIN (field input 6 2)

/-- PAIR_ENABLE (R439, R440, R540): PAR_CFG is written first, clamped as its register. -/
def execPairEnable (cci : Nat) (input : List Byte) (s : State) : Host.Outcome State Fault Refusal :=
  (s.kamcon cci (.pairEnable cci input) input 8 0 [(0, 0, 1), (1, 0, 1), (2, 0, 8), (4, 0, 16), (6, 0, 16)] fun s =>
    let s := s.stagePair input
    if field input 0 1 = 1 then
      let s := s.askPair
      if s.pair.enabling then s.await cci .pair
      else s.answer cci (s.rd PAR_CTL.CHECK) (if s.rd PAR_CTL.CHECK = 0xC9 then s.rd PAR_STAT.PEERCHECK else 0) []
    else if s.pairState = pairJoining ∨ s.pairState = pairTakenOver then s.leavePair.answerCode cci 0
    else s.answerCode cci 0xCA).done

/-- EPOCH and FORCE for a takeover come from a payload (R457, R540). -/
def State.stageTakeover (s : State) (input : List Byte) : State :=
  (s.wr PAR_TAKEOVER.EPOCH (field input 0 4)).put PAR_CTL.FORCE (field input 4 1 == 1)

/-- PAIR_TAKEOVER (R457, R540). -/
def execPairTakeover (cci : Nat) (input : List Byte) (s : State) : Host.Outcome State Fault Refusal :=
  (s.kamcon cci (.pairTakeover cci input) input 5 0 [(0, 0, 32), (4, 0, 1)] fun s =>
    let s := (s.stageTakeover input).takeOver
    s.answerCode cci (s.rd PAR_CTL.CHECK)).done

/-- PAIR_GIVEBACK (R458, R540). -/
def execPairGiveback (cci : Nat) (input : List Byte) (s : State) : Host.Outcome State Fault Refusal :=
  (s.kamcon cci (.pairGiveback cci input) input 4 0 [(0, 0, 32)] fun s =>
    let s := (s.wr PAR_TAKEOVER.EPOCH (field input 0 4)).giveBack
    s.answerCode cci (s.rd PAR_CTL.CHECK)).done

/-- PAIR_FENCE (R456, R540). -/
def execPairFence (cci : Nat) (input : List Byte) (s : State) : Host.Outcome State Fault Refusal :=
  (s.kamcon cci (.pairFence cci input) input 0 0 [] fun s =>
    if s.pairState = pairAlone ∨ s.pairState = pairFenced then s.answerCode cci 0xCD
    else s.askFence.answerCode cci 0).done

/-- PAIR_DISCARD (R456, R540, R541). -/
def execPairDiscard (cci : Nat) (input : List Byte) (s : State) : Host.Outcome State Fault Refusal :=
  (s.kamcon cci (.pairDiscard cci input) input 0 0 [] fun s =>
    s.inBackground cci fun s =>
      if s.pairState ≠ pairFenced then s.answerCode cci 0x03
      else ((s.startBackground cci { op := .pairDiscard, total := s.committed.length + s.releasing.length }).answerStarted
        cci).askDiscard).done

/-- The bits of CON_CTL, as a payload gives them (R406, R420, R424, R430). -/
def State.askLink (s : State) (v readd : Nat) : State :=
  let s := if bit v 0 then s.askLinkOn else s.askLinkOff
  let s := if bit v 1 then s.askRetrain else s
  let s := if bit v 2 then s.askLinkDown else s
  s.askReadd readd

/-- LINK_CTL (R406, R420, R424, R430, R540): the bits of CON_CTL; LINKEN is written as given. -/
def execLinkCtl (cci : Nat) (input : List Byte) (s : State) : Host.Outcome State Fault Refusal :=
  (s.kamcon cci (.linkCtl cci input) input 2 0 [(0, 0, 3), (1, 0, 3)] fun s =>
    (s.askLink (field input 0 1) (field input 1 1)).answerCode cci 0).done

/-! ### Power (R551, R553, R558, R540) -/

/-- POWER_REQUEST (R551, R553, R540). -/
def execPowerRequest (cci : Nat) (input : List Byte) (s : State) : Host.Outcome State Fault Refusal :=
  (s.kamcon cci (.powerRequest cci input) input 1 0 [(0, 0, 8)] fun s =>
    match field input 0 1 with
    | 0 => s.askClear.answerCode cci 0
    | 1 =>
      let s := s.askNight
      s.answerCode cci (s.rd PWR_CTL.CHECK)
    | _ => s.answerCode cci 0xD6).done

/-- The wake enables are the bits of a value (R553). -/
def State.setWakes (s : State) (v : Nat) : State :=
  ((s.put PWR_CFG.WAKE_LINK (bit v 0)).put PWR_CFG.WAKE_CON (bit v 1)).put PWR_CFG.WAKE_VSENSE (bit v 2)

/-- WAKE_CFG (R553, R540). -/
def execWakeCfg (cci : Nat) (input : List Byte) (s : State) : Host.Outcome State Fault Refusal :=
  (s.kamcon cci (.wakeCfg cci input) input 1 0 [(0, 0, 3)] fun s =>
    let v := field input 0 1
    if v = 0 then s.answerCode cci 0xD6
    else (s.setWakes v).answerCode cci 0).done

/-- DOMAIN_REQUEST (R558, R540): the body gives the refuser with 0xD9. -/
def execDomainRequest (cci : Nat) (input : List Byte) (s : State) : Host.Outcome State Fault Refusal :=
  (s.kamcon cci (.domainRequest cci input) input 2 1 [(0, 0, 8), (1, 0, 8)] fun s =>
    let (code, r, s) := s.askDomain .kamcon (field input 0 1) (field input 1 1)
    let s := s.wr PWR_DOMCTL.CHECK code
    let s := if r = 0 then s else s.wr PWR_DOMCTL.REFUSER r
    if code = 0xD9 then s.reply cci rcInvalidInput (kamHead code 0 ++ [r]) else s.answer cci code 0 [0]).done

/-! ### Firmware (R489, R490, R540) -/

/-- The 8 bytes of an image (R540). -/
def FwImage.bytes (x : FwImage) : List Nat := [flag x.valid, x.svn] ++ outBytes x.release 2 ++ outBytes x.length 4

/-- FW_SLOTS (R540). -/
def execFwSlots (cci : Nat) (input : List Byte) (s : State) : Host.Outcome State Fault Refusal :=
  (s.kamcon cci (.fwSlots cci input) input 0 48 [] fun s => s.answer cci 0 0 (s.chip.flash.flatMap FwImage.bytes)).done

/-- SVN_COMMIT (R490, R540). -/
def execSvnCommit (cci : Nat) (input : List Byte) (s : State) : Host.Outcome State Fault Refusal :=
  (s.kamcon cci (.svnCommit cci input) input 1 1 [(0, 0, 2)] fun s =>
    let type := field input 0 1
    if type = 0 then s.answer cci 0x02 0 [0]
    else
      let (code, s) := s.commitSvn type
      if code = callOk then s.answer cci 0 0 [s.fusedSvn type] else s.answer cci 0x06 0 [0]).done

end Sys2Proof.Machine
end

