-- ==== Sys2Proof/Machine/TelCmds.lean ====
section
/-! DEFINITION. Counters, sampling and sensors (21_counters_and_telemetry.md): sweeps (R599–R601), counter loads and clears (R597), the
sampling buffer's reader (R603), junction sensors and throttling (R605, R606), rails (R607), receiver lanes (R608), occupancy events
(R592). -/

namespace Sys2Proof.Machine

/-! ### The central reader (R599–R601) -/

/-- The counters with their overflow bits. -/
def State.counters (s : State) : List (Nat × Bool) :=
  (List.range 320).map fun c => (s.rdAt TEL_CNTVAL.VALUE c, bit (s.rdAt TEL_OVF.BITS (c / 64)) (c % 64))

/-- A sweep of the counters begins at the present timestamp. -/
def State.openSweep (s : State) : State :=
  let s := (s.put TEL_SWEEPSTAT.BUSY true).put TEL_CTL.START true
  { s with tel := { s.tel with sweep := some (s.stamp, s.counters) } }

/-- A sweep starts, or is skipped while one runs. Every bank is captured at the start (DESIGN CHOICE within R599's 1 µs). -/
def State.startSweepRead (s : State) : State :=
  match s.tel.sweep with
  | some _ => s.inc TEL_SWEEPSTAT.SKIPPED
  | none => s.openSweep

/-- TEL_CTL_START (R599): a write of 1 to TEL_CTL.START. -/
def execTelCtlStart (s : State) : Host.Outcome State Fault Refusal := s.startSweepRead.done

/-- SWEEP_PERIOD (R599): PERIOD µs have passed. -/
def execSweepPeriod (s : State) : Host.Outcome State Fault Refusal :=
  if s.rd TEL_CTL.PERIOD = 0 then s.done else s.startSweepRead.done

/-- An entry of a tenant's copy (R601). -/
def tenantEntry (c : Nat) (x : Nat × Bool) : List Byte := toBytes (x.1 + c * 2 ^ 48 + flag x.2 * 2 ^ 57) 8

/-- The copy for a slice (R601): the entries, a zero-length read, then the head. -/
def State.copyTenant (s : State) (slice ts : Nat) (values : List (Nat × Bool)) : State :=
  let link := s.rdAt TEL_USERADDR.LINK slice
  let addr := s.rdAt TEL_USERADDR.ADDR slice * 4096
  let mine := (List.range 320).filter fun c => s.onAt TEL_CNTCFG.SLICE_EN c && s.rdAt TEL_CNTCFG.SLICE c == slice
  let body := toBytes 0 16 ++ mine.flatMap fun c => tenantEntry c (values.getD c (0, false))
  let head := toBytes ts 8 ++ toBytes (s.rd TEL_SWEEPSTAT.SEQ) 4 ++ toBytes mine.length 2 ++ toBytes (s.rdAt SLC_STAT.GEN slice) 2
  let s := { s with tel := { s.tel with copied := s.tel.copied.put slice (s.time + 1) } }
  let s := s.event Ev.tenantCopies 0
  ((s.send (.dmaWrite link slice (addr + 16) body)).send (.zeroRead link)).send (.dmaWrite link slice addr head)

/-- A slice is due a copy: EN, TEL_USER, not RESETTING, none for 100 µs (R601). -/
def State.tenantDue (s : State) (slice : Nat) : Bool :=
  s.onAt SLC_CFG.TEL_USER slice && !s.onAt SLC_STAT.RESETTING slice &&
    match s.tel.copied.find slice with
    | some t => decide (t + 40000 ≤ s.time + 1)
    | none => true

/-- A counter sweep ends: the snapshot is shown and the tenants are served (R595–R597). -/
def State.endSweepRead (s : State) (ts : Nat) (values : List (Nat × Bool)) (span : Nat) (failed : List Nat) : State :=
  let s := { s with tel := { s.tel with sweep := none } }
  let s := (List.range 320).foldl (fun s c =>
    let x := values.getD c (0, false)
    (s.wrAt TEL_SNAP.VALUE c x.1).putAt TEL_SNAP.OVF c x.2) s
  let s := ((s.put TEL_SWEEPSTAT.BUSY false).put TEL_CTL.START false).wr TEL_SWEEPSTAT.SPAN (min span 400)
  let s := ((s.wr TEL_SWEEPSTAT.SEQ (s.rd TEL_SWEEPSTAT.SEQ + 1)).wr TEL_SWEEPTS.TS ts).event Ev.sweeps 0
  let due := (s.copiesWith TEL_USERADDR.EN 1).filter s.tenantDue
  (due.foldl (fun s n =>
    if failed.contains n then (s.putAt TEL_USERADDR.EN n false).inc TEL_ERRCNT.USERDMA else s.copyTenant n ts values) s)

/-- SWEEP_END (R600, R601): the buffers swap; `span` is the distance of the last capture in timestamp ticks; `failed` names the
slices whose copy ends in an error. -/
def execSweepEnd (span : Nat) (failed : List Nat) (s : State) : Host.Outcome State Fault Refusal :=
  match s.tel.sweep with
  | none => s.done
  | some (ts, values) =>
    (s.endSweepRead ts values span failed).done

/-! ### Loads and clears (R597) -/

/-- Every counter is cleared, with its overflow bit. -/
def State.clearCounters (s : State) : State :=
  let s := (List.range 320).foldl (fun s c => s.wrAt TEL_CNTVAL.VALUE c 0) s
  (List.range 5).foldl (fun s k => s.wrAt TEL_OVF.BITS k 0) s

/-- A counter is loaded; its overflow bit is cleared. -/
def State.loadCounter (s : State) (c v : Nat) : State :=
  (s.wrAt TEL_CNTVAL.VALUE c v).wrAt TEL_OVF.BITS (c / 64) (setBit (s.rdAt TEL_OVF.BITS (c / 64)) (c % 64) false)

/-- The sample records from the old RDIDX up to a new one are freed; the same index frees none (R603; DEDUCED). -/
def State.freeSamples (s : State) (v : Nat) : State :=
  let freed := (bits v 0 13 + sampleCount - s.rd TEL_SMPRD.RDIDX) % sampleCount
  let held := s.smp.held - freed
  let s := { s with smp := { s.smp with held := held } }.wr TEL_SMPRD.RDIDX v
  if held < sampleCount then s.put TEL_SMPSTAT.FULL false else s

/-- TEL_CTL_CLRALL (R597). -/
def execTelCtlClrall (s : State) : Host.Outcome State Fault Refusal := s.clearCounters.done

/-- TEL_CNTVAL_WRITE (R597, R610): `v` loads the selected counter. -/
def execTelCntvalWrite (p : Path) (v : Nat) (s : State) : Host.Outcome State Fault Refusal :=
  let c := s.rdAt TEL_CNTSEL.COUNTER (pathCopy p)
  if 319 < c then s.done else (s.loadCounter c v).done

/-- TEL_SMPRD_WRITE (R603). -/
def execTelSmprdWrite (v : Nat) (s : State) : Host.Outcome State Fault Refusal := (s.freeSamples v).done

/-! ### Junction sensors (R605, R606) -/

/-- A temperature as a 9-bit two's complement number. -/
def temp9 (t : Int) : Nat := (t % 512).toNat

/-- A 9-bit two's complement number as a temperature. -/
def ofTemp9 (n : Nat) : Int := if n < 256 then n else (n : Int) - 512

/-- The throttle point: item 0 of R512. -/
def State.throttlePoint (s : State) : Int := s.chip.cal.getD 0 100

/-- A sensor is FAILED; a rising one sets THERM_SENSOR. -/
def State.failSensor (s : State) (n : Nat) : State :=
  let old := s.onAt TEL_THERM.FAILED n
  let s := (s.putAt TEL_THERM.VALID n false).putAt TEL_THERM.FAILED n true
  if old then s else s.raise srcThermSensor

/-- One sensor's report: in range it is valid, out of range it is discarded. -/
def State.sensorReport (s : State) (n : Nat) (t : Int) : State :=
  let s := s.wrAt TEL_THERM.TEMP n (temp9 t)
  if -40 ≤ t ∧ t ≤ 150 then (s.putAt TEL_THERM.VALID n true).putAt TEL_THERM.FAILED n false
  else (s.event Ev.sensorDiscards 0).failSensor n

/-- Throttling begins; `hot` where a temperature is the reason. -/
def State.throttle (s : State) (hot : Bool) : State :=
  if s.on TEL_THERMSTAT.THROTTLE then s
  else
    let s := { s with tel := { s.tel with since := s.time } }
    let s := (s.put TEL_THERMSTAT.THROTTLE true).inc TEL_THERMSTAT.THROTTLES
    if hot then s.raise srcThermThrottle else s

/-- HOTTEST and NVALID follow the sensors, and throttling begins where it must. Without a valid sensor HOTTEST stays
(DESIGN CHOICE). -/
def State.judgeHeat (s : State) : State :=
  let valid := (List.range 20).filter fun n => s.onAt TEL_THERM.VALID n
  let temps := valid.map fun n => ofTemp9 (s.rdAt TEL_THERM.TEMP n)
  let s := s.wr TEL_THERMSTAT.NVALID valid.length
  let s := match temps with
    | [] => s
    | t :: ts => s.wr TEL_THERMSTAT.HOTTEST (temp9 (ts.foldl max t))
  if !temps.isEmpty && decide (s.throttlePoint ≤ ofTemp9 (s.rd TEL_THERMSTAT.HOTTEST)) then s.throttle true
  else if valid.length < 4 then s.throttle false else s

/-- The reports of the sensors that give one. -/
def State.sensorReports (s : State) (readings : List (Option Int)) : State :=
  (List.range 20).foldl (fun s n =>
    match readings.getD n none with
    | some t => s.sensorReport n t
    | none => s) s

/-- JUNCTION_SENSOR_READ (R605): the 100 µs read; a sensor without a report gives none. -/
def execJunctionSensorRead (readings : List (Option Int)) (s : State) : Host.Outcome State Fault Refusal :=
  (s.sensorReports readings).judgeHeat.done

/-- THERM_SENSOR (R605): a sensor has not reported for 1 ms. -/
def execThermSensor (sensor : Nat) (s : State) : Host.Outcome State Fault Refusal :=
  if sensor < 20 then (s.failSensor sensor).judgeHeat.done else s.done

/-- THROTTLE_RELEASE (R606): HOTTEST has been at or below the throttle point − 5 °C for 1 ms. -/
def execThrottleRelease (s : State) : Host.Outcome State Fault Refusal :=
  if s.on TEL_THERMSTAT.THROTTLE && decide (4 ≤ s.rd TEL_THERMSTAT.NVALID) &&
      decide (ofTemp9 (s.rd TEL_THERMSTAT.HOTTEST) ≤ s.throttlePoint - 5) then
    let s := s.occur Ev.throttleTime 0 ((s.time - s.tel.since) / 400) none
    (s.put TEL_THERMSTAT.THROTTLE false).done
  else s.done

/-! ### Rails (R607) -/

/-- Rails with current sensing. -/
def railSensed (n : Nat) : Bool := [0, 1, 3, 4].contains n

/-- Mean of a list, 0 for none. -/
def mean (xs : List Nat) : Nat := xs.sum / xs.length

/-- One rail's sample: its voltage in mV and its current in 10 mA units. Its energy in 10 µs is their product times 0.1 nJ. -/
def State.sampleRail (s : State) (n mv current : Nat) : State :=
  let last := ((mv, current) :: s.tel.rails.get [] n).take 100
  let joules := s.tel.energy.get 0 n + (if railSensed n then mv * current else 0)
  let s := { s with tel := { s.tel with rails := s.tel.rails.put n last, energy := s.tel.energy.set 0 n (joules % 10 ^ 7) } }
  let s := s.occur Ev.railEnergy n (joules / 10 ^ 7) none
  let s := (s.wrAt TEL_RAIL.MV n (min (mean (last.map Prod.fst)) 0xFFFF)).putAt TEL_RAIL.ISENSE n (railSensed n)
  if railSensed n then
    (s.wrAt TEL_RAIL.CURRENT n (min (mean (last.map Prod.snd)) 0xFFFF)).wrAt TEL_RAIL.POWER n
      (min (mean (last.map fun x => x.1 * x.2) / 1000) 0xFFFF)
  else s

/-- The samples of rails 0 to 6. -/
def State.sampleRails (s : State) (samples : List (Nat × Nat)) : State :=
  (List.range 7).foldl (fun s n =>
    match samples[n]? with
    | some (mv, current) => s.sampleRail n mv current
    | none => s) s

/-- RAIL_SAMPLE (R607): the 10 µs sample of rails 0 to 6. TEL_RAILn is the mean of the last 100 samples (DESIGN CHOICE: a sliding
window). -/
def execRailSample (samples : List (Nat × Nat)) (s : State) : Host.Outcome State Fault Refusal := (s.sampleRails samples).done

/-! ### Receiver lanes (R608, R617) -/

/-- The copy of TEL_MARGIN of a lane, as TEL_MARGINSEL names it. -/
def marginCopy (contrail : Bool) (unit lane : Nat) : Nat := flag contrail + 2 * unit + 16 * lane

/-- Lanes that the device has: lanes of host links, and of the three bundles. -/
def State.laneExists (s : State) (contrail : Bool) (unit lane : Nat) : Bool :=
  if contrail then decide (unit < 3) && decide (lane < 9)
  else s.linkExists unit && decide (lane < (if s.rdAt LNK_PORTCFG.BIF (unit / 2) = 1 then 8 else 16))

/-- The lane reports: its host link is up, or its bundle is kept. -/
def State.laneReports (s : State) (contrail : Bool) (unit : Nat) : Bool :=
  if contrail then s.linkUp && bit s.con.rxMap unit else s.isUp unit

/-- EYE_ESTIMATE (R608): the 1 ms estimate of a lane: height in mV, width in 1/128 UI; a lane under a standard margining command
keeps its estimate and shows HELD. -/
def execEyeEstimate (contrail : Bool) (unit lane height width : Nat) (margining : Bool) (s : State) :
    Host.Outcome State Fault Refusal :=
  let k := marginCopy contrail unit lane
  if !s.laneExists contrail unit lane then s.done
  else if !s.laneReports contrail unit then (s.putAt TEL_MARGIN.VALID k false).done
  else if margining && !contrail then (s.putAt TEL_MARGIN.HELD k true).done
  else
    (((s.wrAt TEL_MARGIN.HEIGHT k (min height 255)).wrAt TEL_MARGIN.WIDTH k (min width 255)).putAt TEL_MARGIN.VALID k true |>.putAt
      TEL_MARGIN.HELD k false).done

/-! ### Occupancy events (R592) -/

/-- OCCUPANCY_SAMPLE (R592): every 1 µs, counters of journal occupancy add the journal's level. -/
def execOccupancySample (s : State) : Host.Outcome State Fault Refusal :=
  (s.occur Ev.journalLevel 0 s.pair.journal.length none).done

end Sys2Proof.Machine
end

