-- ==== Sys2Proof/Machine/RegWrite.lean ====
section
/-! DEFINITION. Writes to the register file (R6, R9, R619, R622–R625, R630) and the JTAG port (R647). A write stores the fields that
its path may write, and acts on the triggers among them. -/

namespace Sys2Proof.Machine

/-! ### What a path may write (R315, R492, R619) -/

/-- The path may write the field: SEC registers are RO but in the steward view, and of ENG the other views write ENG_TLBINV,
ENG_TLBARG and ENG_WALKLOG.VALID. -/
def Fld.writable (f : Fld) (p : Path) : Bool :=
  p == .steward ||
    (windowOf f.addr != secWindow &&
      (windowOf f.addr != engWindow || f.addr == ENG_TLBINV.CORES.addr || f.addr == ENG_TLBARG.SCOPE.addr ||
        f == ENG_WALKLOG.VALID))

/-- The register file can be reached over a function: that of an SLD link, or the FM-owned LD of a link (R619). -/
def State.bar2Shown (s : State) (fn : Nat) : Bool := decide (fn < 256) && s.cciExists fn && s.cciManages fn

/-- The word that a write leaves in the fields of a register, before clamps: write-one fields hold what is written to them,
the others keep the bits that the write does not reach (R624). -/
def State.newWord (s : State) (r : Register) (i lo n v : Nat) : Nat :=
  (r.fields.map fun f => f.overlay (s.shown f i) lo n v * 2 ^ f.lo).sum

/-! ### Unsupported accesses (R624, R630) -/

/-- PATH of SYS_ACCERR. -/
def pathCode : Path → Nat
  | .bar2 => 0
  | .engine => 1
  | .steward => 2

/-- An unsupported write is counted, and the first one is recorded: KIND 1 for its width, 0 for its alignment. -/
def State.badWrite (s : State) (p : Path) (off kind : Nat) : State :=
  let s := s.inc SYS_ACCERR.COUNT
  if s.on SYS_ACCERR.VALID then s
  else
    ((((s.wr SYS_ACCERR.OFFSET off).wr SYS_ACCERR.PATH (pathCode p)).wr SYS_ACCERR.KIND kind).put SYS_ACCERR.WRITE true).put
      SYS_ACCERR.VALID true

/-! ### Registers whose writes do more than store -/

/-- The log marks the devices that meet new limits (R259). -/
def State.markLogged (s : State) : State :=
  ((List.range 32).filter fun k => s.onAt MED_CELOG2.VALID k).foldl (fun (s : State) k =>
    let a : MediaAddr := { col := 0, sub := s.rdAt MED_CELOG2.SUBCH k, bg := s.rdAt MED_CELOG2.BG k
                           bank := s.rdAt MED_CELOG2.BANK k, rank := s.rdAt MED_CELOG2.RANK k, row := s.rdAt MED_CELOG2.ROW k }
    s.markDevice (s.rdAt MED_CELOG2.CHANNEL k) a (s.rdAt MED_CELOG2.DEVICE k)) s

/-- Marks as MED_ERASEn stores them: 0xA–0xE gives 0xF (R284). -/
def storedMarks (v : Nat) : Nat :=
  ((List.range 16).map fun k => (if 10 ≤ bits v (4 * k) 4 then 15 else bits v (4 * k) 4) * 16 ^ k).sum

/-- MED_ERASEn of a channel is written (R284). -/
def State.setMarks (s : State) (c v : Nat) : State :=
  match s.geometry c with
  | some g => if g.dimm.x8 then s else s.wrAt MED_ERASE.MARKS c (storedMarks v)
  | none => s.wrAt MED_ERASE.MARKS c (storedMarks v)

/-- PWR_CFG keeps a wake source (R553). -/
def State.keepWake (s : State) : State :=
  if s.on PWR_CFG.WAKE_LINK || s.on PWR_CFG.WAKE_CON || s.on PWR_CFG.WAKE_VSENSE then s else s.put PWR_CFG.WAKE_LINK true

/-- An event outside the ranges of the counter's bank is stored as 0 (R594). -/
def State.keepEvent (s : State) (c : Nat) : State :=
  if bankCounts (c / 8) (s.rdAt TEL_CNTCFG.EVENT c) then s else s.wrAt TEL_CNTCFG.EVENT c 0

/-- Act where a trigger bit is written 1. -/
def State.when (s : State) (b : Bool) (act : State → State) : State := if b then act s else s

/-- The registers of the reset, power and system blocks. -/
def systemWrites (p : Path) (w : Nat) (store : State → State) : List (Nat × (State → State)) := [
  (SYS_CTL.DEV_ENABLE.addr, fun s =>
    if SYS_CTL.DEV_ENABLE.set w then (store s).askDevEnable else (store s).askDevDisable),
  (RST_CTL.COLD.addr, fun s =>
    let s := store s
    if RST_CTL.COLD.set w then s.coldReset causeSoftware 0 0
    else (s.when (RST_CTL.WARM.set w) State.askWarm).when (RST_CTL.GO.set w) fun s =>
      s.askBlockReset (askerOf p) (s.rd RST_CTL.BLOCK) (s.rd RST_CTL.INDEX)),
  (PWR_CTL.NIGHT.addr, fun s =>
    ((store s).when (PWR_CTL.NIGHT.set w) State.askNight).when (PWR_CTL.CLEAR.set w) State.askClear),
  (PWR_CFG.WAKE_LINK.addr, fun s => (store s).keepWake),
  (PWR_DOMCTL.GO.addr, fun s => (store s).when (PWR_DOMCTL.GO.set w) fun s => s.askNamedDomain p)]

/-- The registers of claims, Cirrus, placement and snapshots. -/
def memoryWrites (i w : Nat) (store : State → State) : List (Nat × (State → State)) := [
  (MAP_CLAIMATTR.COMMIT.addr, fun s =>
    if MAP_CLAIMATTR.COMMIT.set w then (store s).askCommit i false else (store s).askRelease i),
  (MAP_CLAIMGRANT0.GRANTS.addr, fun s => s.setGrants i w (s.rdAt MAP_CLAIMGRANT1.GRANTS i)),
  (MAP_CLAIMGRANT1.GRANTS.addr, fun s => s.setGrants i (s.rdAt MAP_CLAIMGRANT0.GRANTS i) w),
  (CIR_FLUSH.START.addr, fun s =>
    if s.on CIR_FLUSH.START then s else (store s).when (CIR_FLUSH.START.set w) fun s => s.put CIR_FLUSH.START true),
  (CIR_SWEEP.START.addr, fun s => s.when (CIR_SWEEP.START.set w && !s.on CIR_SWEEP.START) fun s => s.startSweep false),
  (PLC_APPLY.APPLY.addr, fun s => s.when (PLC_APPLY.APPLY.set w) State.askApply),
  (SNP_ARM.ARM.addr, fun s => (store s).when (SNP_ARM.ARM.set w) fun s => s.askArm i)]

/-- The registers of DRAM channels, media and protection. -/
def mediaWrites (i w : Nat) (store : State → State) : List (Nat × (State → State)) := [
  (DMC_COMMIT.COMMIT.addr, fun s =>
    if DMC_COMMIT.COMMIT.set w then (store s).askChannels else (store s).uncommitChannels),
  (DMC_SCHED.WQ_LOW.addr, fun s =>
    if DMC_SCHED.WQ_LOW.of w < DMC_SCHED.WQ_HIGH.of w ∧ DMC_SCHED.WQ_HIGH.of w < DMC_SCHED.WQ_PANIC.of w then store s else s),
  (DMC_FRZCTL.RELEASE.addr, fun s => s.when (DMC_FRZCTL.RELEASE.set w) fun s => s.askChannelRelease i),
  (DMC_SPARECTL.START.addr, fun s => (store s).when (DMC_SPARECTL.START.set w) fun s => s.askSpareRank i),
  (MED_CECFG.DEVROWS.addr, fun s => (store s).markLogged),
  (MED_ERASE.MARKS.addr, fun s => s.setMarks i w),
  (MED_SCRUBCTL.START.addr, fun s =>
    if s.on MED_SCRUBCTL.START then s.when (MED_SCRUBCTL.STOP.set w) fun s => s.stopScrub .registers
    else (store s).when (MED_SCRUBCTL.START.set w) State.askScrub),
  (MED_PPRCTL.START.addr, fun s =>
    if s.on MED_PPRSTAT.BUSY then s else (store s).when (MED_PPRCTL.START.set w) State.startRepair),
  (SEC_VEILCFG.ROTATE.addr, fun s => (store s).when (SEC_VEILCFG.ROTATE.set w) State.startRotation),
  (SEC_REGIONCTL.ENABLE.addr, fun s =>
    (store s).when (SEC_REGIONCTL.ENABLE.set w) fun s => (s.askSeal (s.rd SEC_REGIONCTL.CLAIM)).2)]

/-- The registers of the halo directory, queues, slices and the regulator. -/
def hostWrites (i w : Nat) (bme msix : Bool) (store : State → State) : List (Nat × (State → State)) := [
  (HAL_HOSTCTL.FENCE.addr, fun s =>
    let fence := HAL_HOSTCTL.FENCE.of w
    (s.fenceLinks fence).unfenceLinks (Nat.land (HAL_HOSTCTL.UNFENCE.of w) (255 - fence))),
  (HAL_PEAK.CLEAR.addr, fun s => s.when (HAL_PEAK.CLEAR.set w) State.clearPeaks),
  (QUE_CTL.ENABLE.addr, fun s =>
    let s := if QUE_CTL.ENABLE.set w then s.askQueue i bme msix else s.disableQueue i
    s.when (QUE_CTL.RESIZE.set w) fun s => s.askResize i bme msix),
  (SLC_CTL.ENABLE.addr, fun s =>
    let s := if SLC_CTL.ENABLE.set w then s.askSlice i else s.askRemove i
    s.when (SLC_CTL.RESET.set w) fun s => s.askSliceReset i),
  (SLC_DBOWN.ASSIGN.addr, fun s =>
    let s := store s
    if SLC_DBOWN.ASSIGN.set w then s.assignPage i else s.when (SLC_DBOWN.FREE.set w) fun s => s.freePage i),
  (QOS_PROFILE.ENABLE.addr, fun s => (store s).when (QOS_PROFILE.ENABLE.set w) State.askProfile)]

/-- The registers of Contrail and the pair. -/
def pairWrites (w : Nat) (store : State → State) : List (Nat × (State → State)) := [
  (CON_CTL.LINKEN.addr, fun s =>
    let s := if CON_CTL.LINKEN.set w then s.askLinkOn else s.askLinkOff
    ((s.when (CON_CTL.RETRAIN.set w) State.askRetrain).when (CON_CTL.DOWN.set w) State.askLinkDown).askReadd
      (CON_CTL.READD.of w)),
  (PAR_CTL.ENABLE.addr, fun s =>
    let on := s.on PAR_CTL.ENABLE
    let s := store s
    let s := s.when (PAR_CTL.ENABLE.set w && !on) State.askPair
    let s := s.when (!PAR_CTL.ENABLE.set w && on) State.leavePair
    let s := (s.when (PAR_CTL.TAKEOVER.set w) State.takeOver).when (PAR_CTL.GIVEBACK.set w) State.giveBack
    (s.when (PAR_CTL.FENCE.set w) State.askFence).when (PAR_CTL.DISCARD.set w) State.askDiscard)]

/-- The registers of the engines, faults and telemetry. -/
def stewardWrites (i w : Nat) (store : State → State) : List (Nat × (State → State)) := [
  (ENG_HOLD.DOMAINS.addr, fun s => s.setHold w),
  (ENG_WDOG.PET.addr, fun s => (store s).when (ENG_WDOG.PET.set w) State.pet),
  (ENG_TLBINV.CORES.addr, fun s => s.startInvalidation (ENG_TLBINV.CORES.of w)),
  (ENG_TLBARG.SCOPE.addr, fun s => if s.rd ENG_TLBINV.CORES = 0 then store s else s),
  (FLT_STICKY.SRC.addr, fun s => s.clearSticky i w),
  (FLT_SRCCFG.INT.addr, fun s => s.setReactions i w),
  (FLT_INTCFG.LINK.addr, fun s => s.setInterrupt w),
  (TEL_CTL.START.addr, fun s =>
    ((store s).when (TEL_CTL.START.set w) State.startSweepRead).when (TEL_CTL.CLRALL.set w) State.clearCounters),
  (TEL_CNTCFG.EVENT.addr, fun s => (store s).keepEvent i),
  (TEL_CNTVAL.VALUE.addr, fun s => s.loadCounter i w),
  (TEL_SMPRD.RDIDX.addr, fun s => s.freeSamples w)]

/-! ### A write -/

/-- A write of bits `[lo, lo + n)` of copy `i` of a register: fields are stored before a trigger among them acts (R625). -/
def State.writeRegister (s : State) (p : Path) (r : Register) (i lo n v : Nat) (bme msix : Bool) : State :=
  let r := { r with fields := r.fields.filter fun f => f.writable p }
  if r.fields.isEmpty then s
  else
    let w := s.newWord r i lo n v
    let store := fun (s : State) => s.storeBits r i lo n v
    let all := systemWrites p w store ++ memoryWrites i w store ++ mediaWrites i w store ++ hostWrites i w bme msix store ++
      pairWrites w store ++ stewardWrites i w store
    match all.find? fun e => e.1 == r.addr with
    | some e => e.2 s
    | none => store s

/-- A write of `bytes` bytes at an offset of the register file. -/
def State.writeOffset (s : State) (p : Path) (off bytes v : Nat) (bme msix : Bool) : State :=
  if bytes ≠ 4 ∧ bytes ≠ 8 then s.badWrite p off 1
  else if off % bytes ≠ 0 then s.badWrite p off 0
  else match s.registerAt p off with
    | none => s
    | some (r, i) =>
      let lo := 8 * (off - r.base i)
      s.writeRegister p r i lo (min (8 * bytes) (r.bits - lo)) v bme msix

/-- REGISTER_WRITE (R6, R622–R625): `fn` is the number of the function's CCI for the BAR2 view; `bme` and `msix` say whether the
function of a queue's link has bus mastering and MSI-X enabled. -/
def execRegisterWrite (p : Path) (fn offset bytes v : Nat) (bme msix : Bool) (s : State) : Host.Outcome State Fault Refusal :=
  if p = .bar2 ∧ s.bar2Shown fn = false then s.done
  else (s.writeOffset p offset bytes v bme msix).done

/-! ### JTAG (R647) -/

/-- The IDCODE. -/
def jtagIdcode : Nat := 0x171603F1

/-- The instruction takes control of balls. -/
def takesBalls : JtagOp → Bool
  | .extest | .extestPulse | .extestTrain | .clamp | .highz => true
  | .bypass | .idcode | .samplePreload => false

/-- Control of balls is safe: every PERSTp_N is asserted, the device and Contrail are disabled, and no DIMM PMIC has been enabled
since the cold reset: none is enabled before a channel has read its SPDs (R237). -/
def State.ballsFree (s : State) : Bool :=
  s.chip.perstOff.isEmpty && !s.on SYS_CTL.DEV_ENABLE && !s.on CON_CTL.LINKEN &&
    (List.range 16).all fun c => (s.chan c).dimms.isEmpty

/-- The instruction that acts. -/
def State.jtagActs (s : State) : JtagOp :=
  if takesBalls s.chip.jtag && !s.ballsFree then .bypass else s.chip.jtag

/-- JTAG_INSTRUCTION (R647): the port takes an instruction. It changes nothing else in the device. -/
def execJtagInstruction (i : JtagOp) (s : State) : Host.Outcome State Fault Refusal :=
  let s := { s with chip := { s.chip with jtag := i } }
  (s.send (.jtag s.jtagActs (if s.jtagActs = .idcode then jtagIdcode else 0))).done

end Sys2Proof.Machine
end

