-- ==== Sys2Proof/Machine/ZenithCmds.lean ====
section
/-! DEFINITION. The Zenith request set (R543–R545), which reaches Zenith inside an SPDM secured session, and DOE requests
(R509). -/

namespace Sys2Proof.Machine

/-! ### The frame of a request (R543, R544) -/

/-- Zenith can be reached: over Horizon's SPDM_MSG call, or alone over DOE. -/
def State.zenithServes (s : State) : Bool :=
  s.on ENG_STAT.ZENITH_UP && !s.chip.stewardHalt && (s.on ENG_STAT.HORIZON_UP || s.chip.zenithOnly)

/-- A response with STATUS and no body. -/
def State.zenithStatus (s : State) (code status : Nat) : State := s.send (.zenith code status 0 [])

/-- A response with STATUS OK. -/
def State.zenithOk (s : State) (code : Nat) (body : List Byte) : State := s.send (.zenith code 0 0 body)

/-- A response with CHECK_FAILED. -/
def State.zenithFails (s : State) (code check : Nat) : State := s.send (.zenith code 5 check [])

/-- The slice is bound to the key of the session. -/
def State.boundTo (s : State) (slice : Nat) (key : List Byte) : Bool := s.mbx.bindings.find slice == some key

/-- A Zenith request: outside a secured session it is answered with SPDM ERROR; INVALID, NOT_BOUND and BUSY are found in this
order (DESIGN CHOICE), then `run` serves it. -/
def State.zenith (s : State) (code : Nat) (h : ZenithHead) (valid free : Bool) (run : State → List Byte → State) : State :=
  if !s.zenithServes then s
  else match h.key with
    | none => s.send .spdmError
    | some key =>
      if !valid || h.reserved != 0 || decide (4095 < h.slice) then s.zenithStatus code 2
      else if !free && !s.boundTo h.slice key then s.zenithStatus code 3
      else if (s.mbx.running.find h.slice).isSome then s.zenithStatus code 4
      else run s key

/-- A committed claim of the slice that is SEALED. -/
def State.sealedOf (s : State) (slice c : Nat) : Bool :=
  s.onAt MAP_CLAIMATTR.COMMIT c && s.onAt MAP_CLAIMATTR.SEALED c && s.rdAt MAP_CLAIMATTR.SLICE c == slice

/-- A body is this long, and has no bit outside the fields listed. -/
def bodyOk (body : List Byte) (len : Nat) (fields : List (Nat × Nat × Nat)) : Bool :=
  body.length == len && !strayBits body fields

/-- A request of a slice is answered later; `what` tells which. -/
def State.awaitZenith (s : State) (slice what : Nat) : State :=
  { s with mbx := { s.mbx with running := s.mbx.running.put slice what } }

/-! ### Bindings (R544) -/

/-- A slice is bound to the key of a session (R544). -/
def State.bindSlice (s : State) (slice : Nat) (key : List Byte) : State :=
  { s with mbx := { s.mbx with bindings := s.mbx.bindings.put slice key } }

/-- BIND_SLICE (R544): the first session that asks binds the slice to its key. -/
def execBindSlice (h : ZenithHead) (body : List Byte) (s : State) : Host.Outcome State Fault Refusal :=
  (s.zenith 0x01 h (bodyOk body 0 []) true fun s key =>
    match s.mbx.bindings.find h.slice with
    | none => (s.bindSlice h.slice key).zenithOk 0x01 (sha384 key)
    | some k => if k = key then s.zenithOk 0x01 (sha384 key) else s.zenithStatus 0x01 3).done

/-- GET_BINDING (R545). -/
def execGetBinding (h : ZenithHead) (body : List Byte) (s : State) : Host.Outcome State Fault Refusal :=
  (s.zenith 0x02 h (bodyOk body 0 []) true fun s _ =>
    match s.mbx.bindings.find h.slice with
    | none => s.zenithOk 0x02 (List.replicate 56 0)
    | some key => s.zenithOk 0x02 (toBytes 1 8 ++ sha384 key)).done

/-! ### Seals and breaches (R307, R311) -/

/-- SEAL_ENABLE (R307, R545). A claim of another slice is refused as one in the wrong state (DESIGN CHOICE). -/
def execSealEnable (h : ZenithHead) (body : List Byte) (s : State) : Host.Outcome State Fault Refusal :=
  (s.zenith 0x03 h (bodyOk body 2 [(0, 0, 13)]) false fun s _ =>
    let c := field body 0 2
    if s.onAt MAP_CLAIMATTR.COMMIT c && s.rdAt MAP_CLAIMATTR.SLICE c != h.slice then s.zenithFails 0x03 0x80
    else match s.askSeal c with
      | (some 0, s) => s.zenithOk 0x03 []
      | (some code, s) => s.zenithFails 0x03 code
      | (none, s) => s.awaitZenith h.slice c).done

/-- KeyIDs that are not FREE and belong to a claim. -/
def State.allKeysOf (s : State) (c : Nat) : List Nat :=
  s.keysOf c keyReserved ++ s.keysOf c keyActive ++ s.keysOf c keyRetiring

/-- The recovery that a slice chooses starts for the breaches that stand and that none runs for (R311). -/
def State.recoverClaim (s : State) (c choice : Nat) : State :=
  (s.allKeysOf c).foldl (fun (s : State) k =>
    let records := (List.range 64).filter fun r =>
      s.onAt SEC_BREACH.VALID r && s.rdAt SEC_BREACH.KEYID r == k && s.rdAt SEC_BREACH.PROGRESS r == 0
    let s := records.foldl (fun (s : State) r => s.startRecovery k (some r) choice) s
    if s.onAt SEC_KEYSTAT.BREACHED k && (s.sec.whole.find k).isNone then s.startRecovery k none choice else s) s

/-- SEAL_RECOVERY (R311, R545). A recovery that runs is answered when it has ended. -/
def execSealRecovery (h : ZenithHead) (body : List Byte) (s : State) : Host.Outcome State Fault Refusal :=
  let c := field body 0 2
  let choice := field body 2 1
  (s.zenith 0x04 h (bodyOk body 4 [(0, 0, 13), (2, 0, 8), (3, 0, 1)] && decide (choice ≤ 2)) false fun s _ =>
    if !s.sealedOf h.slice c then s.zenithFails 0x04 0x03
    else if choice = recoverRefetch ∧ s.pairState ≠ pairMirrored then s.zenithFails 0x04 0x83
    else if field body 3 1 = 1 then
      ((s.allKeysOf c).foldl (fun (s : State) k => s.wrAt SEC_KEYSTAT.RECOVERY k choice) s).zenithOk 0x04 []
    else
      let s := s.recoverClaim c choice
      if s.recovers c then s.awaitZenith h.slice (8192 + c)
      else s.zenithOk 0x04 []).done

/-- The breach records of a slice's KeyIDs: their count, in 4 bytes, and their 16 bytes each (R545). -/
def State.breachBytes (s : State) (slice : Nat) : List Byte :=
  let mine := (List.range 64).filter fun r =>
    s.onAt SEC_BREACH.VALID r &&
      s.rdAt MAP_CLAIMATTR.SLICE (s.rdAt SEC_KEYSTAT.CLAIM (s.rdAt SEC_BREACH.KEYID r)) == slice
  toBytes mine.length 4 ++ mine.flatMap fun r =>
    toBytes (s.readBits .steward (SEC_BREACH.TS.addr + SEC_BREACH.TS.step * r) 128) 16

/-- BREACH_LIST (R545): the count, in 4 bytes (DESIGN CHOICE), and the records of the slice's KeyIDs. -/
def execBreachList (h : ZenithHead) (body : List Byte) (s : State) : Host.Outcome State Fault Refusal :=
  (s.zenith 0x05 h (bodyOk body 0 []) false fun s _ =>
    s.zenithOk 0x05 (s.breachBytes h.slice)).done

/-! ### Salvage (R102, R312) -/

/-- SALVAGE_READ in a session (R545): the record with its plaintext. -/
def execZrSalvageRead (h : ZenithHead) (body : List Byte) (s : State) : Host.Outcome State Fault Refusal :=
  (s.zenith 0x06 h (bodyOk body 1 [(0, 0, 6)]) false fun s _ =>
    match s.cir.salvage.find (field body 0 1) with
    | none => s.zenithFails 0x06 0x03
    | some x =>
      if x.slice ≠ h.slice then s.zenithFails 0x06 0x03
      else s.zenithOk 0x06 ((x.bytes true).map fun b => BitVec.ofNat 8 b)).done

/-! ### Export keys (R208, R312) -/

/-- A created key of the slice that is still held. -/
def State.createdKey (s : State) (slice ref : Nat) : Option ExportKey :=
  match s.sec.created.find ref with
  | some k => if k.slice = slice ∧ k.dropped = false then some k else none
  | none => none

/-- Keys created and held. -/
def State.createdCount (s : State) : Nat := (s.sec.created.filter fun e => !e.2.dropped).length

/-- A key is created for a slot and waits to be fetched: its KEYREF, and the state (R208). -/
def State.createKey (s : State) (n slice : Nat) : Nat × State :=
  let (key, s) := s.draw
  let ref := s.sec.nextRef
  let k : ExportKey := { slot := n, slice := slice, key := key % 2 ^ 256 }
  let s := { s with sec := { s.sec with created := s.sec.created.put ref k, nextRef := (ref + 1) % 2 ^ 32 } }
  (ref, s.onSlot n fun x => { x with keyRef := some ref })

/-- EXPORT_KEY_CREATE (R208, R545): a new key for a FREE slot, in place of one that nobody fetched. Its KEYREF counts on
(DESIGN CHOICE), and with 256 keys held it is refused as in a wrong state (DESIGN CHOICE). -/
def execExportKeyCreate (h : ZenithHead) (body : List Byte) (s : State) : Host.Outcome State Fault Refusal :=
  (s.zenith 0x07 h (bodyOk body 4 [(0, 0, 8), (2, 0, 13)]) false fun s _ =>
    let n := field body 0 1
    let c := field body 2 2
    let s' := s.dropSlotKey n
    if s.slotState n ≠ slotFree ∨ s.sealedOf h.slice c = false ∨ 256 ≤ s'.createdCount then s.zenithFails 0x07 0x03
    else
      (s'.createKey n h.slice).2.zenithOk 0x07 (toBytes (s'.createKey n h.slice).1 4)).done

/-- The slice has fetched a created key. -/
def State.markFetched (s : State) (ref : Nat) (k : ExportKey) : State :=
  { s with sec := { s.sec with created := s.sec.created.put ref { k with fetched := true } } }

/-- A key is loaded for a stream of another device (R545). -/
def State.loadExportKey (s : State) (ref key : Nat) : State := { s with sec := { s.sec with loaded := s.sec.loaded.put ref key } }

/-- A loaded key is dropped. -/
def State.dropLoaded (s : State) (ref : Nat) : State := { s with sec := { s.sec with loaded := s.sec.loaded.erase ref } }

/-- EXPORT_KEY_GET (R545). -/
def execExportKeyGet (h : ZenithHead) (body : List Byte) (s : State) : Host.Outcome State Fault Refusal :=
  (s.zenith 0x08 h (bodyOk body 4 [(0, 0, 32)]) false fun s _ =>
    let ref := field body 0 4
    match s.createdKey h.slice ref with
    | none => s.zenithFails 0x08 0x03
    | some k =>
      (s.markFetched ref k).zenithOk 0x08 (toBytes k.key 32)).done

/-- EXPORT_KEY_LOAD (R545). -/
def execExportKeyLoad (h : ZenithHead) (body : List Byte) (s : State) : Host.Outcome State Fault Refusal :=
  (s.zenith 0x09 h (bodyOk body 40 [(0, 0, 32), (8, 0, 256)]) false fun s _ =>
    let ref := field body 0 4
    if 256 ≤ s.sec.loaded.length ∧ (s.sec.loaded.find ref).isNone then s.zenithFails 0x09 0x03
    else
      (s.loadExportKey ref (field body 8 32)).zenithOk 0x09 []).done

/-- A created key is dropped. A live slot goes on with it; a FREE one has none any more (DESIGN CHOICE). -/
def State.dropCreated (s : State) (ref : Nat) (k : ExportKey) : State :=
  if s.slotState k.slot = slotFree then
    let s := { s with sec := { s.sec with created := s.sec.created.erase ref } }
    if (s.slot k.slot).keyRef = some ref then s.onSlot k.slot fun x => { x with keyRef := none } else s
  else { s with sec := { s.sec with created := s.sec.created.put ref { k with dropped := true } } }

/-- EXPORT_KEY_DROP (R545): a created key of the slice, or a loaded one. -/
def execExportKeyDrop (h : ZenithHead) (body : List Byte) (s : State) : Host.Outcome State Fault Refusal :=
  (s.zenith 0x0A h (bodyOk body 4 [(0, 0, 32)]) false fun s _ =>
    let ref := field body 0 4
    match s.createdKey h.slice ref with
    | some k => (s.dropCreated ref k).zenithOk 0x0A []
    | none =>
      if (s.sec.loaded.find ref).isSome then
        (s.dropLoaded ref).zenithOk 0x0A []
      else s.zenithFails 0x0A 0x03).done

/-! ### The veil (R291) -/

/-- VEIL_ROTATE in a session (R545): accepted only for slice 0. -/
def execZrVeilRotate (h : ZenithHead) (body : List Byte) (s : State) : Host.Outcome State Fault Refusal :=
  (s.zenith 0x0B h (bodyOk body 0 [] && h.slice == 0) false fun s _ =>
    if s.on SEC_VEILSTAT.ROTATING then s.zenithFails 0x0B 0x03 else s.startRotation.zenithOk 0x0B []).done

/-! ### DOE (R509) -/

/-- DOE_REQUEST (R509): until Horizon runs it is answered Busy; with Zenith alone, SPDM is served. A request that is served
changes no state by itself: what it carries arrives as the commands of its protocol. -/
def execDoeRequest (link ld : Nat) (spdm : Bool) (s : State) : Host.Outcome State Fault Refusal :=
  if !s.hasLink link || !s.cciExists ld || s.on ENG_STAT.HORIZON_UP || (s.chip.zenithOnly && spdm) then s.done
  else (s.send (.doeBusy link ld)).done

end Sys2Proof.Machine
end

