-- ==== Sys2Proof/Machine/Dispatch.lean ====
section
/-! DEFINITION. One arm for each command: its meaning, or a refusal by name. -/

namespace Sys2Proof.Machine

/-- The effect of a command on everything but the queue. -/
def exec (i : Instr) (s : State) : Host.Outcome State Fault Refusal :=
  match i with
  | .identify cci input => Sys2Proof.Machine.execIdentify cci input s
  | .regRead cci input => Sys2Proof.Machine.execRegRead cci input s
  | .devEnable cci input => Sys2Proof.Machine.execDevEnable cci input s
  | .configRead cci input => Sys2Proof.Machine.execConfigRead cci input s
  | .configWrite cci input => Sys2Proof.Machine.execConfigWrite cci input s
  | .reset cci input => Sys2Proof.Machine.execReset cci input s
  | .decoderAlloc cci input => Sys2Proof.Machine.execDecoderAlloc cci input s
  | .claimCommit cci input => Sys2Proof.Machine.execClaimCommit cci input s
  | .claimRelease cci input => Sys2Proof.Machine.execClaimRelease cci input s
  | .claimGrant cci input => Sys2Proof.Machine.execClaimGrant cci input s
  | .sliceEnable cci input => Sys2Proof.Machine.execSliceEnable cci input s
  | .sliceSet cci input => Sys2Proof.Machine.execSliceSet cci input s
  | .sliceReset cci input => Sys2Proof.Machine.execSliceReset cci input s
  | .sliceRemove cci input => Sys2Proof.Machine.execSliceRemove cci input s
  | .doorbell cci input => Sys2Proof.Machine.execDoorbell cci input s
  | .plcPolicy cci input => Sys2Proof.Machine.execPlcPolicy cci input s
  | .plcClaimMode cci input => Sys2Proof.Machine.execPlcClaimMode cci input s
  | .snapArm cci input => Sys2Proof.Machine.execSnapArm cci input s
  | .qosProfile cci input => Sys2Proof.Machine.execQosProfile cci input s
  | .dmcCommit cci input => Sys2Proof.Machine.execDmcCommit cci input s
  | .channelRelease cci input => Sys2Proof.Machine.execChannelRelease cci input s
  | .spareStart cci input => Sys2Proof.Machine.execSpareStart cci input s
  | .poisonList cci input => Sys2Proof.Machine.execPoisonList cci input s
  | .poisonClear cci input => Sys2Proof.Machine.execPoisonClear cci input s
  | .kamconScrubRange cci input => Sys2Proof.Machine.execKamconScrubRange cci input s
  | .scrubResult cci input => Sys2Proof.Machine.execScrubResult cci input s
  | .scrubPolicy cci input => Sys2Proof.Machine.execScrubPolicy cci input s
  | .repairList cci input => Sys2Proof.Machine.execRepairList cci input s
  | .pprRun cci input => Sys2Proof.Machine.execPprRun cci input s
  | .salvageRead cci input => Sys2Proof.Machine.execSalvageRead cci input s
  | .salvageFree cci input => Sys2Proof.Machine.execSalvageFree cci input s
  | .pairEnable cci input => Sys2Proof.Machine.execPairEnable cci input s
  | .pairTakeover cci input => Sys2Proof.Machine.execPairTakeover cci input s
  | .pairGiveback cci input => Sys2Proof.Machine.execPairGiveback cci input s
  | .pairFence cci input => Sys2Proof.Machine.execPairFence cci input s
  | .pairDiscard cci input => Sys2Proof.Machine.execPairDiscard cci input s
  | .linkCtl cci input => Sys2Proof.Machine.execLinkCtl cci input s
  | .powerRequest cci input => Sys2Proof.Machine.execPowerRequest cci input s
  | .wakeCfg cci input => Sys2Proof.Machine.execWakeCfg cci input s
  | .domainRequest cci input => Sys2Proof.Machine.execDomainRequest cci input s
  | .fwSlots cci input => Sys2Proof.Machine.execFwSlots cci input s
  | .svnCommit cci input => Sys2Proof.Machine.execSvnCommit cci input s
  | .memRead link number tag hpa kind f => Sys2Proof.Machine.execMemRead link number tag hpa kind f s
  | .memWrite link number tag hpa shared data mask poison f => Sys2Proof.Machine.execMemWrite link number tag hpa shared data mask poison f s
  | .memSpecRd link number hpa => Sys2Proof.Machine.execMemSpecRd link number hpa s
  | .memClnEvct link number tag hpa f => Sys2Proof.Machine.execMemClnEvct link number tag hpa f s
  | .deadlineExpiry req => Sys2Proof.Machine.execDeadlineExpiry req s
  | .linkUp link rate width flit256 lopt => Sys2Proof.Machine.execLinkUp link rate width flit256 lopt s
  | .linkRetrain link => Sys2Proof.Machine.execLinkRetrain link s
  | .ideKm link k m => Sys2Proof.Machine.execIdeKm link k m s
  | .ideIntegrityFailure link k dropped => Sys2Proof.Machine.execIdeIntegrityFailure link k dropped s
  | .linkDown link dropped => Sys2Proof.Machine.execLinkDown link dropped s
  | .perstAssert port dropped0 dropped1 => Sys2Proof.Machine.execPerstAssert port dropped0 dropped1 s
  | .perstDeassert port => Sys2Proof.Machine.execPerstDeassert port s
  | .functionLevelReset link ld => Sys2Proof.Machine.execFunctionLevelReset link ld s
  | .creditOverflow link dropped => Sys2Proof.Machine.execCreditOverflow link dropped s
  | .linkInternalParity link dropped => Sys2Proof.Machine.execLinkInternalParity link dropped s
  | .flitCrcError link rollover => Sys2Proof.Machine.execFlitCrcError link rollover s
  | .malformedTlp link => Sys2Proof.Machine.execMalformedTlp link s
  | .hdmDecoderCommit ld k base size dpaBase ways gran hdmDb commit => Sys2Proof.Machine.execHdmDecoderCommit ld k base size dpaBase ways gran hdmDb commit s
  | .fmSetLdAllocations cci port n0 n1 => Sys2Proof.Machine.execFmSetLdAllocations cci port n0 n1 s
  | .fmGetLdAllocations cci port => Sys2Proof.Machine.execFmGetLdAllocations cci port s
  | .fmLdInfo cci => Sys2Proof.Machine.execFmLdInfo cci s
  | .fmMultiHeadedInfo cci => Sys2Proof.Machine.execFmMultiHeadedInfo cci s
  | .fmHeadInfo cci link => Sys2Proof.Machine.execFmHeadInfo cci link s
  | .fmDcdManagement cci op => Sys2Proof.Machine.execFmDcdManagement cci op s
  | .mapClaimCommit p v => Sys2Proof.Machine.execMapClaimCommit p v s
  | .mapClaimRelease p v => Sys2Proof.Machine.execMapClaimRelease p v s
  | .claimReleaseEnd claim => Sys2Proof.Machine.execClaimReleaseEnd claim s
  | .mapClaimgrantWrite p high v => Sys2Proof.Machine.execMapClaimgrantWrite p high v s
  | .physicalRoomWaitEnd => Sys2Proof.Machine.execPhysicalRoomWaitEnd s
  | .mapWalk dpn f => Sys2Proof.Machine.execMapWalk dpn f s
  | .auditSweep flips dirs => Sys2Proof.Machine.execAuditSweep flips dirs s
  | .cirrusWriteback dpaLine fs mismatch => Sys2Proof.Machine.execCirrusWriteback dpaLine fs mismatch s
  | .writebackBufferFree => Sys2Proof.Machine.execWritebackBufferFree s
  | .cirFlushStart v => Sys2Proof.Machine.execCirFlushStart v s
  | .flushEnd fs => Sys2Proof.Machine.execFlushEnd fs s
  | .cirSweepStart => Sys2Proof.Machine.execCirSweepStart s
  | .excursionSweepEnd finds => Sys2Proof.Machine.execExcursionSweepEnd finds s
  | .epochBoundary => Sys2Proof.Machine.execEpochBoundary s
  | .coldScan => Sys2Proof.Machine.execColdScan s
  | .selectionComplete => Sys2Proof.Machine.execSelectionComplete s
  | .selectionWindowExpiry => Sys2Proof.Machine.execSelectionWindowExpiry s
  | .moveStart explicit => Sys2Proof.Machine.execMoveStart explicit s
  | .copyPassEnd dpn fs mismatches => Sys2Proof.Machine.execCopyPassEnd dpn fs mismatches s
  | .switchEnd dpn fs mismatches => Sys2Proof.Machine.execSwitchEnd dpn fs mismatches s
  | .switchCancel dpn => Sys2Proof.Machine.execSwitchCancel dpn s
  | .incompressibleFilterExpiry => Sys2Proof.Machine.execIncompressibleFilterExpiry s
  | .plcApply => Sys2Proof.Machine.execPlcApply s
  | .nimbusDecode job fs fault => Sys2Proof.Machine.execNimbusDecode job fs fault s
  | .decodeRetry job fs fault => Sys2Proof.Machine.execDecodeRetry job fs fault s
  | .nmbPipeFail compressor pipe job => Sys2Proof.Machine.execNmbPipeFail compressor pipe job s
  | .heapDirectoryRebuild segment started => Sys2Proof.Machine.execHeapDirectoryRebuild segment started s
  | .snpArmArm p v => Sys2Proof.Machine.execSnpArmArm p v s
  | .armingComplete n => Sys2Proof.Machine.execArmingComplete n s
  | .eagerCursorRead n fs => Sys2Proof.Machine.execEagerCursorRead n fs s
  | .captureTrackerFree => Sys2Proof.Machine.execCaptureTrackerFree s
  | .captureEnd n dpn fs => Sys2Proof.Machine.execCaptureEnd n dpn fs s
  | .captureTime n dpn => Sys2Proof.Machine.execCaptureTime n dpn s
  | .exportDmaComplete n => Sys2Proof.Machine.execExportDmaComplete n s
  | .exportDmaError n => Sys2Proof.Machine.execExportDmaError n s
  | .exportLinkTimeout n => Sys2Proof.Machine.execExportLinkTimeout n s
  | .abortMarksCleared n => Sys2Proof.Machine.execAbortMarksCleared n s
  | .snapMarkClearEnd claim => Sys2Proof.Machine.execSnapMarkClearEnd claim s
  | .importRecord queue index bytes => Sys2Proof.Machine.execImportRecord queue index bytes s
  | .channelCommit => Sys2Proof.Machine.execChannelCommit s
  | .channelUncommit => Sys2Proof.Machine.execChannelUncommit s
  | .backgroundInitialization => Sys2Proof.Machine.execBackgroundInitialization s
  | .dramDataReturn req f => Sys2Proof.Machine.execDramDataReturn req f s
  | .panicWaitExpiry c read => Sys2Proof.Machine.execPanicWaitExpiry c read s
  | .panicEnd c => Sys2Proof.Machine.execPanicEnd c s
  | .refresh c => Sys2Proof.Machine.execRefresh c s
  | .dimmTemperatureRead c t0 t1 => Sys2Proof.Machine.execDimmTemperatureRead c t0 t1 s
  | .powerDownEntry c rank => Sys2Proof.Machine.execPowerDownEntry c rank s
  | .dramPllLock k => Sys2Proof.Machine.execDramPllLock k s
  | .trainingStepEnd c t => Sys2Proof.Machine.execTrainingStepEnd c t s
  | .caParityError c retries => Sys2Proof.Machine.execCaParityError c retries s
  | .dmcFrzctlRelease c => Sys2Proof.Machine.execDmcFrzctlRelease c s
  | .channelReleaseEnd c fs => Sys2Proof.Machine.execChannelReleaseEnd c fs s
  | .dmcSparectlStart c v => Sys2Proof.Machine.execDmcSparectlStart c v s
  | .sparingCopy c f => Sys2Proof.Machine.execSparingCopy c f s
  | .medScrubctlStart v => Sys2Proof.Machine.execMedScrubctlStart v s
  | .medScrubctlStop => Sys2Proof.Machine.execMedScrubctlStop s
  | .scrubRead context fs metaUes => Sys2Proof.Machine.execScrubRead context fs metaUes s
  | .scrubPolicyPass => Sys2Proof.Machine.execScrubPolicyPass s
  | .hpprRowEnd c ok => Sys2Proof.Machine.execHpprRowEnd c ok s
  | .medPprctlStart v => Sys2Proof.Machine.execMedPprctlStart v s
  | .pprEnd noResource ues mismatches => Sys2Proof.Machine.execPprEnd noResource ues mismatches s
  | .secVeilcfgRotate v => Sys2Proof.Machine.execSecVeilcfgRotate v s
  | .veilSweepPage => Sys2Proof.Machine.execVeilSweepPage s
  | .rotationEnd fs => Sys2Proof.Machine.execRotationEnd fs s
  | .rewriteTrackerItem dpn item find => Sys2Proof.Machine.execRewriteTrackerItem dpn item find s
  | .counterFetch dpn finds evicts spoilt => Sys2Proof.Machine.execCounterFetch dpn finds evicts spoilt s
  | .secRegionctlEnable v => Sys2Proof.Machine.execSecRegionctlEnable v s
  | .rekeySweepPage k => Sys2Proof.Machine.execRekeySweepPage k s
  | .keyidRetirement k fs => Sys2Proof.Machine.execKeyidRetirement k fs s
  | .breachRecoveryEnd k record => Sys2Proof.Machine.execBreachRecoveryEnd k record s
  | .secRngFail => Sys2Proof.Machine.execSecRngFail s
  | .secPipePar dpaLine again => Sys2Proof.Machine.execSecPipePar dpaLine again s
  | .birsp link ld dpaLine shared => Sys2Proof.Machine.execBirsp link ld dpaLine shared s
  | .biconflict link ld dpaLine => Sys2Proof.Machine.execBiconflict link ld dpaLine s
  | .tBiExpiry dpaLine => Sys2Proof.Machine.execTBiExpiry dpaLine s
  | .grantHoldEnd dpaLine => Sys2Proof.Machine.execGrantHoldEnd dpaLine s
  | .revocationSweepEnd claim => Sys2Proof.Machine.execRevocationSweepEnd claim s
  | .backgroundEviction set => Sys2Proof.Machine.execBackgroundEviction set s
  | .halFence mask => Sys2Proof.Machine.execHalFence mask s
  | .halUnfence mask => Sys2Proof.Machine.execHalUnfence mask s
  | .fenceSweepEnd link => Sys2Proof.Machine.execFenceSweepEnd link s
  | .halPeakClear => Sys2Proof.Machine.execHalPeakClear s
  | .slcEnable p => Sys2Proof.Machine.execSlcEnable p s
  | .slcRemove p => Sys2Proof.Machine.execSlcRemove p s
  | .sliceRemoveEnd slice => Sys2Proof.Machine.execSliceRemoveEnd slice s
  | .slcReset p => Sys2Proof.Machine.execSlcReset p s
  | .sliceResetEnd slice => Sys2Proof.Machine.execSliceResetEnd slice s
  | .dbAssign p v => Sys2Proof.Machine.execDbAssign p v s
  | .dbFree p v => Sys2Proof.Machine.execDbFree p v s
  | .queCtlEnable p bme msix => Sys2Proof.Machine.execQueCtlEnable p bme msix s
  | .queCtlDisable p => Sys2Proof.Machine.execQueCtlDisable p s
  | .queueDisabled queue => Sys2Proof.Machine.execQueueDisabled queue s
  | .queCtlResize p bme msix => Sys2Proof.Machine.execQueCtlResize p bme msix s
  | .resizeSwitch queue => Sys2Proof.Machine.execResizeSwitch queue s
  | .sqTail link queue v cqHead => Sys2Proof.Machine.execSqTail link queue v cqHead s
  | .cqHead link queue v => Sys2Proof.Machine.execCqHead link queue v s
  | .descriptorFetch queue words => Sys2Proof.Machine.execDescriptorFetch queue words s
  | .descriptorCompletion queue => Sys2Proof.Machine.execDescriptorCompletion queue s
  | .nop queue index => Sys2Proof.Machine.execNop queue index s
  | .copy queue index fs => Sys2Proof.Machine.execCopy queue index fs s
  | .fill queue index => Sys2Proof.Machine.execFill queue index s
  | .zero queue index => Sys2Proof.Machine.execZero queue index s
  | .compare queue index fs => Sys2Proof.Machine.execCompare queue index fs s
  | .demoteRange queue index => Sys2Proof.Machine.execDemoteRange queue index s
  | .promoteRange queue index => Sys2Proof.Machine.execPromoteRange queue index s
  | .hintHot queue index => Sys2Proof.Machine.execHintHot queue index s
  | .hintCold queue index => Sys2Proof.Machine.execHintCold queue index s
  | .pin queue index fs => Sys2Proof.Machine.execPin queue index fs s
  | .unpin queue index => Sys2Proof.Machine.execUnpin queue index s
  | .flush queue index fs => Sys2Proof.Machine.execFlush queue index fs s
  | .scrubRange queue index => Sys2Proof.Machine.execScrubRange queue index s
  | .snapCut queue index => Sys2Proof.Machine.execSnapCut queue index s
  | .snapExport queue index => Sys2Proof.Machine.execSnapExport queue index s
  | .snapRelease queue index => Sys2Proof.Machine.execSnapRelease queue index s
  | .importStream queue index header => Sys2Proof.Machine.execImportStream queue index header s
  | .fence queue index => Sys2Proof.Machine.execFence queue index s
  | .tokenWindow => Sys2Proof.Machine.execTokenWindow s
  | .priorityRecompute => Sys2Proof.Machine.execPriorityRecompute s
  | .qosProfileEnable => Sys2Proof.Machine.execQosProfileEnable s
  | .conCtlLinken => Sys2Proof.Machine.execConCtlLinken s
  | .conCtlLinkenOff => Sys2Proof.Machine.execConCtlLinkenOff s
  | .conCtlRetrain => Sys2Proof.Machine.execConCtlRetrain s
  | .conCtlDown => Sys2Proof.Machine.execConCtlDown s
  | .conCtlReadd mask => Sys2Proof.Machine.execConCtlReadd mask s
  | .bundleReaddEnd bundle => Sys2Proof.Machine.execBundleReaddEnd bundle s
  | .trainingRetry => Sys2Proof.Machine.execTrainingRetry s
  | .contrailTrainingStep t => Sys2Proof.Machine.execContrailTrainingStep t s
  | .codeword bundle c => Sys2Proof.Machine.execCodeword bundle c s
  | .mw h jseq lines => Sys2Proof.Machine.execMw h jseq lines s
  | .rsw h lines => Sys2Proof.Machine.execRsw h lines s
  | .stream h slot offset bytes => Sys2Proof.Machine.execStream h slot offset bytes s
  | .keyx h reply last => Sys2Proof.Machine.execKeyx h reply last s
  | .ack h => Sys2Proof.Machine.execAck h s
  | .hb h ts peer epoch => Sys2Proof.Machine.execHb h ts peer epoch s
  | .lane h bundle lane drop => Sys2Proof.Machine.execLane h bundle lane drop s
  | .mirack h jseq => Sys2Proof.Machine.execMirack h jseq s
  | .params h p => Sys2Proof.Machine.execParams h p s
  | .claimdef h claim base size attr => Sys2Proof.Machine.execClaimdef h claim base size attr s
  | .claimrel h claim => Sys2Proof.Machine.execClaimrel h claim s
  | .result h op code => Sys2Proof.Machine.execResult h op code s
  | .stripeDone h stripe => Sys2Proof.Machine.execStripeDone h stripe s
  | .stripeAck h stripe => Sys2Proof.Machine.execStripeAck h stripe s
  | .unback h dpn count => Sys2Proof.Machine.execUnback h dpn count s
  | .fetch h dpaLine => Sys2Proof.Machine.execFetch h dpaLine s
  | .pstat h outbits journal epoch => Sys2Proof.Machine.execPstat h outbits journal epoch s
  | .giveback h epoch => Sys2Proof.Machine.execGiveback h epoch s
  | .slicemap h piece owners slices => Sys2Proof.Machine.execSlicemap h piece owners slices s
  | .rxopen h op slot slice size claim streamId => Sys2Proof.Machine.execRxopen h op slot slice size claim streamId s
  | .rxresult h op slot code => Sys2Proof.Machine.execRxresult h op slot code s
  | .rxopenTimeout slot => Sys2Proof.Machine.execRxopenTimeout slot s
  | .rxclose h op slot cause => Sys2Proof.Machine.execRxclose h op slot cause s
  | .sealen h op claim => Sys2Proof.Machine.execSealen h op claim s
  | .sealres h op code => Sys2Proof.Machine.execSealres h op code s
  | .refetch h op claim level index => Sys2Proof.Machine.execRefetch h op claim level index s
  | .refdone h op lines => Sys2Proof.Machine.execRefdone h op lines s
  | .xkey h keyRef slot key => Sys2Proof.Machine.execXkey h keyRef slot key s
  | .xkeyack h keyRef status => Sys2Proof.Machine.execXkeyack h keyRef status s
  | .keyrenew h phase direction => Sys2Proof.Machine.execKeyrenew h phase direction s
  | .keyrenewack h phase direction => Sys2Proof.Machine.execKeyrenewack h phase direction s
  | .reservedCtrlMsg h bytes => Sys2Proof.Machine.execReservedCtrlMsg h bytes s
  | .replayTimeout => Sys2Proof.Machine.execReplayTimeout s
  | .retrainTimeout => Sys2Proof.Machine.execRetrainTimeout s
  | .keyingTimeout => Sys2Proof.Machine.execKeyingTimeout s
  | .ackTimer => Sys2Proof.Machine.execAckTimer s
  | .mwPacketClose => Sys2Proof.Machine.execMwPacketClose s
  | .hbSend => Sys2Proof.Machine.execHbSend s
  | .conHbLost => Sys2Proof.Machine.execConHbLost s
  | .laneSwapRequest bundle lane spareLocked => Sys2Proof.Machine.execLaneSwapRequest bundle lane spareLocked s
  | .laneLockLoss bundle lane spareLocked => Sys2Proof.Machine.execLaneLockLoss bundle lane spareLocked s
  | .swapRequestRepeat bundle => Sys2Proof.Machine.execSwapRequestRepeat bundle s
  | .bundleDropRequest bundle => Sys2Proof.Machine.execBundleDropRequest bundle s
  | .parCtlEnable => Sys2Proof.Machine.execParCtlEnable s
  | .parCtlLeave => Sys2Proof.Machine.execParCtlLeave s
  | .paramsTimeout => Sys2Proof.Machine.execParamsTimeout s
  | .parCtlTakeover force => Sys2Proof.Machine.execParCtlTakeover force s
  | .parCtlGiveback => Sys2Proof.Machine.execParCtlGiveback s
  | .parCtlFence => Sys2Proof.Machine.execParCtlFence s
  | .parCtlDiscard => Sys2Proof.Machine.execParCtlDiscard s
  | .discardEnd => Sys2Proof.Machine.execDiscardEnd s
  | .ptimeoutExpiry => Sys2Proof.Machine.execPtimeoutExpiry s
  | .mirackStallTimeout => Sys2Proof.Machine.execMirackStallTimeout s
  | .resyncStripe fs => Sys2Proof.Machine.execResyncStripe fs s
  | .pstatSend => Sys2Proof.Machine.execPstatSend s
  | .engineDpaAccess core dpaLine write fs => Sys2Proof.Machine.execEngineDpaAccess core dpaLine write fs s
  | .stage1Walk core w va a handler finds fs => Sys2Proof.Machine.execStage1Walk core w va a handler finds fs s
  | .spdmMsg core w length => Sys2Proof.Machine.execSpdmMsg core w length s
  | .veilRotateCall core w => Sys2Proof.Machine.execVeilRotateCall core w s
  | .fwCheck core w image type => Sys2Proof.Machine.execFwCheck core w image type s
  | .svnCommitCall core w type => Sys2Proof.Machine.execSvnCommitCall core w type s
  | .coreRestart core w target => Sys2Proof.Machine.execCoreRestart core w target s
  | .worldReturn core => Sys2Proof.Machine.execWorldReturn core s
  | .asyncEntry core w why => Sys2Proof.Machine.execAsyncEntry core w why s
  | .mupGo core w => Sys2Proof.Machine.execMupGo core w s
  | .coreInval core w v => Sys2Proof.Machine.execCoreInval core w v s
  | .engTlbinv mask => Sys2Proof.Machine.execEngTlbinv mask s
  | .tlbInvalidationEnd core => Sys2Proof.Machine.execTlbInvalidationEnd core s
  | .engWdogPet => Sys2Proof.Machine.execEngWdogPet s
  | .engZwdog => Sys2Proof.Machine.execEngZwdog s
  | .engLockstep => Sys2Proof.Machine.execEngLockstep s
  | .engHoldWrite v => Sys2Proof.Machine.execEngHoldWrite v s
  | .engMemUe core => Sys2Proof.Machine.execEngMemUe core s
  | .powerGood straps part => Sys2Proof.Machine.execPowerGood straps part s
  | .powerGoodLoss rail aonLost => Sys2Proof.Machine.execPowerGoodLoss rail aonLost s
  | .refclkLoss => Sys2Proof.Machine.execRefclkLoss s
  | .pllUnlock p dropped0 dropped1 => Sys2Proof.Machine.execPllUnlock p dropped0 dropped1 s
  | .rootPllLock => Sys2Proof.Machine.execRootPllLock s
  | .selfTestEnd ok => Sys2Proof.Machine.execSelfTestEnd ok s
  | .zenithVerifyEnd a b => Sys2Proof.Machine.execZenithVerifyEnd a b s
  | .horizonVerifyEnd a b drift => Sys2Proof.Machine.execHorizonVerifyEnd a b drift s
  | .devEnableCheck => Sys2Proof.Machine.execDevEnableCheck s
  | .devDisable => Sys2Proof.Machine.execDevDisable s
  | .rstCtlCold => Sys2Proof.Machine.execRstCtlCold s
  | .rstCtlWarm => Sys2Proof.Machine.execRstCtlWarm s
  | .warmResetStep fs ok => Sys2Proof.Machine.execWarmResetStep fs ok s
  | .rstCtlGo p => Sys2Proof.Machine.execRstCtlGo p s
  | .blockResetEnd block index dropped => Sys2Proof.Machine.execBlockResetEnd block index dropped s
  | .thermtrip => Sys2Proof.Machine.execThermtrip s
  | .cciIdentify cci => Sys2Proof.Machine.execCciIdentify cci s
  | .backgroundOperationStatus cci => Sys2Proof.Machine.execBackgroundOperationStatus cci s
  | .getResponseMessageLimit cci => Sys2Proof.Machine.execGetResponseMessageLimit cci s
  | .setResponseMessageLimit cci exponent => Sys2Proof.Machine.execSetResponseMessageLimit cci exponent s
  | .requestAbortBackgroundOperation cci => Sys2Proof.Machine.execRequestAbortBackgroundOperation cci s
  | .getEventRecords cci log => Sys2Proof.Machine.execGetEventRecords cci log s
  | .clearEventRecords cci log all handles => Sys2Proof.Machine.execClearEventRecords cci log all handles s
  | .getEventInterruptPolicy cci => Sys2Proof.Machine.execGetEventInterruptPolicy cci s
  | .setEventInterruptPolicy cci policy => Sys2Proof.Machine.execSetEventInterruptPolicy cci policy s
  | .getFwInfo cci => Sys2Proof.Machine.execGetFwInfo cci s
  | .transferFw cci action slot pkg => Sys2Proof.Machine.execTransferFw cci action slot pkg s
  | .activateFw cci action slot => Sys2Proof.Machine.execActivateFw cci action slot s
  | .getTimestamp cci => Sys2Proof.Machine.execGetTimestamp cci s
  | .setTimestamp cci t => Sys2Proof.Machine.execSetTimestamp cci t s
  | .getSupportedLogs cci => Sys2Proof.Machine.execGetSupportedLogs cci s
  | .getLog cci effects => Sys2Proof.Machine.execGetLog cci effects s
  | .identifyMemoryDevice cci => Sys2Proof.Machine.execIdentifyMemoryDevice cci s
  | .getHealthInfo cci => Sys2Proof.Machine.execGetHealthInfo cci s
  | .getAlertConfiguration cci => Sys2Proof.Machine.execGetAlertConfiguration cci s
  | .setAlertConfiguration cci over' under ce other => Sys2Proof.Machine.execSetAlertConfiguration cci over' under ce other s
  | .getPoisonList cci dpa lines => Sys2Proof.Machine.execGetPoisonList cci dpa lines s
  | .injectPoison cci dpa f => Sys2Proof.Machine.execInjectPoison cci dpa f s
  | .clearPoison cci dpa data f => Sys2Proof.Machine.execClearPoison cci dpa data f s
  | .getScanMediaCapabilities cci dpa lines => Sys2Proof.Machine.execGetScanMediaCapabilities cci dpa lines s
  | .scanMedia cci dpa lines => Sys2Proof.Machine.execScanMedia cci dpa lines s
  | .getScanMediaResults cci => Sys2Proof.Machine.execGetScanMediaResults cci s
  | .sanitize cci => Sys2Proof.Machine.execSanitize cci s
  | .secureErase cci => Sys2Proof.Machine.execSecureErase cci s
  | .getDynamicCapacityConfiguration cci => Sys2Proof.Machine.execGetDynamicCapacityConfiguration cci s
  | .getDcExtentList cci => Sys2Proof.Machine.execGetDcExtentList cci s
  | .addDcResponse cci xs => Sys2Proof.Machine.execAddDcResponse cci xs s
  | .releaseDynamicCapacity cci xs => Sys2Proof.Machine.execReleaseDynamicCapacity cci xs s
  | .unsupportedCommand cci => Sys2Proof.Machine.execUnsupportedCommand cci s
  | .commandTimeout cci => Sys2Proof.Machine.execCommandTimeout cci s
  | .backgroundOperationEnd cci ok => Sys2Proof.Machine.execBackgroundOperationEnd cci ok s
  | .bindSlice h body => Sys2Proof.Machine.execBindSlice h body s
  | .getBinding h body => Sys2Proof.Machine.execGetBinding h body s
  | .sealEnable h body => Sys2Proof.Machine.execSealEnable h body s
  | .sealRecovery h body => Sys2Proof.Machine.execSealRecovery h body s
  | .breachList h body => Sys2Proof.Machine.execBreachList h body s
  | .zrSalvageRead h body => Sys2Proof.Machine.execZrSalvageRead h body s
  | .exportKeyCreate h body => Sys2Proof.Machine.execExportKeyCreate h body s
  | .exportKeyGet h body => Sys2Proof.Machine.execExportKeyGet h body s
  | .exportKeyLoad h body => Sys2Proof.Machine.execExportKeyLoad h body s
  | .exportKeyDrop h body => Sys2Proof.Machine.execExportKeyDrop h body s
  | .zrVeilRotate h body => Sys2Proof.Machine.execZrVeilRotate h body s
  | .hazeEntry => Sys2Proof.Machine.execHazeEntry s
  | .hazeExit late => Sys2Proof.Machine.execHazeExit late s
  | .overcastEntry => Sys2Proof.Machine.execOvercastEntry s
  | .overcastWake source => Sys2Proof.Machine.execOvercastWake source s
  | .pwrCtlNight => Sys2Proof.Machine.execPwrCtlNight s
  | .pwrCtlClear => Sys2Proof.Machine.execPwrCtlClear s
  | .nightEntry => Sys2Proof.Machine.execNightEntry s
  | .nightEntryStep fs => Sys2Proof.Machine.execNightEntryStep fs s
  | .nightWake source => Sys2Proof.Machine.execNightWake source s
  | .nightExitStep ok => Sys2Proof.Machine.execNightExitStep ok s
  | .domainWake domain => Sys2Proof.Machine.execDomainWake domain s
  | .domainWakeEnd domain late => Sys2Proof.Machine.execDomainWakeEnd domain late s
  | .pwrDomctlGo p => Sys2Proof.Machine.execPwrDomctlGo p s
  | .domainGateEffect domain => Sys2Proof.Machine.execDomainGateEffect domain s
  | .supplyWarning rail => Sys2Proof.Machine.execSupplyWarning rail s
  | .guardLift => Sys2Proof.Machine.execGuardLift s
  | .fltStickyClear k v => Sys2Proof.Machine.execFltStickyClear k v s
  | .chiprst => Sys2Proof.Machine.execChiprst s
  | .fltFifoRead p => Sys2Proof.Machine.execFltFifoRead p s
  | .hbeatToggle => Sys2Proof.Machine.execHbeatToggle s
  | .eventRecord e => Sys2Proof.Machine.execEventRecord e s
  | .telCtlStart => Sys2Proof.Machine.execTelCtlStart s
  | .sweepPeriod => Sys2Proof.Machine.execSweepPeriod s
  | .sweepEnd span failed => Sys2Proof.Machine.execSweepEnd span failed s
  | .telCtlClrall => Sys2Proof.Machine.execTelCtlClrall s
  | .telCntvalWrite p v => Sys2Proof.Machine.execTelCntvalWrite p v s
  | .telSmprdWrite v => Sys2Proof.Machine.execTelSmprdWrite v s
  | .junctionSensorRead readings => Sys2Proof.Machine.execJunctionSensorRead readings s
  | .thermSensor sensor => Sys2Proof.Machine.execThermSensor sensor s
  | .throttleRelease => Sys2Proof.Machine.execThrottleRelease s
  | .railSample samples => Sys2Proof.Machine.execRailSample samples s
  | .eyeEstimate contrail unit lane height width margining => Sys2Proof.Machine.execEyeEstimate contrail unit lane height width margining s
  | .registerWrite p fn offset bytes v bme msix => Sys2Proof.Machine.execRegisterWrite p fn offset bytes v bme msix s
  | .jtagInstruction op => Sys2Proof.Machine.execJtagInstruction op s
  | .linkLowPowerEntry link to' => Sys2Proof.Machine.execLinkLowPowerEntry link to' s
  | .serdesPllLock host k => Sys2Proof.Machine.execSerdesPllLock host k s
  | .hostReceiverCalibration => Sys2Proof.Machine.execHostReceiverCalibration s
  | .doeRequest link ld spdm => Sys2Proof.Machine.execDoeRequest link ld spdm s
  | .keyRenewal => Sys2Proof.Machine.execKeyRenewal s
  | .queParity queue => Sys2Proof.Machine.execQueParity queue s
  | .cmplDma queue => Sys2Proof.Machine.execCmplDma queue s
  | .fltSrccfgWrite p v => Sys2Proof.Machine.execFltSrccfgWrite p v s
  | .fltIntcfgWrite v => Sys2Proof.Machine.execFltIntcfgWrite v s
  | .occupancySample => Sys2Proof.Machine.execOccupancySample s

end Sys2Proof.Machine
end

