-- ==== Sys2Proof/Machine/Idle.lean ====
section
/-! DEFINITION. What the device does while no command waits for it: the clock counts, queued writes leave the channels, and Horizon takes
the next Kamcon command that it holds (R232, R501, R534). -/

namespace Sys2Proof.Machine

/-- The timestamp counts: CLK_SLOW runs, or the always-on domain counts for it in a warm reset and in NIGHT (R501). -/
def State.clockRuns (s : State) : Bool :=
  s.on CLK_STAT.ROOT || s.chip.warm != 0 || s.rd PWR_STAT.STATE == pwrNight

/-- One CLK_SLOW cycle (R501, R590). -/
def State.tick (s : State) : State :=
  if s.clockRuns then
    let s := { s with time := s.time + 1 }
    if s.on CLK_STAT.ROOT && s.chip.warm == 0 then s.event Ev.slowCycles 0 else s
  else s

/-- With no read ready, each channel issues the oldest write of its queue (R232). -/
def State.issueWrites (s : State) : State :=
  (List.range 16).foldl (fun (s : State) c =>
    if s.serving c && !(s.chan c).selfRefresh then s.drain c 1 else s) s

/-- Replies to a CCI are left out of what a command has sent since `old` messages: it was answered by the time limit (R528). -/
def State.mute (s : State) (cci old : Nat) : State :=
  let sent := (s.out.take (s.out.length - old)).filter fun o => match o with
    | .reply k _ _ => k != cci
    | _ => true
  { s with
    out := sent ++ s.out.drop (s.out.length - old)
    mbx := { s.mbx with waiting := none } }

/-- Horizon starts the oldest command that it holds, when none waits for its result (R534). -/
def State.runHeld (s : State) : Host.Outcome State Fault Refusal :=
  if s.mbx.waiting.isSome then s.done
  else match s.mbx.queue with
    | [] => s.done
    | (cci, muted, i) :: rest =>
      match exec i { s with mbx := { s.mbx with queue := [] } } with
      | .next t =>
        let t := { t with mbx := { t.mbx with queue := t.mbx.queue ++ rest } }
        .next (if muted then t.mute cci s.out.length else t)
      | o => o

/-- A step without a command. -/
def State.idle (s : State) : Host.Outcome State Fault Refusal := (s.tick.issueWrites).runHeld

end Sys2Proof.Machine
end

