-- ==== Sys2Proof/Safety.lean ====
section
/-! DEFINITION. What counts as a safe state and a safe step. -/

namespace Sys2Proof.Machine

/-- A state is sound: the register file and memory are in canonical form, and no FIFO, buffer, tracker file, record
store or key store holds more than the spec gives it. -/
structure State.Sound (s : State) : Prop where
  /-- The register file lists each field once, in rising order. -/
  registers : s.regs.rising = true
  /-- Memory lists each byte once, in rising order, and no zero. -/
  memory : Memory.wf s.dram.mem = true
  /-- The fault FIFO has 1,024 entries (R569, R588). -/
  faults : s.flt.fifo.length ≤ 1024
  /-- Zenith holds up to 256 loaded export keys (R545). -/
  keys : s.sec.loaded.length ≤ 256
  /-- There are 64 rewrite trackers (R292). -/
  rewrites : s.sec.trackers.length ≤ 64
  /-- There are 64 salvage records (R100). -/
  salvage : s.cir.salvage.rising = true ∧ ∀ e ∈ s.cir.salvage, e.1 < 64
  /-- The sampler's buffer has 8,192 records (R604). -/
  samples : s.smp.held ≤ sampleCount

/-- Nothing waits to happen: no channel is about to enter FREEZE, no request, repair, held change or packet waits, no snapshot slot is
live, the partner's readouts are current, and no command interface waits for a result. A command that leaves such a state has done
nothing beside its own effect. -/
def State.calm (s : State) : Bool :=
  (List.range 16).all (fun c => (s.chan c).freezeDue.isNone) && s.hal.ready.isEmpty && s.snp.released.isEmpty &&
    s.reqs.isEmpty && s.cir.repair.isEmpty && s.snp.slots.isEmpty && !s.pair.mirackDue && s.con.queue.isEmpty &&
    s.watchPeer == s && s.mbx.waiting.isNone && s.mbx.running.isEmpty

/-- The fields of a map entry fit their widths, and LOCATION has the form of the page state (R68, R69). -/
def MapEntry.fits (e : MapEntry) : Bool :=
  decide (e.keygen < 2) && decide (e.keyid < 2 ^ 10) && decide (e.claim < 2 ^ 13) && decide (e.heat < 2 ^ 8) &&
    decide (e.version < 2 ^ 8) && decide (e.hstamp < 2 ^ 8) && decide (e.hint < 4) &&
    match e.loc with
    | .nowhere => e.state == .unbacked || e.state == .lost
    | .frame f => (e.state == .stratus || e.state == .inFlight) && decide (f < 2 ^ 32)
    | .run h c0 c1 c2 c3 =>
      (e.state == .nimbus || e.state == .inFlight) && decide (h < 2 ^ 38) && decide (c0 < 32) && decide (c1 < 32) &&
        decide (c2 < 32) && decide (c3 < 32)

/-- A step is safe when it answers a next state, and that state is sound. -/
def safeStep (s : State) : Prop := ∃ t, step s = .next t ∧ t.Sound

/-! ### When a command is taken up -/

/-- The mailbox of a CCI takes up a command (R527, R528, R532): the CCI exists, its mailbox is ready, a command for management
CCIs comes to one of them, and no Sanitize or Secure Erase runs. -/
def State.takesMail (s : State) (cci : Nat) (mgmt : Bool) : Bool :=
  s.cciExists cci && s.mailReady && (!mgmt || s.cciManages cci) && !s.erasing

/-- Horizon takes up a Kamcon command (R533, R534): no other one waits for its result, the payload has the length of the command,
and no bit outside its fields is set. -/
def State.takesKamcon (s : State) (cci : Nat) (input : List Byte) (len : Nat) (fields : List (Nat × Nat × Nat)) : Bool :=
  s.takesMail cci true && s.mbx.waiting.isNone && decide (input.length = len) && !strayBits input fields

/-- A Kamcon command that runs in the background is taken up: none runs on the CCI. -/
def State.mayRun (s : State) (cci : Nat) : Bool := (s.cci cci).background.isNone

/-- Zenith takes up a request of the session of `key` (R543, R544): its body and its slice are valid, the session is bound to the slice
where the request asks for that, and no request of the slice runs. -/
def State.takesZenith (s : State) (h : ZenithHead) (key : List Byte) (valid free : Bool) : Bool :=
  s.zenithServes && h.key == some key && valid && h.reserved == 0 && decide (h.slice ≤ 4095) &&
    (free || s.boundTo h.slice key) && (s.mbx.running.find h.slice).isNone

/-- A core makes a world call at S, after the work `w` (R482). -/
def State.calls (s : State) (n : Nat) (w : CoreWork) : Bool :=
  s.coreRuns n && n != steward && ((s.doWork n w).core n).level == .supervisor

/-- A core below H makes an access (R474). -/
def State.walks (s : State) (n : Nat) : Bool :=
  s.coreRuns n && n != steward && (s.core n).level != .hypervisor && (s.core n).stop.isNone

/-- Descriptor `d` of a queue runs as opcode `op` (R358, R359, R362): it has no status yet, its slice was not reset since, and its
ranges lie in claims of its slice. -/
def State.runs (s : State) (queue index op : Nat) (d : Desc) : Bool :=
  s.desc queue index == some d && d.op == op && s.descRuns d && s.rangesOk d

end Sys2Proof.Machine
end

