-- ==== Sys2Proof/Certificates/Slice0/Obligations.lean ====
section
/-! DEFINITION. The statements for the provers. The first ones are about the machine as a whole and about its parts. The later ones say
for every command where it completes: under hypotheses on the state and the operands alone, exec answers the next state that is written
out. Each right side is a state before `settle`: what then follows of itself (log entry 3) is nothing where that state is calm
(Obligations.CalmSettles). Every field that the right side does not name is as it was: that is the frame. -/

open Sys2Proof Sys2Proof.Machine

/-- A step runs the command at the front of the queue, and that command sees the rest of the queue as it is. -/
def Obligations.StepRunsFront : Prop :=
  ∀ (s : State) (c : Instr) (rest : List Instr), s.pending = c :: rest → step s = exec c { s with pending := rest }

/-- With an empty queue the clock ticks, each channel issues one queued write, and Horizon takes up the next Kamcon command that it
holds. This is the model's choice (log entry 1): the table has no row for a tick. -/
def Obligations.IdleStep : Prop :=
  ∀ s : State, s.pending = [] → step s = (s.tick.issueWrites).runHeld

/-- Every command, in every sound state, completes: it answers a next state, which is sound, has the same queue, and has every message
that was sent before. No command ends in a fault or a refusal. -/
def Obligations.EveryCommandCompletes : Prop :=
  ∀ (i : Instr) (s : State), s.Sound → ∃ t, exec i s = .next t ∧ t.pending = s.pending ∧ s.out <:+ t.out ∧ t.Sound

/-- Every step of a sound state, with a command or without one, answers a sound state: the register file and memory stay in canonical
form, and no FIFO, tracker file, record store or key store exceeds the size that the spec gives it (R100, R292, R545, R569, R604). -/
def Obligations.EveryStepKeepsSound : Prop := ∀ s : State, s.Sound → safeStep s

/-- The state after reset is sound. -/
def Obligations.ResetIsSound : Prop := State.reset.Sound

/-- In a calm state nothing follows of itself: a command whose own effect leaves a calm state has no other effect. -/
def Obligations.CalmSettles : Prop := ∀ s : State, s.calm = true → s.settle = s

/-- After reset the queue, the messages and memory are empty, and every register field reads the value that its reset column gives
(R5, R513). -/
def Obligations.ResetState : Prop :=
  State.reset.pending = [] ∧ State.reset.out = [] ∧ State.reset.dram.mem = [] ∧ State.reset.time = 0 ∧ State.reset.stamp = 0 ∧
    ∀ (f : Fld) (i : Nat), State.reset.rdAt f i = f.resetAt i

/-- The 128-bit word of a map entry spells that entry, for every value of every field (R68, R69): no bit of the layout is lost, and
its check byte is accepted. -/
def Obligations.MapEntryRoundTrip : Prop :=
  ∀ e : MapEntry, e.fits = true → MapEntry.decode e.encode = some e ∧ e.encode < 2 ^ 128

/-- What the compress pipe forms of a block of 1,024 bytes decodes to that block, in its own count of granules and padded into any larger
place (R157–R164, R176), whatever tokens the pipe chooses. -/
def Obligations.BlockRoundTrip : Prop :=
  ∀ block : List Byte, block.length = 1024 →
    decodeStored (formBlock block).count (formBlock block).bytes = .ok block ∧
    ∀ c, (formBlock block).count ≤ c → c ≤ 16 → decodeStored c (padBlock (formBlock block) block c) = .ok block

/-- Two lines of a channel never have the same media address, in any geometry and any address order (R226, R227): the hash of order 3
included. -/
def Obligations.MediaAddressesDiffer : Prop :=
  ∀ (g : Geometry) (l1 l2 : Nat), l1 < 2 ^ g.bits.length → l2 < 2 ^ g.bits.length → g.decode l1 = g.decode l2 → l1 = l2

/-- A write to a register leaves each locked RWL field of it as it was, and gives no error indication: no message is sent and no fault
is raised (R9). -/
def Obligations.LockedFieldsKeep : Prop :=
  ∀ (s : State) (r : Register) (i lo n v : Nat) (f : Fld), r ∈ registerMap → f ∈ r.fields → f.acc = .rwl → s.locked f.lock i = true →
    (s.storeBits r i lo n v).rdAt f i = s.rdAt f i ∧ (s.storeBits r i lo n v).out = s.out ∧
      (s.storeBits r i lo n v).flt = s.flt

/-- A write of a whole register leaves its read-only fields as they were, and clears in its RW1C fields the bits that are written 1
and no other (R6). -/
def Obligations.ReadOnlyFieldsKeep : Prop :=
  (∀ (s : State) (r : Register) (i lo n v : Nat) (f : Fld), r ∈ registerMap → f ∈ r.fields → f.acc = .ro ∨ f.acc = .ros →
    (s.storeBits r i lo n v).rdAt f i = s.rdAt f i) ∧
  (∀ (s : State) (r : Register) (i v : Nat) (f : Fld), r ∈ registerMap → f ∈ r.fields → f.acc = .rw1c → s.rdAt f i < 2 ^ f.width →
    ∀ k, ((s.storeBits r i 0 r.bits v).rdAt f i).testBit k =
      ((s.rdAt f i).testBit k && !(decide (k < f.width) && v.testBit (f.lo + k))))

/-- An unsupported write has no effect but its record (R624, R630): COUNT increments and saturates, and the first such access after VALID
was cleared is recorded; a held record stays. -/
def Obligations.UnsupportedWrites : Prop :=
  (∀ (s : State) (p : Path) (fn offset bytes v : Nat) (bme msix : Bool), p ≠ .bar2 ∨ s.bar2Shown fn = true →
    (bytes ≠ 4 ∧ bytes ≠ 8) ∨ offset % bytes ≠ 0 →
    exec (.registerWrite p fn offset bytes v bme msix) s =
      .next (s.badWrite p offset (if bytes ≠ 4 ∧ bytes ≠ 8 then 1 else 0)).settle) ∧
  (∀ (s : State) (p : Path) (offset kind : Nat), (s.badWrite p offset kind).rd SYS_ACCERR.COUNT =
    min (s.rd SYS_ACCERR.COUNT + 1) 0xFFFF) ∧
  (∀ (s : State) (p : Path) (offset kind : Nat), s.on SYS_ACCERR.VALID = true → ∀ (f : Fld) (i : Nat),
    f.key i ≠ SYS_ACCERR.COUNT.key 0 → (s.badWrite p offset kind).rdAt f i = s.rdAt f i) ∧
  (∀ (s : State) (p : Path) (offset kind : Nat), s.on SYS_ACCERR.VALID = false → offset < 2 ^ 28 → kind < 2 →
    let t := s.badWrite p offset kind
    t.rd SYS_ACCERR.OFFSET = offset ∧ t.rd SYS_ACCERR.PATH = pathCode p ∧ t.rd SYS_ACCERR.KIND = kind ∧
      t.on SYS_ACCERR.WRITE = true ∧ t.on SYS_ACCERR.VALID = true ∧
      ∀ (f : Fld) (i : Nat), f.addr + f.step * i ≠ SYS_ACCERR.COUNT.addr → f.lo < 64 → t.rdAt f i = s.rdAt f i)

/-- A fault event sets its source's sticky bit and no other, counts, and stamps the source; it is the first event where none is held;
and it is pushed into the FIFO, or counted as lost where 1,024 entries are held (R568, R569). -/
def Obligations.FaultCapture : Prop :=
  ∀ (s : State) (src : Nat), src < 116 → s.flt.fifo.length ≤ 1024 →
    let t := s.capture src
    t.sticky src = true ∧ (∀ k, k < 128 → k ≠ src → t.sticky k = s.sticky k) ∧
    t.rdAt FLT_SRCCFG.COUNT src = min (s.rdAt FLT_SRCCFG.COUNT src + 1) (2 ^ 32 - 1) ∧ t.rdAt FLT_SRCTS.TS src = s.stamp ∧
    t.on FLT_FIRST.VALID = true ∧
    (s.on FLT_FIRST.VALID = true → t.rd FLT_FIRST.SOURCE = s.rd FLT_FIRST.SOURCE ∧ t.rd FLT_FIRSTTS.TS = s.rd FLT_FIRSTTS.TS) ∧
    (s.on FLT_FIRST.VALID = false → t.rd FLT_FIRST.SOURCE = src ∧ t.rd FLT_FIRSTTS.TS = s.stamp) ∧
    (s.flt.fifo.length < 1024 → t.flt.fifo = s.flt.fifo ++ [(src, s.stamp)] ∧
      t.rd FLT_FIFOSTAT.LOST = s.rd FLT_FIFOSTAT.LOST) ∧
    (s.flt.fifo.length = 1024 → t.flt.fifo = s.flt.fifo ∧
      t.rd FLT_FIFOSTAT.LOST = min (s.rd FLT_FIFOSTAT.LOST + 1) 0xFFFF) ∧
    t.rd FLT_FIFOSTAT.LEVEL = t.flt.fifo.length ∧
    t.out = s.out ∧ t.dram = s.dram ∧ t.reqs = s.reqs ∧ t.pending = s.pending

/-- A write of a source's reactions sets each reaction as written, but for the fixed ones, which stay set and read 1 in FIXED (R573). -/
def Obligations.FixedReactions : Prop :=
  (∀ (s : State) (p : Path) (v : Nat),
    exec (.fltSrccfgWrite p v) s = .next (s.setReactions (s.rdAt FLT_SRCSEL.SOURCE (pathCopy p)) v).settle) ∧
  (∀ (s : State) (src v : Nat) (f : Fld), src < 128 →
    f ∈ [FLT_SRCCFG.INT, FLT_SRCCFG.NMI, FLT_SRCCFG.BLKRST, FLT_SRCCFG.CHIPRST, FLT_SRCCFG.ERRN] →
    (s.setReactions src v).onAt f src = (bit (s.rdAt FLT_SRCCFG.FIXED src) f.lo || bit v f.lo) ∧
      (s.setReactions src v).rdAt FLT_SRCCFG.FIXED src = s.rdAt FLT_SRCCFG.FIXED src ∧
      ∀ k, k < 128 → k ≠ src → (s.setReactions src v).rdAt f k = s.rdAt f k)

/-- The storm reserve (R57): PCT is 1 after reset; a write stores it up to 10, and nothing while the device is enabled; and the reserve
is that percentage of a usable capacity, rounded down to a whole GiB. -/
def Obligations.StormReserve : Prop :=
  State.reset.rd MAP_STORMCFG.PCT = 1 ∧
  (∀ (s : State) (v : Nat), (s.storeFields [MAP_STORMCFG.PCT] 0 v).rd MAP_STORMCFG.PCT =
    if s.on SYS_CTL.DEV_ENABLE then s.rd MAP_STORMCFG.PCT else min (v % 16) 10) ∧
  (∀ (s : State) (u : Nat), 2 ^ 30 ∣ s.stormFor u ∧ s.stormFor u * 100 ≤ u * s.rd MAP_STORMCFG.PCT ∧
    u * s.rd MAP_STORMCFG.PCT < (s.stormFor u + 2 ^ 30) * 100)

/-- A DMC_SCHED write that leaves the watermarks out of order is ignored as a whole; another stores them, and clamps the time fields
to 10–1,000 (R251). -/
def Obligations.SchedulerWatermarks : Prop :=
  (∀ (s : State) (fn v : Nat) (bme msix : Bool), ¬ (bits v 0 7 < bits v 8 7 ∧ bits v 8 7 < bits v 16 7) →
    exec (.registerWrite .steward fn 0xC0018 8 v bme msix) s = .next s.settle) ∧
  (∀ (s : State) (fn v : Nat) (bme msix : Bool), bits v 0 7 < bits v 8 7 → bits v 8 7 < bits v 16 7 →
    ∃ t : State, exec (.registerWrite .steward fn 0xC0018 8 v bme msix) s = .next t.settle ∧ t.rd DMC_SCHED.WQ_LOW = bits v 0 7 ∧
      t.rd DMC_SCHED.WQ_HIGH = bits v 8 7 ∧ t.rd DMC_SCHED.WQ_PANIC = bits v 16 7 ∧
      t.rd DMC_SCHED.PANIC_WAIT = max 10 (min (bits v 32 10) 1000) ∧ t.rd DMC_SCHED.AGEMAX = max 10 (min (bits v 48 10) 1000))

/-- A counter that is not chained saturates at 2^48 − 1, and sets its overflow bit when an occurrence would take it past that value;
another counter keeps its value (R596). A chained counter wraps and carries into the next (R595). An event outside the counter's bank
ranges is stored as 0 (R594). -/
def Obligations.CounterSaturates : Prop :=
  (∀ (s : State) (c n : Nat), c < 320 → s.onAt TEL_CNTCFG.CHAIN c = false ∨ c % 8 = 7 →
    (s.addCounter c n 8).rdAt TEL_CNTVAL.VALUE c = min (s.rdAt TEL_CNTVAL.VALUE c + n) (2 ^ 48 - 1) ∧
    (2 ^ 48 - 1 < s.rdAt TEL_CNTVAL.VALUE c + n →
      bit ((s.addCounter c n 8).rdAt TEL_OVF.BITS (c / 64)) (c % 64) = true) ∧
    ∀ k, k < 320 → k ≠ c → (s.addCounter c n 8).rdAt TEL_CNTVAL.VALUE k = s.rdAt TEL_CNTVAL.VALUE k) ∧
  (∀ (s : State) (c n : Nat), c < 320 → c % 8 ≠ 7 → s.onAt TEL_CNTCFG.CHAIN c = true → s.onAt TEL_CNTCFG.CHAIN (c + 1) = false →
    2 ^ 48 ≤ s.rdAt TEL_CNTVAL.VALUE c + n → s.rdAt TEL_CNTVAL.VALUE (c + 1) < 2 ^ 48 - 1 →
    (s.addCounter c n 8).rdAt TEL_CNTVAL.VALUE c = (s.rdAt TEL_CNTVAL.VALUE c + n) % 2 ^ 48 ∧
    (s.addCounter c n 8).rdAt TEL_CNTVAL.VALUE (c + 1) = s.rdAt TEL_CNTVAL.VALUE (c + 1) + 1) ∧
  (∀ (s : State) (c : Nat), (s.keepEvent c).rdAt TEL_CNTCFG.EVENT c =
    if bankCounts (c / 8) (s.rdAt TEL_CNTCFG.EVENT c) then s.rdAt TEL_CNTCFG.EVENT c else 0)

/-- A request to gate or switch off a domain that Zenith holds is refused, whoever but Zenith asks (R485): it is answered 0xD4 with
refuser ZENITH_HOLD, counted in the refusal accounting and in HOLDREF, and raises ENG_HOLD_REFUSED; the domain's state and the gates
that are due stay. -/
def Obligations.HeldDomainsRefused : Prop :=
  ∀ (s : State) (who : Asker) (d action : Nat), who ≠ .zenith → d ≤ 32 → action ≤ 2 → action ≠ actOn → s.held d = true →
    (s.askDomain who d action).1 = 0xD4 ∧ (s.askDomain who d action).2.1 = refuserHold ∧
    let t := (s.askDomain who d action).2.2
    t.rd ENG_ERRCNT.HOLDREF = min (s.rd ENG_ERRCNT.HOLDREF + 1) 0xFFFF ∧
    t.rd PWR_REFCNT.HOLD = min (s.rd PWR_REFCNT.HOLD + 1) 0xFFF ∧
    t.sticky srcHoldRefused = true ∧ t.pow.gates = s.pow.gates ∧
    ∀ k, k < 33 → t.rdAt PWR_DOMSTAT.STATE k = s.rdAt PWR_DOMSTAT.STATE k

/-- The timestamp counts cycles of its clock, modulo its 64 bits (R501); Set Timestamp overwrites it (R530); a cold reset sets it to 0. -/
def Obligations.TimestampCounts : Prop :=
  (∀ s : State, s.clockRuns = true → s.tick.stamp = (s.stamp + 1) % 2 ^ 64) ∧
  (∀ s : State, s.clockRuns = false → s.tick = s) ∧
  (∀ (s : State) (v : Nat), (s.setStamp v).stamp = v % 2 ^ 64) ∧
  (∀ (s : State) (cause rail source : Nat), (s.coldReset cause rail source).stamp = 0)

/-- The router serves an access only where every check of R30–R33 holds: the device is enabled, a stream is secure where IDE is required, a
committed decoder of the LD matches and the device is home, the claim is committed and serves, its slice is enabled and not in reset,
the claim grants the LD the access, and a SHARED claim is reached through HDM-DB. -/
def Obligations.OnlyGrantedAccessesAreServed : Prop :=
  ∀ (s : State) (link number hpa : Nat) (write : Bool) (dpa c : Nat) (db : Bool), s.route link number hpa write = .served dpa c db →
    s.on SYS_CTL.DEV_ENABLE = true ∧ s.pairState ≠ pairFenced ∧
    (s.onAt LNK_IDECTL.REQUIRE link = true → (s.link link).ideMem.state = .secure) ∧
    (∃ ld d, s.ldIndex link number = some ld ∧ s.decoderOf ld hpa = some d ∧ d.committed = true ∧ d.base ≤ hpa ∧
      hpa < d.base + d.size ∧ dpa = d.translate hpa ∧ db = d.hdmDb ∧ s.grant c ld ≠ grantNone ∧
      (write = true → s.grant c ld ≠ grantRead)) ∧
    s.homeFor dpa = true ∧ s.inClaim c dpa = true ∧ s.claimServes c = true ∧
    s.onAt SLC_CTL.ENABLE (s.rdAt MAP_CLAIMATTR.SLICE c) = true ∧
    s.onAt SLC_STAT.RESETTING (s.rdAt MAP_CLAIMATTR.SLICE c) = false ∧ (s.onAt MAP_CLAIMATTR.SHARED c = true → db = true)

/-- A claim whose commit check finds nothing is aligned, not empty, ends at or below MAP_DPACAP, and overlaps no other claim that is
committed or releasing (R51). -/
def Obligations.ClaimsDoNotOverlap : Prop :=
  (∀ (s : State) (c d : Nat) (reserved : Bool), s.claimCheck c reserved ≠ 0 →
    (s.askCommit c reserved).onAt MAP_CLAIMATTR.COMMIT d = s.onAt MAP_CLAIMATTR.COMMIT d) ∧
  ∀ (s : State) (c : Nat) (reserved : Bool), s.claimCheck c reserved = 0 →
    2 ^ 28 ∣ s.claimBase c ∧ 2 ^ 28 ∣ s.claimSize c ∧ s.claimSize c ≠ 0 ∧ s.claimBase c + s.claimSize c ≤ s.dpaCap ∧
    ∀ d, d ≠ c → s.onAt MAP_CLAIMATTR.COMMIT d = true ∨ s.onAt MAP_CLAIMSTAT.RELEASING d = true →
      s.claimBase c + s.claimSize c ≤ s.claimBase d ∨ s.claimBase d + s.claimSize d ≤ s.claimBase c

/-- A line that is stored reads back, with its poison; every byte and every poison mark outside it stays (R225, R262). -/
def Obligations.MemoryReadsBack : Prop :=
  ∀ (s : State) (line : Nat) (l : Line) (poison : Bool),
    (s.storeLine line l poison).storedLine line = l ∧
    ((s.storeLine line l poison).dram.poisoned.contains line = poison) ∧
    (∀ a, a < line * 64 ∨ line * 64 + 64 ≤ a → (s.storeLine line l poison).memByte a = s.memByte a) ∧
    (∀ k, k ≠ line → (s.storeLine line l poison).dram.poisoned.contains k = s.dram.poisoned.contains k) ∧
    (s.storeLine line l poison).regs = s.regs ∧ (s.storeLine line l poison).out = s.out

/-- The counter allocator of a KeyID hands out each value once, in rising order, and leaves the other KeyIDs' allocators as they were
(R300). -/
def Obligations.CounterValuesRise : Prop :=
  ∀ (s : State) (k v : Nat) (t : State), k < 1024 → s.nextCounter k = some (v, t) →
    v = s.rdAt SEC_KEYALLOC.NEXT k ∧ t.rdAt SEC_KEYALLOC.NEXT k = v + 1 ∧
    (∀ j, j < 1024 → j ≠ k → t.rdAt SEC_KEYALLOC.NEXT j = s.rdAt SEC_KEYALLOC.NEXT j) ∧
    ∀ w t', t.nextCounter k = some (w, t') → v < w

/-- A cold reset leaves every register field but RST_LAST and the prior fault vector at its reset value, memory empty and the timestamp
at 0, and keeps the fuses (R513); the queue and the messages already sent are outside the device. -/
def Obligations.ColdResetRestores : Prop :=
  ∀ (s : State) (cause rail source : Nat), cause < 16 → rail < 8 → source < 128 →
    let t := s.coldReset cause rail source
    (∀ (f : Fld) (i : Nat), f.key i ∉ [RST_LAST.CAUSE.key 0, RST_LAST.RAIL.key 0, RST_LAST.SOURCE.key 0, FLT_PRIOR.SRC.key 0,
      FLT_PRIOR.SRC.key 1] → t.rdAt f i = f.resetAt i) ∧
    t.rd RST_LAST.CAUSE = cause ∧ t.rd RST_LAST.RAIL = rail ∧ t.rd RST_LAST.SOURCE = source ∧
    (∀ i, i < 2 → t.rdAt FLT_PRIOR.SRC i = s.rdAt FLT_PRIOR.SRC i % 2 ^ 64) ∧
    t.dram.mem = [] ∧ t.stamp = 0 ∧ t.chip.fuses = s.chip.fuses ∧ t.pending = s.pending ∧ t.out = s.out

/-- An instruction that takes control of balls acts only while every PERSTp_N is asserted, the device and Contrail are disabled and no
DIMM PMIC has been enabled; at any other time it acts as BYPASS (R647). The instruction changes nothing else. -/
def Obligations.BoundaryScan : Prop :=
  (∀ (s : State) (i : JtagOp),
    let t := { s with chip := { s.chip with jtag := i } }
    exec (.jtagInstruction i) s = .next (t.send (.jtag t.jtagActs (if t.jtagActs = .idcode then 0x171603F1 else 0))).settle) ∧
  (∀ s : State, takesBalls s.jtagActs = true → s.chip.perstOff = [] ∧ s.on SYS_CTL.DEV_ENABLE = false ∧
    s.on CON_CTL.LINKEN = false ∧ ∀ c, c < 16 → (s.chan c).dimms = []) ∧
  (∀ s : State, takesBalls s.chip.jtag = true → s.chip.perstOff = [] → s.on SYS_CTL.DEV_ENABLE = false →
    s.on CON_CTL.LINKEN = false → (∀ c, c < 16 → (s.chan c).dimms = []) → s.jtagActs = s.chip.jtag) ∧
  (∀ s : State, takesBalls s.chip.jtag = true → takesBalls s.jtagActs = false → s.jtagActs = .bypass)

/-! ### Where each command completes -/

/-- Host links train, retrain and go down; flit errors, malformed packets and IDE; PERST; function-level reset (R11–R24, R39–R41, R46).
Choices of the model among them: log entries 17, 19. -/
def Obligations.HostPortEvents : Prop :=
  (∀ (s : State) (n rate width : Nat) (flit256 lopt : Bool), (s.link n).state ≠ .l0 → s.mayTrain n →
      s.rd PWR_STAT.STATE ≠ pwrNight →
      exec (.linkUp n rate width flit256 lopt) s = .next ((s.trainedTo n rate width flit256 lopt).settle)) ∧
  (∀ (s : State) (n rate width : Nat) (flit256 lopt : Bool), (s.link n).state ≠ .l0 → s.mayTrain n →
      s.rd PWR_STAT.STATE = pwrNight →
      exec (.linkUp n rate width flit256 lopt) s = .next ({ s with pow := { s.pow with heldLinks := s.pow.heldLinks.add n } })) ∧
  (∀ (s : State) (n : Nat), (s.link n).state = .l0 →
      exec (.linkRetrain n) s = .next (s.setLink n { s.link n with state := .recovery, retrain := true })) ∧
  (∀ (s : State) (n dropped : Nat), s.isUp n → exec (.linkDown n dropped) s = .next ((s.linkDown n downLtssm dropped).settle)) ∧
  (∀ (s : State) (n dropped : Nat), s.isUp n →
      exec (.creditOverflow n dropped) s = .next ((((s.setLink n { s.link n with rasOverflow := true }).raise (srcHostErr n)).linkDown n downCredit dropped).settle)) ∧
  (∀ (s : State) (n dropped : Nat), s.isUp n →
      exec (.linkInternalParity n dropped) s = .next ((((s.setLink n { s.link n with rasInternal := true }).raise (srcHostErr n)).linkDown n downParity dropped).settle)) ∧
  (∀ (s : State) (n : Nat) (rollover : Bool),
      exec (.flitCrcError n rollover) s = .next ((s.setLink n ((s.link n).flitError rollover)).event Ev.flitsReplayed n)) ∧
  (∀ (s : State) (n : Nat),
      exec (.malformedTlp n) s = .next (s.setLink n { s.link n with ioErrors := (s.link n).ioErrors + 1, aerUncorrectable := true })) ∧
  (∀ (s : State) (n : Nat) (k : IdeSel) (m : IdeMsg),
      exec (.ideKm n k m) s = .next ((s.setLink n ((s.link n).setStream k (((s.link n).stream k).take m))).ideStatus n)) ∧
  (∀ (s : State) (n dropped : Nat) (k : IdeSel), s.isUp n →
      exec (.ideIntegrityFailure n k dropped) s = .next (((((s.setLink n ((s.link n).failIde k)).ideStatus n).raise (srcHostErr n)).linkDown n downIde dropped).settle)) ∧
  (∀ (s : State) (port d0 d1 : Nat), s.chip.perstOff.has port →
      exec (.perstAssert port d0 d1) s = .next (((((s.setPerst port false).perstLink (2 * port) d0).perstLink (2 * port + 1) d1).wrAt LNK_PORTCFG.LOPT_ALLOW port 1).settle)) ∧
  (∀ (s : State) (port : Nat), port < 4 →
      exec (.perstDeassert port) s = .next (((s.setPerst port true).startTraining (2 * port)).startTraining (2 * port + 1))) ∧
  (∀ (s : State) (n ld : Nat), exec (.functionLevelReset n ld) s = .next s)

/-- What hosts ask of memory: reads, writes, clean evicts, speculative reads, the deadline of a request, and the HDM decoders that route
  them (R25–R38).
Choices of the model among them: log entries 18 to 21. -/
def Obligations.HostRequests : Prop :=
  (∀ (s : State) (n number tag hpa : Nat) (kind : ReadKind) (f : AccessFind),
      exec (.memRead n number tag hpa kind f) s = .next ((s.decodeSlot (.memRead n number tag hpa kind f) n number tag hpa kind.op 0 ByteMask.full false f).settle)) ∧
  (∀ (s : State) (n number tag hpa : Nat) (shared poison : Bool) (data : Line) (mask : ByteMask) (f : AccessFind),
      exec (.memWrite n number tag hpa shared data mask poison f) s = .next ((s.decodeSlot (.memWrite n number tag hpa shared data mask poison f) n number tag hpa (.wr shared) data mask poison f).settle)) ∧
  (∀ (s : State) (n number hpa : Nat), exec (.memSpecRd n number hpa) s = .next s) ∧
  (∀ (s : State) (n number tag hpa : Nat) (f : AccessFind),
      exec (.memClnEvct n number tag hpa f) s = .next (((s.judgeEvict n number hpa).decodeSlot (.memClnEvct n number tag hpa f) n number tag hpa .evict 0 ByteMask.full false f).settle)) ∧
  (∀ (s : State) (id : Nat) (r : OpenReq), s.req id = some r → r.answered = false →
      exec (.deadlineExpiry id) s = .next ((s.expire id r).settle)) ∧
  (∀ (s : State) (ld k base size dpaBase ways gran : Nat) (hdmDb : Bool) (x : Ld) (d : Decoder), s.lds.find ld = some x →
      k < x.alloc → k < 32 →
      d = { committed := true, base := base, size := size, dpaBase := dpaBase, ways := ways, gran := gran, hdmDb := hdmDb } →
      s.decoderOk ld k d →
      exec (.hdmDecoderCommit ld k base size dpaBase ways gran hdmDb true) s = .next ({ s with decoders := s.decoders.put (decoderKey ld k) d })) ∧
  (∀ (s : State) (ld k base size dpaBase ways gran : Nat) (hdmDb : Bool) (x : Ld) (d : Decoder), s.lds.find ld = some x →
      k < x.alloc → k < 32 →
      d = { committed := true, base := base, size := size, dpaBase := dpaBase, ways := ways, gran := gran, hdmDb := hdmDb } →
      s.decoderOk ld k d = false →
      exec (.hdmDecoderCommit ld k base size dpaBase ways gran hdmDb true) s = .next ({ s with decoders := s.decoders.put (decoderKey ld k) { d with committed := false, errorNotCommitted := true } }))

/-- Claims are committed, released and granted; the map is walked and audited; waits for physical room end (R53–R84).
Choices of the model among them: log entries 22 to 29. -/
def Obligations.ClaimCommands : Prop :=
  (∀ (s u : State) (p : Path) (v c : Nat), s.rdAt MAP_CLAIMSEL.CLAIM (pathCopy p) = c → u = s.storeFields claimAttr c v →
      u.onAt MAP_CLAIMATTR.COMMIT c = false → u.claimsShut = false → u.claimCheck c false = 0 → u.forwards = false →
      exec (.mapClaimCommit p v) s = .next ((u.commitClaim c).settle)) ∧
  (∀ (s u : State) (p : Path) (v c : Nat), s.rdAt MAP_CLAIMSEL.CLAIM (pathCopy p) = c → u = s.storeFields claimAttr c v →
      u.onAt MAP_CLAIMATTR.COMMIT c → u.claimsShut = false → u.slotsOf c = [] → u.forwards = false →
      exec (.mapClaimRelease p v) s = .next ((u.startRelease c).settle)) ∧
  (∀ (s : State) (c : Nat), s.onAt MAP_CLAIMSTAT.RELEASING c → s.releaseBi c = false →
      exec (.claimReleaseEnd c) s = .next ((s.endRelease c).settle)) ∧
  (∀ (s : State) (p : Path) (v c : Nat), s.rdAt MAP_CLAIMSEL.CLAIM (pathCopy p) = c →
      exec (.mapClaimgrantWrite p true v) s = .next ((s.setGrants c (s.rdAt MAP_CLAIMGRANT0.GRANTS c) (v % 2 ^ 64)).settle)) ∧
  (∀ (s : State) (p : Path) (v c : Nat), s.rdAt MAP_CLAIMSEL.CLAIM (pathCopy p) = c →
      exec (.mapClaimgrantWrite p false v) s = .next ((s.setGrants c (v % 2 ^ 64) (s.rdAt MAP_CLAIMGRANT1.GRANTS c)).settle)) ∧
  (∀ (s : State), exec .physicalRoomWaitEnd s = .next s.settle) ∧
  (∀ (s : State) (dpn c : Nat) (f : WalkFind), s.claimOf (dpn * 4096) = some c → s.cached dpn = none →
      exec (.mapWalk dpn f) s = .next ((s.walkMap c dpn f).settle)) ∧
  (∀ (s : State) (flips : List (Nat × Nat)) (dirs : List Nat),
      exec (.auditSweep flips dirs) s = .next ((s.auditNext flips dirs).settle)) ∧
  (∀ (s : State) (c : Nat), exec (.revocationSweepEnd c) s = .next ((s.forgetGrants c).revoking.settle))

/-- The near-store: a buffered line is written back to its frame, an entry of the buffer comes free, and flushes and excursion sweeps start
  and end (R97–R99, R113, R114).
Choices of the model among them: log entries 30, 31, 39. -/
def Obligations.CirrusCommands : Prop :=
  (∀ (s t u : State) (dpaLine mfn : Nat) (fs : Finds) (mismatch : Bool) (w : Writeback) (l : Line) (poison : Bool),
      (s.cir.buffer.find? (fun w => w.dpaLine == dpaLine) = some w) → s.refetching (dpaLine / 64) = false →
      s.targetAway (dpaLine / 64) = false → (s.entry (dpaLine / 64)).loc = .frame mfn →
      s.writeStratus w mfn (fs.line (mfn * 64 + dpaLine % 64)) = some (l, poison, t) →
      u = t.claimEvent Ev.writebacks 0 (s.entry (dpaLine / 64)).claim →
      exec (.cirrusWriteback dpaLine fs mismatch) s = .next (({ u with cir := { u.cir with buffer := dropFirst dpaLine u.cir.buffer } } : State).settle)) ∧
  (∀ (s : State), exec .writebackBufferFree s = .next s.settle) ∧
  (∀ (s : State) (v : Nat), s.on CIR_FLUSH.START = false →
      exec (.cirFlushStart v) s = .next ((s.storeFields [CIR_FLUSH.INVAL, CIR_FLUSH.SCOPE, CIR_FLUSH.CLAIM] 0 v).put CIR_FLUSH.START true)) ∧
  (∀ (s t : State) (fs : Finds) (left : Nat), s.on CIR_FLUSH.START → s.flush s.flushScope (s.on CIR_FLUSH.INVAL) fs = (left, t) →
      exec (.flushEnd fs) s = .next (((t.wr CIR_FLUSH.LEFTHELD left).put CIR_FLUSH.START false).settle)) ∧
  (∀ (s : State), s.on CIR_SWEEP.START = false → exec .cirSweepStart s = .next (s.startSweep false)) ∧
  (∀ (s : State) (x : Sweep) (finds : List (Nat × CirrusFind)), s.cir.sweep = some x →
      exec (.excursionSweepEnd finds) s = .next ((s.endExcursion x finds).settle))

/-- The placement engine: a new policy, epochs, the cold scan, selection, and moves with their copies and switches (R130, R133,
  R135, R138, R139, R141, R142, R144–R148, R150).
Choices of the model among them: log entries 38, 40, 41. -/
def Obligations.PlacementCommands : Prop :=
  (∀ (s : State), s.policyCheck = 0 → exec .plcApply s = .next ((s.wr PLC_APPLY.CHECK 0).applyPolicy.settle)) ∧
  (∀ (s : State), s.clearState → exec .epochBoundary s = .next s.endEpoch.settle) ∧
  (∀ (s : State) (p : Nat), s.on PLC_STATUS.SCANNING → s.on PLC_STATUS.PAUSED = false → s.clearState →
      s.nextPage s.plc.scanAt = some p → exec .coldScan s = .next ((s.scanLeaf p).settle)) ∧
  (∀ (s : State), s.on PLC_STATUS.SCANNING → s.on PLC_STATUS.PAUSED = false → s.clearState → s.nextPage s.plc.scanAt = none →
      exec .coldScan s = .next s.endScan) ∧
  (∀ (s : State), s.plc.selecting → exec .selectionComplete s = .next s.selectMoves.settle) ∧
  (∀ (s : State), s.plc.selecting → s.plc.missed = 0 → exec .selectionWindowExpiry s = .next s.missWindow) ∧
  (∀ (s : State), s.plc.selecting → s.plc.missed ≠ 0 → exec .selectionWindowExpiry s = .next s.missWindow.fallBack) ∧
  (∀ (s : State),
      exec .incompressibleFilterExpiry s = .next ({ s with plc := { s.plc with filter := s.plc.filter.filter fun f => (s.epoch + 2 ^ 32 - f.2) % 2 ^ 32 < 64 } })) ∧
  (∀ (s t : State) (m : Chosen), s.on PLC_STATUS.PAUSED = false → s.plc.moves.length < trackerCount →
      (s.plc.chosen.find? (fun x => x.explicit.isSome == false && s.startable x) = some m) →
      s.rangePageStatus m.dpn m.kind = none → (s.locationChannel (s.entry m.dpn).loc).any s.frozen = false →
      s.beginMove m = some t → exec (.moveStart false) s = .next ((t.dropChosen m).settle)) ∧
  (∀ (s : State) (dpn : Nat) (fs : Finds) (bad : List Nat) (m : Move), s.move dpn = some m → m.switching = false →
      s.on PLC_STATUS.PAUSED = false → s.moveNeedsPipe m = false → (m.kind = .demote → s.canCompress = true) →
      ([m.src, m.dest].any fun l => (s.locationChannel l).any fun c => s.panicHolds masterDrift c) = false →
      exec (.copyPassEnd dpn fs bad) s = .next ((s.endPass m dpn fs bad).settle)) ∧
  (∀ (s : State) (dpn : Nat) (fs : Finds) (bad : List Nat) (m : Move), s.move dpn = some m → m.switching →
      exec (.switchEnd dpn fs bad) s = .next ((s.endSwitch m dpn fs bad).settle)) ∧
  (∀ (s : State) (dpn : Nat) (m : Move), s.move dpn = some m → m.switching →
      exec (.switchCancel dpn) s = .next ((s.cancelSwitch dpn m).settle))

/-- A block's decode and its second attempt, a pipe that fails, and the rebuilding of a heap directory entry (R162, R172, R178, R179,
  R181).
Choices of the model among them: log entries 42. -/
def Obligations.CodecCommands : Prop :=
  (∀ (s t : State) (job : Nat) (fs : Finds) (j : DecodeJob) (lines : List Line), s.nmb.jobs.find job = some j →
      s.blockReadable j.dpn → j.failed = none → s.pipeReady j.dpn j.block →
      s.decodeBlock j.dpn j.block fs none = (.ok lines, t) →
      exec (.nimbusDecode job fs none) s = .next (((t.dropJob job).deliverBlock j.dpn j.block lines).settle)) ∧
  (∀ (s t : State) (job k : Nat) (fs : Finds) (fault : Option Nat) (j : DecodeJob), s.nmb.jobs.find job = some j →
      s.blockReadable j.dpn → j.failed = none → s.pipeReady j.dpn j.block →
      s.decodeBlock j.dpn j.block fs fault = (.error k, t) → k ≠ DecodeFault.media.code →
      exec (.nimbusDecode job fs fault) s = .next (((t.failJob job j k).event Ev.decodeRetries 0).settle)) ∧
  (∀ (s t : State) (job first : Nat) (fs : Finds) (j : DecodeJob) (lines : List Line), s.nmb.jobs.find job = some j →
      j.failed = some first → s.blockReadable j.dpn → s.pipeReady j.dpn j.block →
      s.decodeBlock j.dpn j.block fs none = (.ok lines, t) →
      exec (.decodeRetry job fs none) s = .next ((((((t.inc NMB_ERRCNT.RETRY).nmbLog j.dpn j.block first ((s.entry j.dpn).loc.blockCount j.block) true).raise srcNmbRetry).dropJob
    job).deliverBlock j.dpn j.block lines).settle)) ∧
  (∀ (s t : State) (job first k : Nat) (fs : Finds) (fault : Option Nat) (j : DecodeJob), s.nmb.jobs.find job = some j →
      j.failed = some first → s.blockReadable j.dpn → s.pipeReady j.dpn j.block →
      s.decodeBlock j.dpn j.block fs fault = (.error k, t) →
      exec (.decodeRetry job fs fault) s = .next (((t.dropJob job).failBlock j.dpn j.block k).settle)) ∧
  (∀ (s : State) (compressor : Bool) (pipe : Nat),
      exec (.nmbPipeFail compressor pipe none) s = .next (((s.dropPipe compressor pipe).raise srcPipeFail).settle)) ∧
  (∀ (s : State) (k : Nat) (g : Segment), s.nmb.segments.find k = some g →
      exec (.heapDirectoryRebuild k true) s = .next (s.setSegment k { g with rebuilding := true })) ∧
  (∀ (s : State) (k : Nat) (g : Segment), s.nmb.segments.find k = some g → g.rebuilding →
      exec (.heapDirectoryRebuild k false) s = .next (((s.setSegment k (s.rebuilt k g)).heapStatus.emptySegment k (s.rebuilt k g)).settle))

/-- Snapshot slots are armed, read by their cursor and captured; streams are delivered and fail; slots abort and clear their marks;
  imports take records (R187–R190, R193–R197, R200, R202, R209–R212).
Choices of the model among them: log entries 44, 45. -/
def Obligations.SnapshotCommands : Prop :=
  (∀ (s u : State) (p : Path) (v n : Nat), s.rdAt SNP_SLOTSEL.SLOT (pathCopy p) = n →
      u = s.storeFields [SNP_ARM.TARGET, SNP_ARM.CLAIM] n v → SNP_ARM.ARM.set v → u.armCheck n false = 0 →
      exec (.snpArmArm p v) s = .next ((u.startArm n).settle)) ∧
  (∀ (s : State) (n : Nat), s.slotState n = slotArming → exec (.armingComplete n) s = .next ((s.markPages n).settle)) ∧
  (∀ (s : State) (n : Nat) (fs : Finds), s.cursorRuns n → s.cursorPages n = [] →
      exec (.eagerCursorRead n fs) s = .next ((s.endStream n).settle)) ∧
  (∀ (s : State) (n p : Nat) (fs : Finds) (ps : List Nat), s.cursorRuns n → s.cursorPages n = p :: ps →
      exec (.eagerCursorRead n fs) s = .next ((s.cursorAt n p fs).settle)) ∧
  (∀ (s : State), exec .captureTrackerFree s = .next ((s.giveTrackers 64).settle)) ∧
  (∀ (s : State) (n dpn : Nat) (fs : Finds), (n, dpn) ∈ s.snp.tracking → s.slotState n = slotPreserving →
      exec (.captureEnd n dpn fs) s = .next ((s.endCapture n dpn fs).settle)) ∧
  (∀ (s : State) (n dpn : Nat), s.capturing n dpn → s.slotState n = slotPreserving →
      exec (.captureTime n dpn) s = .next ((s.abortSlot n abortTime).settle)) ∧
  (∀ (s : State) (n : Nat) (bs : List Byte) (last : Bool) (b : ExportBuffer) (rest : List ExportBuffer),
      s.nextChunk n = some (bs, last) → (s.slot n).buffers = b :: rest → s.maskUp b.mask ≠ [] →
      exec (.exportDmaComplete n) s = .next ((s.deliverChunk n bs last).settle)) ∧
  (∀ (s : State) (n : Nat) (x : List Byte × Bool), s.nextChunk n = some x →
      exec (.exportDmaError n) s = .next (((s.inc SNP_ERRCNT.DMAERR).failExport n).settle)) ∧
  (∀ (s : State) (n : Nat) (x : List Byte × Bool) (b : ExportBuffer) (rest : List ExportBuffer), s.nextChunk n = some x →
      (s.slot n).buffers = b :: rest → s.maskUp b.mask = [] → exec (.exportLinkTimeout n) s = .next ((s.failExport n).settle)) ∧
  (∀ (s : State) (n : Nat), s.slotState n = slotAborting → exec (.abortMarksCleared n) s = .next ((s.endAbort n).settle)) ∧
  (∀ (s : State) (c : Nat), s.on RST_CTL.WARM = false → s.snp.clearing.has c →
      exec (.snapMarkClearEnd c) s = .next ((s.endMarkClear c).settle)) ∧
  (∀ (s : State) (q i : Nat) (bytes : List Byte) (j : ImportJob), s.importOf q i = some j → s.onAt MAP_CLAIMATTR.COMMIT j.claim →
      s.onAt MAP_CLAIMSTAT.RELEASING j.claim = false → exec (.importRecord q i bytes) s = .next ((s.stepImport j bytes).settle))

/-- The DRAM channels: commit, background initialization, read data, panic, refresh, temperature and power-down, training, CA parity,
  release from a freeze, and sparing (R230–R239, R243–R246, R248).
Choices of the model among them: log entries 31 to 33, 37. -/
def Obligations.ChannelCommands : Prop :=
  (∀ (s : State), s.on DMC_COMMIT.COMMIT = false → s.channelCheck = 0 →
      exec .channelCommit s = .next ((s.wr DMC_COMMIT.CHECK 0).commitChannels.settle)) ∧
  (∀ (s : State), s.on SYS_CTL.DEV_ENABLE = false → s.on DMC_COMMIT.COMMIT →
      exec .channelUncommit s = .next s.uncommitChannels.settle) ∧
  (∀ (s : State), s.dram.init.running → s.panicHolds masterService (s.regionAt s.dram.init.next).1 = false →
      exec .backgroundInitialization s = .next s.initRegion.settle) ∧
  (∀ (s t : State) (id mfn : Nat) (f : MediaFind) (r : OpenReq), s.req id = some r → r.stage = .dram → isRead r.op →
      t = { s with dram := { s.dram with master := r.link } } → t.cirLine r.dpaLine = none → t.buffered r.dpaLine = none →
      (t.entry (r.dpaLine / 64)).loc = .frame mfn → t.listed r.dpaLine = false →
      exec (.dramDataReturn id f) s = .next ((t.dataReturned r mfn f).settle)) ∧
  (∀ (s : State) (c : Nat), (s.chan c).panic = false →
      exec (.panicWaitExpiry c true) s = .next ((((s.setChan c { s.chan c with panicRead := true }).event Ev.panics c).showPanic c true).settle)) ∧
  (∀ (s : State) (c : Nat), (s.chan c).panic = false →
      exec (.panicWaitExpiry c false) s = .next ((((s.setChan c { s.chan c with panicWrite := true }).event Ev.panics c).showPanic c true).settle)) ∧
  (∀ (s : State) (c : Nat),
      exec (.panicEnd c) s = .next (((s.setChan c { s.chan c with panicRead := false, panicWrite := false }).showPanic c false).settle)) ∧
  (∀ (s : State) (c : Nat), (s.chan c).selfRefresh = false → s.populated c → (s.chan c).panic → (s.chan c).refreshDebt < 4 →
      exec (.refresh c) s = .next ((s.setChan c { s.chan c with refreshDebt := (s.chan c).refreshDebt + 1 }).event Ev.postponements c)) ∧
  (∀ (s : State) (c : Nat), (s.chan c).selfRefresh = false → s.populated c → (s.chan c).panic = false →
      s.rdAt DMC_CHCFG.REFMODE c ≠ 2 →
      exec (.refresh c) s = .next ((s.setChan c { s.chan c with refreshDebt := 0, refreshes := (s.chan c).refreshes + (s.chan c).refreshDebt + 1, openRows := [] }).recordCmd
    c cmdRefAb noAddr 0 0 15)) ∧
  (∀ (s : State) (c t0 t1 : Nat), exec (.dimmTemperatureRead c t0 t1) s = .next ((s.takeTemps c t0 t1).settle)) ∧
  (∀ (s : State) (c rank : Nat), s.rd DMC_PWR.PDTIMER ≠ 0 → (s.chan c).selfRefresh = false →
      (s.chan c).poweredDown.has rank = false → rank < s.rdAt DMC_CHSTAT.RANKS c →
      exec (.powerDownEntry c rank) s = .next ((((s.setChan c { s.chan c with poweredDown := (s.chan c).poweredDown.add rank, openRows := (s.chan c).openRows.filter fun (e : Nat × Nat) => e.1 / 64 != rank }).recordCmd
    c cmdPde { noAddr with rank := rank } 0 0 15).event Ev.powerDowns c))) ∧
  (∀ (s : State) (k : Nat),
      exec (.dramPllLock k) s = .next ((s.wr CLK_STAT.DRAM (setBit (s.rd CLK_STAT.DRAM) k true)).advanceStage stageTraining)) ∧
  (∀ (s t : State) (c : Nat) (dimms : List Dimm) (g : Geometry), bit (s.rd CLK_STAT.DRAM) (c / 2) →
      s.onAt DMC_CHSTAT.TRAINED c = false → s.onAt DMC_TRAIN.FAIL c = false → s.rdAt DMC_TRAIN.PHASE c = 0 → dimms ≠ [] →
      bit (s.rd DMC_CFG.EXCLUDE) c = false → t = s.setChan c { s.chan c with dimms := dimms } → t.geometry c = some g →
      exec (.trainingStepEnd c (.spd dimms)) s = .next (((t.putAt DMC_CHSTAT.POP c true).wrAt DMC_CHSTAT.RANKS c g.ranks).wrAt DMC_TRAIN.PHASE c 1)) ∧
  (∀ (s : State) (c retries : Nat), 3 ≤ retries →
      exec (.caParityError c retries) s = .next (((s.addAt DMC_ERRCNT.CAPAR c 3).noteFreeze c causeCAPAR).settle)) ∧
  (∀ (s : State) (c retries : Nat), retries < 3 →
      exec (.caParityError c retries) s = .next ((s.addAt DMC_ERRCNT.CAPAR c retries).settle)) ∧
  (∀ (s : State) (c : Nat), s.frozen c → s.onAt DMC_CHSTAT.RELEASING c = false → s.onAt DMC_CHSTAT.KEPT c →
      (s.putAt DMC_FRZCTL.RELEASE c true).repairBusy c = false →
      ((s.putAt DMC_FRZCTL.RELEASE c true).chan c).selfRefresh = false →
      exec (.dmcFrzctlRelease c) s = .next (((s.putAt DMC_FRZCTL.RELEASE c true).acceptRelease c).settle)) ∧
  (∀ (s : State) (c : Nat) (fs : Finds), s.onAt DMC_CHSTAT.RELEASING c →
      exec (.channelReleaseEnd c fs) s = .next ((s.endChannelRelease c fs).settle)) ∧
  (∀ (s u : State) (c v : Nat), u = s.storeFields [DMC_SPARECTL.RANK] c v → u.rdAt DMC_CHSTAT.SPARESTAT c = spareReady →
      u.rdAt DMC_SPARECTL.RANK c < u.spareRank c → exec (.dmcSparectlStart c v) s = .next (u.askSpareRank c)) ∧
  (∀ (s : State) (c : Nat) (f : Ecc) (g : Geometry), s.geometry c = some g → s.rdAt DMC_CHSTAT.SPARESTAT c = spareCopying →
      s.frozen c = false → s.panicHolds masterService c = false → exec (.sparingCopy c f) s = .next ((s.spareStep c g f).settle))

/-- Patrol scrubs and repairs: started, stopped, one read after another; rows repaired while the channels train and while one is
  frozen (R268–R275, R285).
Choices of the model among them: log entries 34 to 36. -/
def Obligations.MediaCommands : Prop :=
  (∀ (s : State) (v : Nat), s.on MED_SCRUBCTL.START = false →
      exec (.medScrubctlStart v) s = .next ((s.storeFields [MED_SCRUBCTL.SCOPE, MED_SCRUBCTL.VERIFY, MED_SCRUBCTL.CHANNEL] 0 v).askScrub.settle)) ∧
  (∀ (s : State), s.on MED_SCRUBCTL.START → exec .medScrubctlStop s = .next ((s.stopScrub .registers).settle)) ∧
  (∀ (s : State) (k ues : Nat) (fs : Finds) (x : Scrub), s.med.scrubs.find k = some x → x.logical = false →
      s.panicHolds masterScrub x.channel = false →
      exec (.scrubRead k fs ues) s = .next ((s.scrubStep k x (some x.channel) fs ues).settle)) ∧
  (∀ (s : State), s.med.policyOn → s.on ENG_STAT.HORIZON_UP → s.on MED_SCRUBCTL.START = false →
      exec .scrubPolicyPass s = .next s.policyPass.settle) ∧
  (∀ (s : State) (c : Nat) (ok : Bool) (r : RepairRow) (rs : List RepairRow), s.chip.repairing.has c → s.repairRows c = r :: rs →
      exec (.hpprRowEnd c ok) s = .next ((if ((s.noteRepair c r ok).repairRows c).isEmpty || decide (4 ≤ (s.noteRepair c r ok).chip.repaired.get 0 c) then
      (s.noteRepair c r ok).trainingPassed c
    else s.noteRepair c r ok).settle)) ∧
  (∀ (s u : State) (v : Nat), s.on MED_PPRSTAT.BUSY = false →
      u = s.storeFields [MED_PPRCTL.CHANNEL, MED_PPRCTL.SUBCH, MED_PPRCTL.RANK, MED_PPRCTL.BG, MED_PPRCTL.BANK, MED_PPRCTL.ROW] 0 v →
      u.repairReady u.namedRow.channel → u.rowOk u.namedRow →
      exec (.medPprctlStart v) s = .next ((u.beginRepair u.namedRow).settle)) ∧
  (∀ (s : State) (r : RepairRow) (bad : Bool) (ues mis : List Nat), s.med.pprRow = some r →
      exec (.pprEnd bad ues mis) s = .next ((s.endRepair r bad ues mis).settle))

/-- The veil key rotates; seals are enabled, rekeyed, retired and recovered; counters are fetched; faults of the protection unit
  (R288–R319).
Choices of the model among them: log entries 47 to 49. -/
def Obligations.ProtectionCommands : Prop :=
  (∀ (s : State) (v : Nat), SEC_VEILCFG.ROTATE.set v →
      exec (.secVeilcfgRotate v) s = .next ((s.storeFields [SEC_VEILCFG.RATE] 0 v).startRotation.settle)) ∧
  (∀ (s : State) (p : Nat), s.on SEC_VEILSTAT.ROTATING →
      (s.committedPages.find? (fun p => decide (s.sec.sweepAt ≤ p) && s.underOldKey p) = some p) →
      exec .veilSweepPage s = .next (((s.rotatePage p).sweptTo p).settle)) ∧
  (∀ (s : State), s.on SEC_VEILSTAT.ROTATING →
      (s.committedPages.find? (fun p => decide (s.sec.sweepAt ≤ p) && s.underOldKey p) = none) →
      (s.sec.comeBack.find? (fun p => s.underOldKey p && (s.entry p).state != .inFlight && !s.tracked p) = none) →
      exec .veilSweepPage s = .next ((s.endPassOver.wr SEC_VEILSTAT.PCT 100).settle)) ∧
  (∀ (s : State) (fs : Finds), s.on SEC_VEILSTAT.ROTATING → s.sec.swept → s.committedPages.any s.underOldKey = false →
      exec (.rotationEnd fs) s = .next ((s.endRotation fs).settle)) ∧
  (∀ (s : State) (dpn item : Nat) (f : MediaFind) (t : RewriteTracker) (c : Nat),
      (s.sec.trackers.find? (fun t => t.dpn == dpn) = some t) → s.locationChannel (s.entry dpn).loc = some c → s.serving c →
      s.panicHolds masterService c = false → t.done.has item = false → (pageItems (s.entry dpn).loc).contains item →
      exec (.rewriteTrackerItem dpn item f) s = .next ((s.rewriteItem t (s.entry dpn).loc dpn item f).settle)) ∧
  (∀ (s u : State) (dpn : Nat) (finds : List (Nat × EntryFind)) (evicts spoilt : List (Nat × Nat × Nat)),
      u = (s.spoilNodes spoilt).evictNodes evicts → (u.entry dpn).keyid ≠ 0 → u.treeUnreachable dpn = false →
      exec (.counterFetch dpn finds evicts spoilt) s = .next ((u.verifyPath (u.entry dpn).keyid dpn finds (u.missing dpn)).settle)) ∧
  (∀ (s : State) (v : Nat) (c : Nat), SEC_REGIONCTL.ENABLE.set v → SEC_REGIONCTL.CLAIM.of v = c →
      (s.storeFields [SEC_REGIONCTL.CLAIM] 0 v).sealCheck c = 0 →
      (s.storeFields [SEC_REGIONCTL.CLAIM] 0 v).pairState ≠ pairMirrored →
      exec (.secRegionctlEnable v) s = .next (((s.storeFields [SEC_REGIONCTL.CLAIM] 0 v).enableRegion c).settle)) ∧
  (∀ (s : State) (k : Nat), s.onAt SEC_KEYSTAT.REKEY k → s.rdAt SEC_KEYSTAT.STATE k = keyActive → s.sec.rekeyTo.find k = none →
      exec (.rekeySweepPage k) s = .next ((s.startRekey k).settle)) ∧
  (∀ (s t : State) (k new p : Nat) (l : SealLeaf) (ps : List Nat), s.onAt SEC_KEYSTAT.REKEY k →
      s.rdAt SEC_KEYSTAT.STATE k = keyActive → s.sec.rekeyTo.find k = some new → s.rekeyQueue k = p :: ps →
      s.freshLeaf new = some (l, t) → exec (.rekeySweepPage k) s = .next ((t.rekeyPage k new p l).settle)) ∧
  (∀ (s : State) (k new : Nat), s.onAt SEC_KEYSTAT.REKEY k → s.rdAt SEC_KEYSTAT.STATE k = keyActive →
      s.sec.rekeyTo.find k = some new → s.keyPages k = [] → s.rekeyQueue k = [] →
      exec (.rekeySweepPage k) s = .next ((s.endRekey k).settle)) ∧
  (∀ (s : State) (k : Nat) (fs : Finds), s.keyFree k → exec (.keyidRetirement k fs) s = .next ((s.retireKey k fs).settle)) ∧
  (∀ (s : State) (k r : Nat), s.onAt SEC_BREACH.VALID r → s.rdAt SEC_BREACH.PROGRESS r = recoverReinit →
      exec (.breachRecoveryEnd k (some r)) s = .next ((s.endRecovery (s.rdAt SEC_BREACH.KEYID r) (some r) recoverReinit).settle)) ∧
  (∀ (s : State),
      exec .secRngFail s = .next ((({ s with sec := { s.sec with rngFailed := true } } : State).raise srcRngFail).settle)) ∧
  (∀ (s : State) (line : Nat), exec (.secPipePar line true) s = .next (((s.raise srcPipePar).loseStored line).settle)) ∧
  (∀ (s : State) (line : Nat), exec (.secPipePar line false) s = .next ((s.raise srcPipePar).settle))

/-- Answers to back-invalidates, their timer, the grant hold, background evictions, fences and peaks (R327, R328, R331, R333–R336,
  R345).
Choices of the model among them: log entries 21, 50. -/
def Obligations.HaloCommands : Prop :=
  (∀ (s : State) (link ld line : Nat) (shared : Bool) (t : BackInv), s.awaited link ld line = some t →
      exec (.birsp link ld line shared) s = .next (((if shared && t.inv then s.halProtocol else s).answerBi t link ld shared).revoking.settle)) ∧
  (∀ (s : State) (link ld line : Nat) (t : BackInv), s.awaited link ld line = some t →
      (s.event Ev.biConflicts link).reqs.find? (fun r => r.link == link && r.ld == ld && r.dpaLine == line && r.homed && !r.answered) = none →
      exec (.biconflict link ld line) s = .next (((s.event Ev.biConflicts link).send (.biConflictAck link ld line)).settle)) ∧
  (∀ (s : State) (link ld line : Nat) (t : BackInv) (r : OpenReq), s.awaited link ld line = some t →
      (s.event Ev.biConflicts link).reqs.find? (fun r => r.link == link && r.ld == ld && r.dpaLine == line && r.homed && !r.answered) = some r →
      exec (.biconflict link ld line) s = .next (((s.event Ev.biConflicts link).holdAck r.id link ld line).settle)) ∧
  (∀ (s : State) (line : Nat) (t : BackInv), (s.hal.trackers.find? (fun t => t.line == line) = some t) →
      exec (.tBiExpiry line) s = .next (((s.cutOff t ((List.range 8).filter fun n => t.waits.any fun w => w.1 == n) toTimer).revoking).settle)) ∧
  (∀ (s : State) (line : Nat), exec (.grantHoldEnd line) s = .next ((s.advanceLine line true 512).haloStatus.settle)) ∧
  (∀ (s t : State) (set k : Nat) (e : DirEntry), (s.freeDirWays set).length < s.rd HAL_TIMING.FREEWAYS → s.trackerFree →
      s.dirVictim set = some k → s.hal.dir.find k = some e → s.waitsFor e.line = [] → s.evictDir k .background 0 = some t →
      exec (.backgroundEviction set) s = .next t.haloStatus.settle) ∧
  (∀ (s : State) (mask : Nat), exec (.halFence mask) s = .next ((s.fenceLinks mask).settle)) ∧
  (∀ (s : State) (mask : Nat), exec (.halUnfence mask) s = .next ((s.unfenceLinks mask).settle)) ∧
  (∀ (s : State) (n : Nat), bit (s.rd HAL_HOSTSTAT.SWEEP) n → exec (.fenceSweepEnd n) s = .next ((s.endFenceSweep n).settle)) ∧
  (∀ (s : State), exec .halPeakClear s = .next s.clearPeaks)

/-- Slices are enabled, removed and reset; doorbell pages assigned and freed; queues enabled, disabled and resized; doorbells
  rung; queues in error (R348, R350, R352–R355, R373–R377).
Choices of the model among them: log entries 51. -/
def Obligations.SlicesAndQueues : Prop :=
  (∀ (s : State) (p : Path) (n : Nat), s.rdAt SLC_SEL.SLICE (pathCopy p) = n → s.onAt SLC_CTL.ENABLE n = false →
      s.sliceCheck n = 0 → exec (.slcEnable p) s = .next (((s.wrAt SLC_CTL.CHECK n 0).putAt SLC_CTL.ENABLE n true).settle)) ∧
  (∀ (s : State) (p : Path) (n : Nat), s.rdAt SLC_SEL.SLICE (pathCopy p) = n → s.onAt SLC_CTL.ENABLE n →
      s.onAt SLC_STAT.RESETTING n = false → exec (.slcReset p) s = .next ((s.startSliceReset n false).settle)) ∧
  (∀ (s : State) (n : Nat), s.onAt SLC_CTL.RESET n → s.que.removing.has n = false →
      exec (.sliceResetEnd n) s = .next ((s.endSliceReset n).settle)) ∧
  (∀ (s : State) (p : Path) (n : Nat), s.rdAt SLC_SEL.SLICE (pathCopy p) = n → n ≠ 0 → s.onAt SLC_CTL.ENABLE n →
      s.sliceInUse n = false → exec (.slcRemove p) s = .next ((s.removeSlice n).settle)) ∧
  (∀ (s : State) (n : Nat), s.que.removing.has n → exec (.sliceRemoveEnd n) s = .next ((s.endRemoval n).settle)) ∧
  (∀ (s u : State) (p : Path) (v page : Nat), s.rdAt SLC_DBSEL.PAGE (pathCopy p) = page →
      u = s.storeFields [SLC_DBOWN.SLICE] page v → u.assignCheck page = 0 →
      exec (.dbAssign p v) s = .next ((((u.wrAt SLC_DBOWN.CHECK page 0).putAt SLC_DBOWN.OWNED page true).wrAt SLC_DBOWN.OWNER page (u.rdAt SLC_DBOWN.SLICE page)).settle)) ∧
  (∀ (s u : State) (p : Path) (v page : Nat), s.rdAt SLC_DBSEL.PAGE (pathCopy p) = page →
      u = s.storeFields [SLC_DBOWN.SLICE] page v → u.pageBusy page = false →
      exec (.dbFree p v) s = .next ((((u.wrAt SLC_DBOWN.CHECK page 0).putAt SLC_DBOWN.OWNED page false).wrAt SLC_DBOWN.OWNER page 0).settle)) ∧
  (∀ (s : State) (p : Path) (q : Nat) (bme msix : Bool), s.rdAt QUE_SEL.QID (pathCopy p) = q → s.onAt QUE_CTL.ENABLE q = false →
      s.rdAt QUE_STAT.STATE q = queDisabled → s.enableCheck q bme msix = 0 →
      exec (.queCtlEnable p bme msix) s = .next (((s.wrAt QUE_CTL.CHECK q 0).openQueue q).settle)) ∧
  (∀ (s : State) (p : Path) (q : Nat), s.rdAt QUE_SEL.QID (pathCopy p) = q →
      s.rdAt QUE_STAT.STATE q = queEnabled ∨ s.rdAt QUE_STAT.STATE q = queError →
      exec (.queCtlDisable p) s = .next ((s.stopQueue q).settle)) ∧
  (∀ (s : State) (q : Nat), s.rdAt QUE_STAT.STATE q = queStopping → (s.que.descs.all (fun d => d.queue != q) = true) →
      exec (.queueDisabled q) s = .next ((s.setQueue q queDisabled).settle)) ∧
  (∀ (s : State) (p : Path) (q : Nat) (bme msix : Bool), s.rdAt QUE_SEL.QID (pathCopy p) = q → s.resizeCheck q bme msix = 0 →
      exec (.queCtlResize p bme msix) s = .next (((s.wrAt QUE_CTL.CHECK q 0).putAt QUE_CTL.RESIZE q true).settle)) ∧
  (∀ (s : State) (q : Nat), s.onAt QUE_CTL.RESIZE q → s.rdAt QUE_STAT.STATE q = queEnabled → s.drained q →
      exec (.resizeSwitch q) s = .next ((s.switchRings q).settle)) ∧
  (∀ (s : State) (q : Nat),
      exec (.queParity q) s = .next ((if s.rdAt QUE_STAT.STATE q = queDisabled then s.raise srcQueParity else s.queueError q 5).settle)) ∧
  (∀ (s : State) (link q v : Nat), exec (.sqTail link q v none) s = .next ((s.doorbell link q fun s => s.takeTail q v).settle)) ∧
  (∀ (s : State) (link q v : Nat), exec (.cqHead link q v) s = .next ((s.doorbell link q fun s => s.takeHeadIndex q v).settle)) ∧
  (∀ (s : State) (q : Nat) (ws : List Nat), s.mayFetch q → exec (.descriptorFetch q (some ws)) s = .next ((s.takeDesc q ws).settle)) ∧
  (∀ (s : State) (q : Nat), s.mayFetch q → exec (.descriptorFetch q none) s = .next ((s.queueError q 3).settle)) ∧
  (∀ (s : State) (q : Nat) (d : Desc), s.nextDone q = some d → d.gen = (s.removeDesc d).rdAt SLC_STAT.GEN d.slice →
      ¬((s.removeDesc d).rdAt QUE_STAT.STATE q = queError ∧ (s.removeDesc d).rdAt QUE_STAT.ERRCAUSE q = 4) →
      exec (.descriptorCompletion q) s = .next (((s.removeDesc d).writeEntry q d).settle)) ∧
  (∀ (s : State) (q : Nat) (d : Desc), s.nextDone q = some d → d.gen ≠ (s.removeDesc d).rdAt SLC_STAT.GEN d.slice →
      exec (.descriptorCompletion q) s = .next (((s.removeDesc d).lateDrop d).settle)) ∧
  (∀ (s : State) (q : Nat), s.rdAt QUE_STAT.STATE q ≠ queDisabled → exec (.cmplDma q) s = .next ((s.queueError q 4).settle))

/-- A descriptor that runs does the next unit of its opcode's work (R136, R137, R191, R199, R211, R212, R358, R362, R364–R369).
Choices of the model among them: log entries 28, 44, 45. -/
def Obligations.Descriptors : Prop :=
  (∀ (s : State) (q i : Nat) (d : Desc), s.runs q i 0x00 d → exec (.nop q i) s = .next ((s.finishDesc q i stOk 0).settle)) ∧
  (∀ (s : State) (q i : Nat) (d : Desc) (fs : Finds), s.runs q i 0x01 d →
      exec (.copy q i fs) s = .next ((s.copyUnit q i d fs).settle)) ∧
  (∀ (s : State) (q i : Nat) (d : Desc), s.runs q i 0x02 d → exec (.fill q i) s = .next ((s.fillUnit q i d).settle)) ∧
  (∀ (s : State) (q i : Nat) (d : Desc), s.runs q i 0x03 d → exec (.zero q i) s = .next ((s.zeroUnit q i d).settle)) ∧
  (∀ (s : State) (q i : Nat) (d : Desc) (fs : Finds), s.runs q i 0x04 d →
      exec (.compare q i fs) s = .next ((s.compareUnit q i d fs).settle)) ∧
  (∀ (s : State) (q i : Nat) (d : Desc), s.runs q i 0x08 d → exec (.demoteRange q i) s = .next ((s.rangeUnit d .demote).settle)) ∧
  (∀ (s : State) (q i : Nat) (d : Desc), s.runs q i 0x09 d → exec (.promoteRange q i) s = .next ((s.rangeUnit d .promote).settle)) ∧
  (∀ (s : State) (q i : Nat) (d : Desc), s.runs q i 0x0A d → exec (.hintHot q i) s = .next ((s.hintUnit d hintHot).settle)) ∧
  (∀ (s : State) (q i : Nat) (d : Desc), s.runs q i 0x0B d → exec (.hintCold q i) s = .next ((s.hintUnit d hintCold).settle)) ∧
  (∀ (s : State) (q i : Nat) (d : Desc) (fs : Finds), s.runs q i 0x0C d →
      exec (.pin q i fs) s = .next ((s.pinUnit q i d fs).settle)) ∧
  (∀ (s : State) (q i : Nat) (d : Desc), s.runs q i 0x0D d → exec (.unpin q i) s = .next ((s.unpinUnit q i d).settle)) ∧
  (∀ (s : State) (q i : Nat) (d : Desc) (fs : Finds), s.runs q i 0x0E d →
      exec (.flush q i fs) s = .next ((s.flushUnit q i d fs).settle)) ∧
  (∀ (s : State) (q i : Nat) (d : Desc), s.runs q i 0x10 d → exec (.scrubRange q i) s = .next ((s.scrubUnit q i d).settle)) ∧
  (∀ (s : State) (q i : Nat) (d : Desc), s.runs q i 0x18 d → exec (.snapCut q i) s = .next ((s.cutDesc q i d).settle)) ∧
  (∀ (s : State) (q i : Nat) (d : Desc), s.runs q i 0x19 d → exec (.snapExport q i) s = .next ((s.exportDesc q i d).settle)) ∧
  (∀ (s : State) (q i : Nat) (d : Desc), s.runs q i 0x1A d → exec (.snapRelease q i) s = .next ((s.releaseDesc q i d).settle)) ∧
  (∀ (s : State) (q i : Nat) (d : Desc) (header : List Byte), s.runs q i 0x1B d →
      exec (.importStream q i header) s = .next ((s.importDesc q i d header).settle)) ∧
  (∀ (s : State) (q i : Nat) (d : Desc), s.runs q i 0x1F d →
      exec (.fence q i) s = .next ((if d.waits.isEmpty then s.finishDesc q i stOk 0 else s).settle))

/-- The window boundary, the ramp of priorities, and a new profile (R387, R388, R390, R392, R396).
Choices of the model among them: log entries 46. -/
def Obligations.RegulatorCommands : Prop :=
  (∀ (s : State), exec .tokenWindow s = .next s.nextWindow.decodeWaiting.settle) ∧
  (∀ (s : State),
      exec .priorityRecompute s = .next ((List.range 8).foldl (fun s m => s.showOldest m) { s with reqs := s.reqs.map s.aged })) ∧
  (∀ (s : State), s.profileCheck = 0 →
      exec .qosProfileEnable s = .next ((({ (s.wr QOS_PROFILE.CHECK 0) with qos := { s.qos with applying := true } } : State).put QOS_PROFILE.ENABLE true).settle))

/-- Contrail is switched on and off, trained and retrained; its bundles and lanes are dropped, added and swapped; codewords and timers
  (R406–R410, R414, R418–R421, R423, R424, R426–R428, R430).
Choices of the model among them: log entries 53. -/
def Obligations.ContrailLink : Prop :=
  (∀ (s : State), s.on CON_CTL.LINKEN = false → exec .conCtlLinken s = .next ((s.put CON_CTL.LINKEN true).startLink.settle)) ∧
  (∀ (s : State), s.on CON_CTL.LINKEN →
      exec .conCtlLinkenOff s = .next (((s.put CON_CTL.LINKEN false).conDropTo conOff downLinken).settle)) ∧
  (∀ (s : State), s.linkUp → exec .conCtlRetrain s = .next s.conRetrainNow.settle) ∧
  (∀ (s : State), s.rd CON_STAT.STATE ≠ conOff → s.rd CON_STAT.STATE ≠ conDown →
      exec .conCtlDown s = .next ((s.conDropTo conDown downSoftware).settle)) ∧
  (∀ (s : State) (mask : Nat), s.linkUp → exec (.conCtlReadd mask) s = .next ((s.askReadd mask).settle)) ∧
  (∀ (s : State) (b : Nat), s.linkUp → s.con.readding.has b → exec (.bundleReaddEnd b) s = .next ((s.addBundle b).settle)) ∧
  (∀ (s : State), s.rd CON_STAT.STATE = conDown → s.on CON_CTL.LINKEN → s.rd PWR_STAT.STATE < 2 →
      exec .trainingRetry s = .next s.startLink.settle) ∧
  (∀ (s : State) (t : ConStep) (rx tx : List Nat), s.rd CON_STAT.STATE = conTraining ∨ s.rd CON_STAT.STATE = conRetrain →
      s.con.trainStep = 2 →
      exec (.contrailTrainingStep (.marker rx tx)) s = .next ((({ s with con := { s.con with trainStep := 3 } } : State).keepBundles (keptBundles rx (s.rd CON_STAT.RXSPARE))
    (keptBundles tx (s.rd CON_STAT.TXSPARE))).settle)) ∧
  (∀ (s : State) (h : RxHead), s.rd CON_STAT.STATE = conTraining → s.con.trainStep = 5 →
      exec (.contrailTrainingStep (.init h)) s = .next ((({ s with con := { s.con with trainStep := 6 } } : State).takeInit h false).settle)) ∧
  (∀ (s : State) (h : RxHead), s.rd CON_STAT.STATE = conRetrain → s.con.trainStep = 5 →
      exec (.contrailTrainingStep (.init h)) s = .next ((({ s with con := { s.con with trainStep := 6 } } : State).takeInit h true).settle)) ∧
  (∀ (s : State) (b n : Nat) (x : Codeword), s.linkUp → x.corrected = some n →
      exec (.codeword b x) s = .next ((x.bad.foldl State.badPacket (((s.addAt CON_FECCORR.CORRECTED 0 n).occur Ev.conCorrected b n none).codewordHead b x)).settle)) ∧
  (∀ (s : State) (b : Nat) (x : Codeword), s.linkUp → x.corrected = none →
      exec (.codeword b x) s = .next (((s.inc CON_ERRCNT2.UNCORRCW).event Ev.conUncorrectable 0).settle)) ∧
  (∀ (s : State), s.linkUp → s.con.unacked ≠ [] → exec .replayTimeout s = .next s.replay.settle) ∧
  (∀ (s : State), s.rd CON_STAT.STATE = conRetrain → exec .retrainTimeout s = .next s.retrainFails.settle) ∧
  (∀ (s : State), s.rd CON_STAT.STATE = conKeying →
      exec .keyingTimeout s = .next (((s.conDropTo conDown downAuth).raise srcConAuth).settle)) ∧
  (∀ (s : State), s.linkUp → 0 < s.con.accepted → exec .ackTimer s = .next ((s.sendAck false).settle)) ∧
  (∀ (s : State), exec .mwPacketClose s = .next s.closeMW.settle) ∧
  (∀ (s : State), s.linkUp → s.heartGood →
      exec .hbSend s = .next ((s.sendPlain (.hb s.stamp s.pairState (s.rd PAR_EPOCH.CUR))).settle)) ∧
  (∀ (s : State), s.linkUp → exec .conHbLost s = .next (((s.put CON_STAT.HBOK false).raise srcConHbLost).settle)) ∧
  (∀ (s : State) (b lane : Nat) (locked : Bool), s.linkUp → bit s.con.rxMap b → s.spareFree b locked →
      exec (.laneSwapRequest b lane locked) s = .next ((s.askSwap b lane).settle)) ∧
  (∀ (s : State) (b lane : Nat) (locked : Bool), s.linkUp → bit s.con.rxMap b → s.spareFree b locked = false →
      exec (.laneLockLoss b lane locked) s = .next ((s.askDrop b).settle)) ∧
  (∀ (s : State) (b lane : Nat), s.linkUp → s.con.swapAsked.find b = some lane →
      exec (.swapRequestRepeat b) s = .next ((s.sendPlain (.lane b lane 0)).settle)) ∧
  (∀ (s : State) (b : Nat), s.linkUp → bit s.con.rxMap b → exec (.bundleDropRequest b) s = .next ((s.askDrop b).settle))

/-- Packets that Contrail receives, other than CTRL messages of the pair, and the renewal of its keys (R412–R415, R418, R423–R425, R427,
  R428, R452, R453).
Choices of the model among them: log entries 52, 54. -/
def Obligations.ContrailPackets : Prop :=
  (∀ (s t : State) (h : RxHead) (jseq : Nat) (lines : List MirrorLine),
      s.acceptSeq h .mw (Packet.mw jseq lines).credits = (true, t) →
      exec (.mw h jseq lines) s = .next ((t.takeMirrored jseq lines).settle)) ∧
  (∀ (s t : State) (h : RxHead) (lines : List MirrorLine), s.acceptSeq h .rs (Packet.rsw lines).credits = (true, t) →
      exec (.rsw h lines) s = .next ((lines.foldl State.resyncLine (t.takeUnits masterResync lines.length)).settle)) ∧
  (∀ (s t : State) (h : RxHead) (n offset : Nat) (bytes : List Byte),
      s.acceptSeq h .rs (Packet.stream n offset bytes).credits = (true, t) → (t.slot n).receive → t.slotState n = slotDraining →
      offset ≤ (t.slot n).stream.length →
      exec (.stream h n offset bytes) s = .next ((t.takeStream n (t.slot n).stream.length offset bytes).settle)) ∧
  (∀ (s t : State) (h : RxHead) (reply : Bool), s.rd CON_STAT.STATE = conKeying →
      s.acceptSeq h .ct (Packet.keyx).credits = (true, t) →
      exec (.keyx h reply true) s = .next (((if reply then t.sendSeq .keyx else t).conUpNow false).settle)) ∧
  (∀ (s : State) (h : RxHead), s.linkUp → exec (.ack h) s = .next ((s.takeHead h).settle)) ∧
  (∀ (s : State) (h : RxHead) (ts peer epoch : Nat), s.linkUp →
      exec (.hb h ts peer epoch) s = .next ((s.takeHb h peer epoch).settle)) ∧
  (∀ (s : State) (h : RxHead) (b lane : Nat), s.linkUp → bit ((s.takeHead h).rd CON_STAT.BUNDLES) b →
      (s.takeHead h).rd CON_STAT.BUNDLES ≠ 2 ^ b → exec (.lane h b lane true) s = .next (((s.takeHead h).dropTxBundle b).settle)) ∧
  (∀ (s : State) (h : RxHead) (b lane : Nat), s.linkUp → bit ((s.takeHead h).rd CON_STAT.BUNDLES) b →
      spareOf ((s.takeHead h).rd CON_STAT.TXSPARE) b = 0xF →
      exec (.lane h b lane false) s = .next (((s.takeHead h).useSpare b lane).settle)) ∧
  (∀ (s : State) (h : RxHead) (bytes : Nat),
      exec (.reservedCtrlMsg h bytes) s = .next ((s.acceptSeq h .ct (ceilDiv (36 + bytes) 64)).2.settle)) ∧
  (∀ (s t : State) (h : RxHead) (phase dir : Nat), s.acceptSeq h .ct (Packet.ctrl (.keyRenew phase dir)).credits = (true, t) →
      exec (.keyrenew h phase dir) s = .next ((t.renewRx phase dir).settle)) ∧
  (∀ (s t : State) (h : RxHead) (phase dir : Nat), s.acceptSeq h .ct (Packet.ctrl (.keyRenewAck phase dir)).credits = (true, t) →
      t.con.renewing → phase = 1 - t.rd CON_STAT.KEYPHASE → exec (.keyrenewack h phase dir) s = .next ((t.switchKey phase).settle)) ∧
  (∀ (s : State), s.linkUp → s.con.renewing = false → 2 ^ 32 ≤ s.con.txCount → exec .keyRenewal s = .next s.askRenewal.settle)

/-- The pair manager's controls and timers (R201, R413, R439, R440, R449–R452, R456–R458, R462).
Choices of the model among them: log entries 55, 57, 58. -/
def Obligations.PairManager : Prop :=
  (∀ (s : State) (p : PeerParams), s.pairCheck none = 0xC1 → s.linkUp → s.sendParams.freshPeer = some p →
      exec .parCtlEnable s = .next ((s.sendParams.runPairCheck (some p)).settle)) ∧
  (∀ (s : State), s.pairState = pairTakenOver →
      exec .parCtlLeave s = .next (((s.clearPair.pairEnter pairAlone).put PAR_CTL.ENABLE false).settle)) ∧
  (∀ (s : State), s.pair.enabling → exec .paramsTimeout s = .next ((s.runPairCheck none).settle)) ∧
  (∀ (s : State) (force : Bool), (s.put PAR_CTL.FORCE force).takeoverCheck = 0 →
      exec (.parCtlTakeover force) s = .next ((s.put PAR_CTL.FORCE force).takenOver.settle)) ∧
  (∀ (s : State), s.givebackCheck = 0 → exec .parCtlGiveback s = .next s.givenBack.settle) ∧
  (∀ (s : State), s.pairState ≠ pairAlone → s.pairState ≠ pairFenced → exec .parCtlFence s = .next s.fenceNow.settle) ∧
  (∀ (s : State), s.pairState = pairFenced → exec .parCtlDiscard s = .next s.discardAll.settle) ∧
  (∀ (s u : State), s.pair.discarding → s.committed = [] → s.releasing = [] →
      u = ({ s with pair := { s.pair with discarding := false } } : State).endDiscards →
      exec .discardEnd s = .next ((if u.pairState = pairFenced then u.standAlone else u).settle)) ∧
  (∀ (s : State), s.on PAR_STAT.UNRESP → s.linkUp → s.pairState = pairMirrored ∨ s.pairState = pairResync →
      exec .ptimeoutExpiry s = .next s.exposeNow.settle) ∧
  (∀ (s : State), s.on PAR_STAT.UNRESP → s.linkUp = false →
      s.abortPartnerSlots.pairState = pairMirrored ∨ s.abortPartnerSlots.pairState = pairResync →
      exec .ptimeoutExpiry s = .next s.abortPartnerSlots.exposeNow.settle) ∧
  (∀ (s : State), s.pair.journal ≠ [] →
      exec .mirackStallTimeout s = .next (({ s with pair := { s.pair with stalled := true } } : State).settle)) ∧
  (∀ (s : State) (fs : Finds) (k : Nat), (s.pair.outbits.find? (fun k => !s.pair.sent.has k) = some k) → s.sendsStripes →
      s.stripePanics k = false → exec (.resyncStripe fs) s = .next ((s.sendStripe k fs).settle)) ∧
  (∀ (s : State), s.linkUp → s.pairState ≠ pairAlone →
      exec .pstatSend s = .next ((s.ctrl (.pstat s.pair.outbits.length s.pair.journal.length (s.rd PAR_EPOCH.CUR))).settle)) ∧
  (∀ (s : State) (n : Nat), (s.slot n).waitPartner → exec (.rxopenTimeout n) s = .next ((s.armAnswer n none).settle))

/-- CTRL messages of mirroring, joining, homes and claim operations, in sequence, on the member that receives them (R412, R413,
  R440–R444, R447, R451–R454, R458, R460).
Choices of the model among them: log entries 55, 57 to 59. -/
def Obligations.PairMessages : Prop :=
  (∀ (s u : State) (h : RxHead) (jseq : Nat), s.acceptSeq h .ct (Packet.ctrl (.mirack jseq)).credits = (true, u) →
      exec (.mirack h jseq) s = .next ((((u.ackJournal jseq).2.unstall.completeWrites (u.ackJournal jseq).1 outMirrored).releaseFetches).settle)) ∧
  (∀ (s u : State) (h : RxHead) (k : Nat), s.acceptSeq h .ct (Packet.ctrl (.stripeDone k)).credits = (true, u) →
      exec (.stripeDone h k) s = .next ((u.ctrl (.stripeAck k)).settle)) ∧
  (∀ (s u : State) (h : RxHead) (k : Nat), s.acceptSeq h .ct (Packet.ctrl (.stripeAck k)).credits = (true, u) →
      u.pair.sent.has k → exec (.stripeAck h k) s = .next (((u.clearStripe k).joinEnd.resyncEnd).settle)) ∧
  (∀ (s u : State) (h : RxHead) (dpn n : Nat), s.acceptSeq h .ct (Packet.ctrl (.unback dpn n)).credits = (true, u) →
      exec (.unback h dpn n) s = .next ((u.unbackPages dpn n).settle)) ∧
  (∀ (s u : State) (h : RxHead) (line : Nat), s.acceptSeq h .ct (Packet.ctrl (.fetch line)).credits = (true, u) →
      u.pairState ≠ pairFenced →
      exec (.fetch h line) s = .next ((u.queuePacket (.rsw [⟨line, (u.peek line).1, ByteMask.full, (u.peek line).2⟩])).settle)) ∧
  (∀ (s u : State) (h : RxHead) (outbits journal epoch : Nat),
      s.acceptSeq h .ct (Packet.ctrl (.pstat outbits journal epoch)).credits = (true, u) →
      exec (.pstat h outbits journal epoch) s = .next ((((u.countPeer outbits journal).meetEpoch epoch none).resyncEnd).settle)) ∧
  (∀ (s u : State) (h : RxHead) (p : PeerParams), s.acceptSeq h .ct (Packet.ctrl (.params p)).credits = (true, u) →
      exec (.params h p) s = .next ((u.takeParams p).settle)) ∧
  (∀ (s u : State) (h : RxHead) (piece : Nat) (owners : Bool) (slices : List Nat),
      s.acceptSeq h .ct (Packet.ctrl (.sliceMap piece owners slices)).credits = (true, u) →
      exec (.slicemap h piece owners slices) s = .next (((u.takePiece piece owners slices).peerArrived).settle)) ∧
  (∀ (s u : State) (h : RxHead) (epoch : Nat), s.acceptSeq h .ct (Packet.ctrl (.giveback epoch)).credits = (true, u) →
      u.pairState = pairMirrored →
      exec (.giveback h epoch) s = .next (((u.wr PAR_EPOCH.CUR epoch).wr PAR_STAT.HOME u.naturalHome).settle)) ∧
  (∀ (s u : State) (h : RxHead) (c base size attr : Nat),
      s.acceptSeq h .ct (Packet.ctrl (.claimDef c base size attr)).credits = (true, u) → u.pairState = pairMirrored →
      u.pair.fwd = [] → exec (.claimdef h c base size attr) s = .next ((u.answerClaimOp ⟨c, false, base, size, attr⟩).settle)) ∧
  (∀ (s u : State) (h : RxHead) (c : Nat), s.acceptSeq h .ct (Packet.ctrl (.claimRel c)).credits = (true, u) →
      u.pairState = pairMirrored → u.pair.fwd = [] →
      exec (.claimrel h c) s = .next ((u.answerClaimOp { claim := c, rel := true }).settle)) ∧
  (∀ (s u : State) (h : RxHead) (op code : Nat) (f : Forward),
      s.acceptSeq h .ct (Packet.ctrl (.result op code)).credits = (true, u) →
      (u.pair.fwd.find? (fun f => f.claim == op) = some f) →
      exec (.result h op code) s = .next (((u.endForward f code).runDeferred).settle))

/-- CTRL messages of snapshot streams, seals and export keys, in sequence, on the member that receives them (R201, R208, R307, R311,
  R413).
Choices of the model among them: log entries 45, 56. -/
def Obligations.PairSnapshotAndSealMessages : Prop :=
  (∀ (s u : State) (h : RxHead) (op slot slice size claim sid : Nat),
      s.acceptSeq h .ct (Packet.ctrl (.rxOpen op slot slice size claim sid)).credits = (true, u) →
      exec (.rxopen h op slot slice size claim sid) s = .next (((u.openReceive op slot slice size claim sid).2.2.ctrl (.rxResult op (u.openReceive op slot slice size claim sid).1
    (u.openReceive op slot slice size claim sid).2.1)).settle)) ∧
  (∀ (s u : State) (h : RxHead) (op slot n : Nat), s.acceptSeq h .ct (Packet.ctrl (.rxResult op slot 0)).credits = (true, u) →
      u.armingSlot op = some n → exec (.rxresult h op slot 0) s = .next ((u.armAnswer n (some slot)).settle)) ∧
  (∀ (s u : State) (h : RxHead) (op n cause : Nat), s.acceptSeq h .ct (Packet.ctrl (.rxClose op n cause)).credits = (true, u) →
      (u.slot n).receive → (u.slot n).op = op → exec (.rxclose h op n cause) s = .next ((u.dropSlot n).settle)) ∧
  (∀ (s u : State) (h : RxHead) (op n cause : Nat), s.acceptSeq h .ct (Packet.ctrl (.rxClose op n cause)).credits = (true, u) →
      (u.slot n).receive = false → exec (.rxclose h op n cause) s = .next ((u.loseReceiver op n cause).settle)) ∧
  (∀ (s u : State) (h : RxHead) (op c : Nat), s.acceptSeq h .ct (Packet.ctrl (.sealEn op c)).credits = (true, u) →
      u.sealCheck c = 0 →
      exec (.sealen h op c) s = .next ((((u.enableRegion c).wr SEC_REGIONCTL.CHECK (u.rd SEC_REGIONCTL.CHECK)).ctrl (.sealRes op 0)).settle)) ∧
  (∀ (s u : State) (h : RxHead) (op c : Nat), s.acceptSeq h .ct (Packet.ctrl (.sealEn op c)).credits = (true, u) →
      u.sealCheck c ≠ 0 → exec (.sealen h op c) s = .next ((u.ctrl (.sealRes op (u.sealCheck c))).settle)) ∧
  (∀ (s u : State) (h : RxHead) (op c : Nat), s.acceptSeq h .ct (Packet.ctrl (.sealRes op 0)).credits = (true, u) →
      u.sec.enabling.find op = some c → exec (.sealres h op 0) s = .next (((u.endEnabling op).enableRegion c).settle)) ∧
  (∀ (s u : State) (h : RxHead) (op c level index : Nat),
      s.acceptSeq h .ct (Packet.ctrl (.refetch op c level index)).credits = (true, u) →
      exec (.refetch h op c level index) s = .next ((((u.pagesUnder c level index).foldl (State.sendPage · []) u).ctrl (.refDone op (64 * (u.pagesUnder c level index).length))).settle)) ∧
  (∀ (s u : State) (h : RxHead) (r lines : Nat), s.acceptSeq h .ct (Packet.ctrl (.refDone r lines)).credits = (true, u) →
      r < 64 → u.onAt SEC_BREACH.VALID r → u.rdAt SEC_BREACH.PROGRESS r = recoverRefetch →
      exec (.refdone h r lines) s = .next ((u.endRecovery (u.rdAt SEC_BREACH.KEYID r) (some r) recoverRefetch).settle)) ∧
  (∀ (s u : State) (h : RxHead) (ref slot key : Nat), s.acceptSeq h .ct (Packet.ctrl (.xkey ref slot key)).credits = (true, u) →
      u.sec.loaded.length < 256 → exec (.xkey h ref slot key) s = .next (((u.loadKey ref key).ctrl (.xkeyAck ref 0)).settle)) ∧
  (∀ (s u : State) (h : RxHead) (ref st : Nat), s.acceptSeq h .ct (Packet.ctrl (.xkeyAck ref st)).credits = (true, u) →
      exec (.xkeyack h ref st) s = .next u.settle)

/-- What the cores do: accesses through the DPA window, walks, world calls and returns, the map update port, TLB invalidations; and
  the stewards' watchdog, lockstep and holds (R471, R474–R486, R490, R491).
Choices of the model among them: log entries 60 to 63. -/
def Obligations.EngineCommands : Prop :=
  (∀ (s : State) (n line c : Nat) (data : Line) (mask : ByteMask) (fs : Finds), s.coreRuns n →
      (s.takeUnits masterService 1).claimOf (line * 64) = some c →
      (s.takeUnits masterService 1).onAt MAP_CLAIMATTR.SEALED c = false →
      exec (.engineDpaAccess n line (some (data, mask)) fs) s = .next ((((s.takeUnits masterService 1).setCore n { (s.takeUnits masterService 1).core n with stop := none }).engineWrite
    ⟨line, data, mask, false⟩).settle)) ∧
  (∀ (s : State) (n line c : Nat) (fs : Finds) (l : Line) (t : State), s.coreRuns n →
      (s.takeUnits masterService 1).claimOf (line * 64) = some c →
      (s.takeUnits masterService 1).onAt MAP_CLAIMATTR.SEALED c = false →
      (s.takeUnits masterService 1).deviceRead line fs = (some (l, false), t) →
      exec (.engineDpaAccess n line none fs) s = .next ((t.giveLine n l).settle)) ∧
  (∀ (s u : State) (n : Nat) (w : CoreWork) (va stag : Nat) (a : CoreAccess) (handler : Bool) (finds : List (Nat × Ecc)) (fs : Finds) (e : TlbEntry),
      s.doWork n w = u → u.walks n → va < 2 ^ 40 → (u.core n).fixedWindow va = none →
      stag = bits (((u.core n).ctl.find corePtroot).getD 0) 48 8 →
      ((u.core n).tlb a).find? (fun e => e.hits stag (va / 4096)) = some e →
      exec (.stage1Walk n w va a handler finds fs) s = .next ((u.useEntry n va a e).settle)) ∧
  (∀ (s u v t : State) (n : Nat) (w : CoreWork) (va root stag : Nat) (a : CoreAccess) (handler : Bool) (finds : List (Nat × Ecc)) (fs : Finds) (d : Nat),
      s.doWork n w = u → u.walks n → va < 2 ^ 40 → (u.core n).fixedWindow va = none →
      root = ((u.core n).ctl.find corePtroot).getD 0 → stag = bits root 48 8 →
      ((u.core n).tlb a).find? (fun e => e.hits stag (va / 4096)) = none →
      (u.core n).ltlb.find? (fun e => e.hits stag (va / 4096)) = none →
      v = ((u.event Ev.tlbMisses 0).event Ev.tlbMisses 1).event Ev.walks 0 →
      v.walk n va finds fs [0, 1, 2] (bits root 11 37 * 2 ^ 11) 0 = (.leaf d, t) →
      exec (.stage1Walk n w va a handler finds fs) s = .next ((t.useLeaf n va a stag d).settle)) ∧
  (∀ (s : State) (n : Nat), exec (.engMemUe n) s = .next (((s.abortCore n abortUe).raiseFor srcEngMemUe n).settle)) ∧
  (∀ (s : State) (n : Nat) (w : CoreWork) (length : Nat), s.calls n w →
      exec (.spdmMsg n w length) s = .next ((((s.doWork n w).enterCall n).leaveCall n callOk length).settle)) ∧
  (∀ (s : State) (n : Nat) (w : CoreWork), s.calls n w → ((s.doWork n w).enterCall n).on SEC_VEILSTAT.ROTATING = false →
      exec (.veilRotateCall n w) s = .next (((((s.doWork n w).enterCall n).startRotation).leaveCall n callOk 0).settle)) ∧
  (∀ (s : State) (n : Nat) (w : CoreWork) (x : Image) (type : Nat), s.calls n w → 1 ≤ type ∧ type ≤ 3 →
      ((s.doWork n w).enterCall n).imageCause x type = 0 →
      exec (.fwCheck n w x type) s = .next ((((s.doWork n w).enterCall n).leaveCall n callOk (imageSvn x)).settle)) ∧
  (∀ (s : State) (n : Nat) (w : CoreWork) (type : Nat), s.calls n w →
      exec (.svnCommitCall n w type) s = .next (((((s.doWork n w).enterCall n).commitSvn type).2.leaveCall n (((s.doWork n w).enterCall n).commitSvn type).1 0).settle)) ∧
  (∀ (s : State) (n : Nat) (w : CoreWork) (target : Nat), s.calls n w → target < 46 →
      (((s.doWork n w).enterCall n).core target).halted →
      exec (.coreRestart n w target) s = .next (((((s.doWork n w).enterCall n).restartCore target).leaveCall n callOk 0).settle)) ∧
  (∀ (s : State) (n : Nat), s.coreRuns n → n ≠ steward → (s.core n).level = .hypervisor →
      exec (.worldReturn n) s = .next ((s.setCore n (s.core n).goBack).settle)) ∧
  (∀ (s u : State) (n : Nat) (w : CoreWork), s.doWork n w = u → u.coreRuns n → n ≠ steward → (u.core n).level ≠ .hypervisor →
      exec (.asyncEntry n w .interrupt) s = .next ((u.enterH n .interrupt).settle)) ∧
  (∀ (s u : State) (n : Nat) (w : CoreWork) (ipa cause : Nat), s.doWork n w = u → u.coreRuns n → n ≠ steward →
      (u.core n).level ≠ .hypervisor → exec (.asyncEntry n w (.stage2 ipa cause)) s = .next ((u.stage2Fault n ipa cause).settle)) ∧
  (∀ (s u : State) (n : Nat) (w : CoreWork), s.doWork n w = u → u.coreRuns n → (u.core n).stop = none →
      (u.core n).level ≠ .user → (u.core n).portBusy = false →
      exec (.mupGo n w) s = .next (((u.setCore n { u.core n with zenith := (u.core n).level == .hypervisor }).runPort n).settle)) ∧
  (∀ (s u : State) (n : Nat) (w : CoreWork) (v : Nat), s.doWork n w = u → u.coreRuns n → n ≠ steward → (u.core n).stop = none →
      (u.core n).level ≠ .user → (bits v 0 2 = 3 → (u.core n).level ≠ .supervisor) →
      exec (.coreInval n w v) s = .next (((u.setCore n ((u.core n).invalidate ⟨bits v 0 2, bits v 2 8, bits v 12 36⟩)).event Ev.invalidations 0).settle)) ∧
  (∀ (s : State) (mask : Nat), s.rd ENG_TLBINV.CORES = 0 → exec (.engTlbinv mask) s = .next ((s.wr ENG_TLBINV.CORES mask).settle)) ∧
  (∀ (s : State) (n : Nat), bit (s.rd ENG_TLBINV.CORES) n →
      exec (.tlbInvalidationEnd n) s = .next ((s.finishInvalidation n).settle)) ∧
  (∀ (s : State), exec .engWdogPet s = .next s.pet.settle) ∧
  (∀ (s : State), s.rd PWR_STAT.STATE ≠ pwrNight →
      exec .engZwdog s = .next ((((s.put ENG_WDOG.EXPIRED true).heartStop 2).raise srcZwdog).settle)) ∧
  (∀ (s : State),
      exec .engLockstep s = .next (((({ s with chip := { s.chip with stewardHalt := true } } : State).put ENG_STAT.ZENITH_UP false).heartStop 3).raise srcLockstep |>.settle)) ∧
  (∀ (s : State) (v : Nat), exec (.engHoldWrite v) s = .next ((s.setHold v).settle))

/-- Power-up, self-test, PLL lock, firmware verification, supply and clock faults, the device enable, and the resets that software
  asks for (R488, R500, R502, R505, R508, R513–R519).
Choices of the model among them: log entries 64 to 67. -/
def Obligations.StartUpAndResets : Prop :=
  (∀ (s : State) (straps : Straps) (t : State), s.chip.powered = false → s.chip.tripped = false → straps.testEn = false →
      t = (((({ s with chip := { s.chip with straps := straps } } : State).senseFuses).put CLK_STAT.REFOK true).wr SYS_ID.PAIRID straps.pairId) →
      exec (.powerGood straps none) s = .next ((({ t with chip := { t.chip with powered := true } } : State).loadConfig.createLds).settle)) ∧
  (∀ (s : State), s.chip.powered → exec .rootPllLock s = .next ((s.put CLK_STAT.ROOT true).settle)) ∧
  (∀ (s : State), s.on CLK_STAT.ROOT → s.chip.selfTest = false → s.on SYS_BOOT.SELFTEST_FAIL = false →
      exec (.selfTestEnd true) s = .next (({ s with chip := { s.chip with selfTest := true } } : State).settle)) ∧
  (∀ (s : State), s.on CLK_STAT.ROOT → s.chip.selfTest = false → s.on SYS_BOOT.SELFTEST_FAIL = false →
      exec (.selfTestEnd false) s = .next ((s.put SYS_BOOT.SELFTEST_FAIL true).settle)) ∧
  (∀ (s : State), s.chip.selfTest →
      exec .hostReceiverCalibration s = .next (((List.range 8).foldl State.startTraining (s.advanceStage stagePortsReady)).settle)) ∧
  (∀ (s : State) (b : Nat), s.chip.powered →
      exec (.serdesPllLock false b) s = .next ((s.wr CLK_STAT.CON (setBit (s.rd CLK_STAT.CON) b true)).settle)) ∧
  (∀ (s : State) (k : Nat), s.chip.powered →
      exec (.serdesPllLock true k) s = .next (((s.lockHostPll k).startTraining (2 * k)).startTraining (2 * k + 1) |>.settle)) ∧
  (∀ (s : State) (a b : Image), s.chip.selfTest → s.on ENG_STAT.ZENITH_UP = false → s.rd ENG_BOOTSTAT.STAGE ≠ bootHalt →
      ((s.noteImage 0 1 a).noteImage 3 1 b).imageCause a 1 = 0 →
      exec (.zenithVerifyEnd a b) s = .next ((((s.noteImage 0 1 a).noteImage 3 1 b).startZenith false a).settle)) ∧
  (∀ (s : State) (a b : Image) (t : State), s.chip.selfTest → s.on ENG_STAT.ZENITH_UP = false →
      s.rd ENG_BOOTSTAT.STAGE ≠ bootHalt → t = (s.noteImage 0 1 a).noteImage 3 1 b → t.imageCause a 1 ≠ 0 →
      (t.rejectImage false (t.imageCause a 1)).imageCause b 1 ≠ 0 →
      exec (.zenithVerifyEnd a b) s = .next ((((t.rejectImage false (t.imageCause a 1)).rejectImage true ((t.rejectImage false (t.imageCause a 1)).imageCause b 1)).wr
    ENG_BOOTSTAT.STAGE bootHalt).settle)) ∧
  (∀ (s : State) (a b : Image) (drift : List Image), s.on ENG_STAT.ZENITH_UP → s.on ENG_STAT.HORIZON_UP = false →
      s.chip.zenithOnly = false → ((s.noteImage 1 2 a).noteImage 4 2 b).imageCause a 2 = 0 →
      exec (.horizonVerifyEnd a b drift) s = .next ((((s.noteImage 1 2 a).noteImage 4 2 b).upHorizon false a drift).settle)) ∧
  (∀ (s : State) (rail : Nat),
      exec (.powerGoodLoss rail true) s = .next ((((s.coldReset causePowerOn 0 0).wrAt FLT_PRIOR.SRC 0 0).wrAt FLT_PRIOR.SRC 1 0).settle)) ∧
  (∀ (s : State) (rail : Nat), exec (.powerGoodLoss rail false) s = .next (({ (s.coldReset causeSupply rail 0) with
    chip := { (s.coldReset causeSupply rail 0).chip with tripped := s.chip.tripped } } : State).settle)) ∧
  (∀ (s : State), exec .refclkLoss s = .next ((s.coldReset causeRefclk 0 0).settle)) ∧
  (∀ (s : State) (a b c : Nat), exec (.pllUnlock (.dram a) b c) s = .next ((s.coldReset causePll 0 0).settle)) ∧
  (∀ (s : State) (k d0 d1 : Nat), exec (.pllUnlock (.host k) d0 d1) s = .next (((s.unlockHostPll k d0 d1).raise 5).settle)) ∧
  (∀ (s : State),
      exec .thermtrip s = .next (({ (s.coldReset causeThermtrip 0 0) with chip := { (s.coldReset causeThermtrip 0 0).chip with tripped := true } } : State).settle)) ∧
  (∀ (s : State), s.on SYS_CTL.DEV_ENABLE = false → s.devEnableCheck = 0 →
      exec .devEnableCheck s = .next ((s.wr SYS_CHECK.CODE 0).enableDevice.settle)) ∧
  (∀ (s : State), s.on SYS_CTL.DEV_ENABLE → s.inUse = false →
      exec .devDisable s = .next ((((s.put SYS_CTL.DEV_ENABLE false).putAt SLC_CTL.ENABLE 0 false).wr SYS_CHECK.CODE 0).settle)) ∧
  (∀ (s : State), exec .rstCtlCold s = .next ((s.coldReset causeSoftware 0 0).settle)) ∧
  (∀ (s : State), s.warmCheck = 0 → exec .rstCtlWarm s = .next s.startWarm.settle) ∧
  (∀ (s : State) (fs : Finds) (ok : Bool), s.chip.warm = 3 → exec (.warmResetStep fs ok) s = .next s.warmCut) ∧
  (∀ (s : State) (fs : Finds), s.chip.warm = 5 → exec (.warmResetStep fs false) s = .next ((s.coldReset causeWarmFail 0 0).settle)) ∧
  (∀ (s : State) (fs : Finds) (ok : Bool), s.chip.warm = 6 → exec (.warmResetStep fs ok) s = .next s.endWarm.settle) ∧
  (∀ (s : State) (p : Path) (b : ResetBlock) (k : Nat) (ds : List Nat),
      blockNamed (s.rd RST_CTL.BLOCK) (s.rd RST_CTL.INDEX) = some (b, k, ds) → s.on RST_CTL.WARM = false →
      ds.find? s.held = none →
      exec (.rstCtlGo p) s = .next ((((s.wr RST_CTL.CHECK 0).put RST_CTL.GO true).addBlockReset b k).settle)) ∧
  (∀ (s : State) (b : ResetBlock) (k d : Nat), (b, k) ∈ s.flt.blockResets →
      exec (.blockResetEnd b k d) s = .next ((((s.dropBlockReset b k).resetBlock b k d).endGo b k).settle))

/-- Kamcon's device, configuration and resource commands, taken up by Horizon and answered (R533–R537).
Choices of the model among them: log entries 79, 80. -/
def Obligations.KamconResources : Prop :=
  (∀ (s : State) (cci : Nat) (input : List Byte), s.takesKamcon cci input 0 [] →
      exec (.identify cci input) s = .next ((s.answer cci 0 0 s.identityBytes).settle)) ∧
  (∀ (s : State) (cci : Nat) (input : List Byte) (n : Nat),
      s.takesKamcon cci input 22 [(0, 0, 32), (8, 0, 64), (16, 0, 32), (20, 0, 16)] → field input 20 2 = n → 1 ≤ n ∧ n ≤ 256 →
      field input 16 4 % 8 = 0 → field input 0 4 = 0xFFFFFFFF →
      exec (.regRead cci input) s = .next ((s.answer cci 0 0 (s.wordBytes (field input 16 4) n)).settle)) ∧
  (∀ (s : State) (cci : Nat) (input : List Byte) (n : Nat) (r : Register),
      s.takesKamcon cci input 22 [(0, 0, 32), (8, 0, 64), (16, 0, 32), (20, 0, 16)] → field input 20 2 = n → 1 ≤ n ∧ n ≤ 256 →
      field input 16 4 % 8 = 0 → field input 0 4 ≠ 0xFFFFFFFF →
      (registerMap.find? fun x => x.addr == field input 0 4 && x.reach == .selector) = some r →
      exec (.regRead cci input) s = .next (((s.storeFields r.fields 1 (field input 8 8)).answer cci 0 0 ((s.storeFields r.fields 1 (field input 8 8)).wordBytes (field input 16 4) n)).settle)) ∧
  (∀ (s : State) (cci : Nat) (input : List Byte), s.takesKamcon cci input 1 [(0, 0, 1)] → field input 0 1 = 1 →
      s.on SYS_CTL.DEV_ENABLE = false → s.devEnableCheck = 0 → (s.wr SYS_CHECK.CODE 0).enableDevice.rd SYS_CHECK.CODE = 0 →
      exec (.devEnable cci input) s = .next (((s.wr SYS_CHECK.CODE 0).enableDevice.answerCode cci 0).settle)) ∧
  (∀ (s : State) (cci : Nat) (input : List Byte), s.takesKamcon cci input 0 [] →
      exec (.configRead cci input) s = .next ((s.answer cci 0 0 s.configBytes).settle)) ∧
  (∀ (s : State) (cci : Nat) (input : List Byte) (n : Nat), s.takesKamcon cci input (8 + 8 * n) (itemFields n) → s.mayRun cci →
      field input 0 1 = n → 1 ≤ n ∧ n ≤ 64 → ((itemsOf input n).all fun x => itemOk x.1 x.2) = true → s.areaBusy 2 = false →
      exec (.configWrite cci input) s = .next (((s.startBackground cci { op := .configWrite, area := some 2, config := some (s.nextCopy (itemsOf input n)) }).answerStarted
    cci).settle)) ∧
  (∀ (s : State) (cci : Nat) (input : List Byte), s.takesKamcon cci input 3 [(0, 0, 8), (1, 0, 8), (2, 0, 8)] →
      field input 0 1 = 0 → exec (.reset cci input) s = .next (((s.answerCode cci 0).coldReset causeSoftware 0 0).settle)) ∧
  (∀ (s : State) (cci : Nat) (input : List Byte), s.takesKamcon cci input 3 [(0, 0, 8), (1, 0, 8), (2, 0, 8)] →
      field input 0 1 = 1 → s.warmCheck = 0 → s.startWarm.on RST_CTL.WARM →
      exec (.reset cci input) s = .next ((s.startWarm.answerCode cci 0).settle)) ∧
  (∀ (s : State) (cci : Nat) (input : List Byte) (t : State) (block index : Nat),
      s.takesKamcon cci input 3 [(0, 0, 8), (1, 0, 8), (2, 0, 8)] → field input 0 1 = 2 → field input 1 1 = block →
      field input 2 1 = index → t = ((s.wr RST_CTL.BLOCK block).wr RST_CTL.INDEX index).askBlockReset .kamcon block index →
      t.rd RST_CTL.CHECK = 0 → exec (.reset cci input) s = .next ((t.await cci (.block block index)).settle)) ∧
  (∀ (s : State) (cci : Nat) (input : List Byte), (s.takesKamcon cci input 72 ((List.range 72).map fun k => (k, 0, 8))) →
      s.allocCheck input = 0 → exec (.decoderAlloc cci input) s = .next (((s.reallocate input).answerCode cci 0).settle)) ∧
  (∀ (s : State) (cci : Nat) (input : List Byte) (c : Nat) (t : State),
      s.takesKamcon cci input 32 [(0, 0, 13), (4, 0, 17), (8, 0, 18), (12, 1, 31), (16, 0, 64), (24, 0, 64)] →
      field input 0 2 = c → s.onAt MAP_CLAIMATTR.COMMIT c = false →
      t = (s.defineClaim c input).askCommit c (Nat.land (field input 12 4) attrReserved != 0) →
      t.pair.fwd.contains (.commit c) = false → t.rd MAP_CHECK.CODE = 0 →
      exec (.claimCommit cci input) s = .next ((t.answer cci 0 0 (outBytes (t.rd MAP_CAPCHARGED.BYTES) 8)).settle)) ∧
  (∀ (s : State) (cci : Nat) (input : List Byte) (c : Nat) (t : State), s.takesKamcon cci input 2 [(0, 0, 13)] →
      field input 0 2 = c → s.onAt MAP_CLAIMATTR.COMMIT c → t = (s.wrAt MAP_CLAIMSEL.CLAIM 1 c).askRelease c →
      t.pair.fwd.contains (.release c) = false → t.rd MAP_CHECK.CODE = 0 →
      exec (.claimRelease cci input) s = .next ((t.answerCode cci 0).settle)) ∧
  (∀ (s : State) (cci : Nat) (input : List Byte) (c : Nat) (t : State),
      s.takesKamcon cci input 24 [(0, 0, 13), (8, 0, 64), (16, 0, 64)] → field input 0 2 = c → s.onAt MAP_CLAIMATTR.COMMIT c →
      t = (s.wrAt MAP_CLAIMSEL.CLAIM 1 c).setGrants c (field input 8 8) (field input 16 8) → t.rd MAP_CHECK.CODE = 0 →
      exec (.claimGrant cci input) s = .next ((t.answerCode cci 0).settle)) ∧
  (∀ (s : State) (cci : Nat) (input : List Byte) (n : Nat) (t : State),
      s.takesKamcon cci input 16 [(0, 0, 12), (4, 0, 20), (8, 0, 1), (12, 0, 32)] → field input 0 2 = n →
      s.onAt SLC_CTL.ENABLE n = false → t = (s.defineSlice n input).askSlice n → t.rdAt SLC_CTL.CHECK n = 0 →
      exec (.sliceEnable cci input) s = .next (((t.setQuota n (field input 12 4)).answerCode cci 0).settle)) ∧
  (∀ (s : State) (cci : Nat) (input : List Byte) (n : Nat), s.takesKamcon cci input 16 [(0, 0, 12), (8, 0, 1), (12, 0, 32)] →
      field input 0 2 = n → s.onAt SLC_CTL.ENABLE n →
      exec (.sliceSet cci input) s = .next (((((s.wrAt SLC_SEL.SLICE 1 n).putAt SLC_CFG.TEL_USER n (field input 8 1 == 1)).setQuota n (field input 12 4)).answerCode
    cci 0).settle)) ∧
  (∀ (s : State) (cci : Nat) (input : List Byte) (n : Nat), s.takesKamcon cci input 2 [(0, 0, 12)] → field input 0 2 = n →
      s.onAt SLC_CTL.ENABLE n → s.onAt SLC_STAT.RESETTING n = false →
      exec (.sliceReset cci input) s = .next ((((s.wrAt SLC_SEL.SLICE 1 n).askSliceReset n).await cci (.sliceReset n)).settle)) ∧
  (∀ (s : State) (cci : Nat) (input : List Byte) (n : Nat) (t : State), s.takesKamcon cci input 2 [(0, 0, 12)] →
      field input 0 2 = n → n ≠ 0 → s.onAt SLC_CTL.ENABLE n → t = (s.wrAt SLC_SEL.SLICE 1 n).askRemove n →
      t.rdAt SLC_CTL.CHECK n = 0 → exec (.sliceRemove cci input) s = .next ((t.answerCode cci 0).settle)) ∧
  (∀ (s : State) (cci : Nat) (input : List Byte) (page : Nat) (t : State),
      s.takesKamcon cci input 6 [(0, 0, 10), (2, 0, 1), (4, 0, 12)] → field input 0 2 = page →
      t = s.namePage page (field input 4 2) → field input 2 1 = 0 → (t.assignPage page).rdAt SLC_DBOWN.CHECK page = 0 →
      exec (.doorbell cci input) s = .next (((t.assignPage page).answerCode cci 0).settle)) ∧
  (∀ (s : State) (cci : Nat) (input : List Byte) (page : Nat) (t : State),
      s.takesKamcon cci input 6 [(0, 0, 10), (2, 0, 1), (4, 0, 12)] → field input 0 2 = page →
      t = s.namePage page (field input 4 2) → field input 2 1 = 1 → (t.freePage page).rdAt SLC_DBOWN.CHECK page = 0 →
      exec (.doorbell cci input) s = .next (((t.freePage page).answerCode cci 0).settle)) ∧
  (∀ (s : State) (cci : Nat) (input : List Byte) (t : State), s.takesKamcon cci input 64 policyFields →
      t = (s.stagePolicy input).askApply → t.rd PLC_APPLY.CHECK = 0 →
      exec (.plcPolicy cci input) s = .next ((t.answerCode cci 0).settle)) ∧
  (∀ (s : State) (cci : Nat) (input : List Byte) (c : Nat), s.takesKamcon cci input 3 [(0, 0, 13), (2, 0, 2)] →
      field input 0 2 = c → field input 2 1 ≠ 3 →
      exec (.plcClaimMode cci input) s = .next ((((s.wrAt PLC_CLAIMSEL.CLAIM 1 c).wrAt PLC_CLAIMPOL.MODE c (field input 2 1)).answerCode cci 0).settle)) ∧
  (∀ (s : State) (cci : Nat) (input : List Byte) (n : Nat) (t : State),
      s.takesKamcon cci input 12 [(0, 0, 8), (1, 0, 2), (2, 0, 13), (4, 0, 32), (8, 0, 32)] → field input 0 1 = n →
      (s.stageArm input).armCheck n false = 0 → t = (s.stageArm input).startArm n → (t.slot n).waitPartner = false →
      t.rdAt SNP_STATUS.CHECK n = 0 → exec (.snapArm cci input) s = .next ((t.answer cci 0 0 (t.armBytes n)).settle)) ∧
  (∀ (s : State) (cci : Nat) (input : List Byte) (n : Nat) (t : State),
      s.takesKamcon cci input 12 [(0, 0, 8), (1, 0, 2), (2, 0, 13), (4, 0, 32), (8, 0, 32)] → field input 0 1 = n →
      (s.stageArm input).armCheck n false = 0 → t = (s.stageArm input).startArm n → (t.slot n).waitPartner →
      exec (.snapArm cci input) s = .next ((t.await cci (.arm n)).settle)) ∧
  (∀ (s : State) (cci : Nat) (input : List Byte) (t : State), s.takesKamcon cci input 240 profileBits →
      t = (s.stageProfile input).askProfile → t.rd QOS_PROFILE.CHECK = 0 →
      exec (.qosProfile cci input) s = .next ((t.answerCode cci 0).settle))

/-- Kamcon's DRAM, RAS, pair, power and firmware commands, taken up by Horizon and answered (R538–R540).
Choices of the model among them: log entries 36, 79, 80. -/
def Obligations.KamconService : Prop :=
  (∀ (s : State) (cci : Nat) (input : List Byte) (t : State), s.takesKamcon cci input 24 channelFields →
      s.on DMC_COMMIT.COMMIT = false → t = (s.stageChannels input).askChannels → t.rd DMC_COMMIT.CHECK = 0 →
      exec (.dmcCommit cci input) s = .next ((t.answerCode cci 0).settle)) ∧
  (∀ (s : State) (cci : Nat) (input : List Byte) (c : Nat), s.takesKamcon cci input 1 [(0, 0, 4)] → field input 0 1 = c →
      s.frozen c → s.onAt DMC_CHSTAT.KEPT c →
      exec (.channelRelease cci input) s = .next (((s.askChannelRelease c).answerCode cci 0).settle)) ∧
  (∀ (s : State) (cci : Nat) (input : List Byte) (c rank : Nat), s.takesKamcon cci input 2 [(0, 0, 4), (1, 0, 3)] →
      field input 0 1 = c → field input 1 1 = rank → s.rdAt DMC_CHSTAT.SPARESTAT c = spareReady → rank < s.spareRank c →
      exec (.spareStart cci input) s = .next ((((s.wrAt DMC_SPARECTL.RANK c rank).askSpareRank c).answerCode cci 0).settle)) ∧
  (∀ (s : State) (cci : Nat) (input : List Byte), s.takesKamcon cci input 17 [(0, 0, 64), (8, 0, 64), (16, 0, 1)] →
      field input 0 8 % 64 = 0 →
      exec (.poisonList cci input) s = .next ((s.answer cci 0 0 (s.listedBytes (field input 16 1 == 1) (field input 0 8) (field input 0 8 + field input 8 8))).settle)) ∧
  (∀ (s : State) (cci : Nat) (input : List Byte) (dpa c : Nat), s.takesKamcon cci input 72 [(0, 0, 64), (8, 0, 512)] →
      field input 0 8 = dpa → dpa % 64 = 0 → s.claimOf dpa = some c → s.listed (dpa / 64) →
      (s.entry (dpa / 4096)).state ≠ .lost →
      exec (.poisonClear cci input) s = .next (((s.engineWrite ⟨dpa / 64, Line.ofBytes (input.drop 8), ByteMask.full, false⟩).answerCode cci 0).settle)) ∧
  (∀ (s : State) (cci : Nat) (input : List Byte) (f c base len : Nat),
      s.takesKamcon cci input 24 [(0, 0, 2), (1, 0, 8), (8, 0, 64), (16, 0, 64)] → s.mayRun cci → field input 0 1 = f →
      field input 1 1 = c → field input 8 8 = base → field input 16 8 = len → s.scrubRangeOk (bit f 0) c base len →
      exec (.kamconScrubRange cci input) s = .next ((((s.startBackground cci { op := .scrubRange }).answerStarted cci).startScrub (.kamcon cci) (bit f 0) (bit f 1) c base len).settle)) ∧
  (∀ (s : State) (cci : Nat) (input : List Byte) (x : ScrubSummary), s.takesKamcon cci input 0 [] →
      (s.cci cci).summary = some x →
      exec (.scrubResult cci input) s = .next ((s.answer cci 0 0 (x.bytes.map fun b => b.toNat)).settle)) ∧
  (∀ (s : State) (cci : Nat) (input : List Byte), s.takesKamcon cci input 3 [(0, 0, 3), (0, 7, 1), (1, 0, 8), (2, 0, 8)] →
      bit (field input 0 1) 7 → 1 ≤ field input 2 1 ∧ field input 2 1 < field input 1 1 ∧ field input 1 1 ≤ 168 →
      exec (.scrubPolicy cci input) s = .next (((s.setScrubPolicy input).answer cci 0 0 (s.setScrubPolicy input).policyBytes).settle)) ∧
  (∀ (s : State) (cci : Nat) (input : List Byte), s.takesKamcon cci input 3 [(0, 0, 3), (0, 7, 1), (1, 0, 8), (2, 0, 8)] →
      bit (field input 0 1) 7 = false → exec (.scrubPolicy cci input) s = .next ((s.answer cci 0 0 s.policyBytes).settle)) ∧
  (∀ (s : State) (cci : Nat) (input : List Byte),
      s.takesKamcon cci input 12 [(0, 0, 2), (1, 0, 8), (2, 0, 8), (3, 0, 8), (4, 0, 8), (5, 0, 8), (8, 0, 32)] →
      field input 0 1 = 0 →
      exec (.repairList cci input) s = .next ((s.answer cci 0 0 (entryBytes (s.med.repairList.map fun x => x.bytes ++ outBytes x.serial 8))).settle)) ∧
  (∀ (s : State) (cci : Nat) (input : List Byte) (r : RepairRow),
      s.takesKamcon cci input 12 [(0, 0, 2), (1, 0, 8), (2, 0, 8), (3, 0, 8), (4, 0, 8), (5, 0, 8), (8, 0, 32)] →
      field input 0 1 = 1 → s.rowAt input 1 8 = r → s.rowInside r → s.med.repairList.length < 32 →
      (s.med.repairList.any fun x => x.same r) = false →
      exec (.repairList cci input) s = .next (((s.setRepairs (s.med.repairList ++ [r])).answer cci 0 0 (entryBytes [])).settle)) ∧
  (∀ (s : State) (cci : Nat) (input : List Byte) (t : State),
      s.takesKamcon cci input 12 [(0, 0, 4), (1, 0, 1), (2, 0, 3), (3, 0, 3), (4, 0, 2), (8, 0, 18)] →
      s.on MED_PPRSTAT.BUSY = false → t = (s.nameRow input).startRepair → t.on MED_PPRSTAT.BUSY →
      exec (.pprRun cci input) s = .next ((t.await cci .repair).settle)) ∧
  (∀ (s : State) (cci : Nat) (input : List Byte) (x : Salvage), s.takesKamcon cci input 1 [(0, 0, 6)] →
      s.cir.salvage.find (field input 0 1) = some x →
      exec (.salvageRead cci input) s = .next ((s.answer cci 0 0 (x.bytes (!x.sealed))).settle)) ∧
  (∀ (s : State) (cci : Nat) (input : List Byte),
      s.takesKamcon cci input 8 [(0, 0, 1), (1, 0, 1), (2, 0, 8), (4, 0, 16), (6, 0, 16)] → field input 0 1 = 1 →
      (s.stagePair input).askPair.pair.enabling →
      exec (.pairEnable cci input) s = .next (((s.stagePair input).askPair.await cci .pair).settle)) ∧
  (∀ (s : State) (cci : Nat) (input : List Byte) (t : State),
      s.takesKamcon cci input 8 [(0, 0, 1), (1, 0, 1), (2, 0, 8), (4, 0, 16), (6, 0, 16)] → field input 0 1 = 0 →
      t = s.stagePair input → t.pairState = pairTakenOver →
      exec (.pairEnable cci input) s = .next ((t.leavePair.answerCode cci 0).settle)) ∧
  (∀ (s : State) (cci : Nat) (input : List Byte) (t : State), s.takesKamcon cci input 5 [(0, 0, 32), (4, 0, 1)] →
      (s.stageTakeover input).takeoverCheck = 0 → t = (s.stageTakeover input).takenOver → t.rd PAR_CTL.CHECK = 0 →
      exec (.pairTakeover cci input) s = .next ((t.answerCode cci 0).settle)) ∧
  (∀ (s : State) (cci : Nat) (input : List Byte) (t : State), s.takesKamcon cci input 4 [(0, 0, 32)] →
      (s.wr PAR_TAKEOVER.EPOCH (field input 0 4)).givebackCheck = 0 →
      t = (s.wr PAR_TAKEOVER.EPOCH (field input 0 4)).givenBack → t.rd PAR_CTL.CHECK = 0 →
      exec (.pairGiveback cci input) s = .next ((t.answerCode cci 0).settle)) ∧
  (∀ (s : State) (cci : Nat) (input : List Byte), s.takesKamcon cci input 0 [] → s.pairState ≠ pairAlone →
      s.pairState ≠ pairFenced → exec (.pairFence cci input) s = .next ((s.fenceNow.answerCode cci 0).settle)) ∧
  (∀ (s : State) (cci : Nat) (input : List Byte) (t : State), s.takesKamcon cci input 0 [] → s.mayRun cci →
      s.pairState = pairFenced →
      t = (s.startBackground cci { op := .pairDiscard, total := s.committed.length + s.releasing.length }).answerStarted cci →
      exec (.pairDiscard cci input) s = .next t.askDiscard.settle) ∧
  (∀ (s : State) (cci : Nat) (input : List Byte), s.takesKamcon cci input 2 [(0, 0, 3), (1, 0, 3)] →
      exec (.linkCtl cci input) s = .next (((s.askLink (field input 0 1) (field input 1 1)).answerCode cci 0).settle)) ∧
  (∀ (s : State) (cci : Nat) (input : List Byte), s.takesKamcon cci input 1 [(0, 0, 8)] → field input 0 1 = 0 →
      exec (.powerRequest cci input) s = .next ((s.askClear.answerCode cci 0).settle)) ∧
  (∀ (s : State) (cci : Nat) (input : List Byte) (t : State), s.takesKamcon cci input 1 [(0, 0, 8)] → field input 0 1 = 1 →
      s.nightCheck = 0 → t = s.askNight → t.rd PWR_CTL.CHECK = 0 →
      exec (.powerRequest cci input) s = .next ((t.answerCode cci 0).settle)) ∧
  (∀ (s : State) (cci : Nat) (input : List Byte), s.takesKamcon cci input 1 [(0, 0, 3)] → field input 0 1 ≠ 0 →
      exec (.wakeCfg cci input) s = .next (((s.setWakes (field input 0 1)).answerCode cci 0).settle)) ∧
  (∀ (s : State) (cci : Nat) (input : List Byte) (t : State), s.takesKamcon cci input 2 [(0, 0, 8), (1, 0, 8)] →
      s.askDomain .kamcon (field input 0 1) (field input 1 1) = (0, 0, t) →
      exec (.domainRequest cci input) s = .next (((t.wr PWR_DOMCTL.CHECK 0).answer cci 0 0 [0]).settle)) ∧
  (∀ (s : State) (cci : Nat) (input : List Byte), s.takesKamcon cci input 0 [] →
      exec (.fwSlots cci input) s = .next ((s.answer cci 0 0 (s.chip.flash.flatMap FwImage.bytes)).settle)) ∧
  (∀ (s : State) (cci : Nat) (input : List Byte) (type : Nat) (t : State), s.takesKamcon cci input 1 [(0, 0, 2)] →
      field input 0 1 = type → type ≠ 0 → s.commitSvn type = (callOk, t) →
      exec (.svnCommit cci input) s = .next ((t.answer cci 0 0 [t.fusedSvn type]).settle)) ∧
  (∀ (s : State) (cci : Nat) (input : List Byte) (held : List Nat), s.takesKamcon cci input 8 [(0, 0, 64)] →
      (s.cir.salvage.map Prod.fst).filter (fun k => bit (field input 0 8) k) = held →
      exec (.salvageFree cci input) s = .next (((held.foldl State.freeSalvage s).answer cci 0 0 (outBytes held.length 8)).settle))

/-- Standard commands on a command interface: information, logs, events, background operations, firmware and time (R528–R532, R541,
  R542).
Choices of the model among them: log entries 71 to 73, 75. -/
def Obligations.MailboxCommands : Prop :=
  (∀ (s : State) (cci : Nat), s.takesMail cci false →
      exec (.cciIdentify cci) s = .next ((s.reply cci rcSuccess [s.rd SYS_ID.DEVID, 12]).settle)) ∧
  (∀ (s u : State) (cci n : Nat) (b : Background), s.cciExists cci → s.mailReady → (s.cci cci).background = some b →
      s.percent cci b = (n, u) →
      exec (.backgroundOperationStatus cci) s = .next ((u.reply cci rcSuccess [1, n, b.op.code, 0]).settle)) ∧
  (∀ (s : State) (cci code : Nat) (op : BgOp), s.cciExists cci → s.mailReady → (s.cci cci).background = none →
      (s.cci cci).last = some (op, code) →
      exec (.backgroundOperationStatus cci) s = .next ((s.reply cci rcSuccess [0, 100, op.code, code]).settle)) ∧
  (∀ (s : State) (cci : Nat), s.takesMail cci false →
      exec (.getResponseMessageLimit cci) s = .next ((s.reply cci rcSuccess [(s.cci cci).limit]).settle)) ∧
  (∀ (s : State) (cci e : Nat), s.takesMail cci false → 8 ≤ e ∧ e ≤ 12 →
      exec (.setResponseMessageLimit cci e) s = .next (((s.setCci cci { s.cci cci with limit := e }).reply cci rcSuccess [e]).settle)) ∧
  (∀ (s : State) (cci : Nat) (b : Background), s.cciExists cci → s.mailReady → (s.cci cci).background = some b →
      b.op = .scanMedia →
      exec (.requestAbortBackgroundOperation cci) s = .next (((s.stopScrub (.scanMedia cci)).reply cci rcSuccess []).settle)) ∧
  (∀ (s : State) (cci log : Nat), s.takesMail cci false → log ≤ logCapacity →
      exec (.getEventRecords cci log) s = .next ((s.reply cci rcSuccess (s.eventWords cci log)).settle)) ∧
  (∀ (s : State) (cci log : Nat) (hs : List Nat), s.takesMail cci false → log ≤ logCapacity →
      (hs = ((s.eventLog cci log).records.take hs.length).map (fun r => r.handle)) → hs ≠ [] →
      exec (.clearEventRecords cci log false hs) s = .next (((s.setEventLog cci log { records := (s.eventLog cci log).records.drop hs.length }).reply cci rcSuccess []).settle)) ∧
  (∀ (s : State) (cci log : Nat) (hs : List Nat), s.takesMail cci false → log ≤ logCapacity → (s.eventLog cci log).lost ≠ 0 →
      exec (.clearEventRecords cci log true hs) s = .next (((s.setEventLog cci log {}).reply cci rcSuccess []).settle)) ∧
  (∀ (s : State) (cci : Nat), s.takesMail cci false →
      exec (.getEventInterruptPolicy cci) s = .next ((s.reply cci rcSuccess (s.cci (logOwner cci)).policy).settle)) ∧
  (∀ (s : State) (cci : Nat) (policy p : List Nat), s.takesMail cci false → (p = (List.range 5).map fun k => policy.getD k 0) →
      (p.any fun m => 1 < m % 4) = false →
      exec (.setEventInterruptPolicy cci policy) s = .next (((s.setCci (logOwner cci) { s.cci (logOwner cci) with policy := p }).reply cci rcSuccess []).settle)) ∧
  (∀ (s : State) (cci : Nat), s.takesMail cci false → exec (.getFwInfo cci) s = .next ((s.reply cci rcSuccess s.fwWords).settle)) ∧
  (∀ (s : State) (cci action slot : Nat) (pkg : Package), s.takesMail cci true → s.mayRun cci →
      action ≤ 4 ∧ 1 ≤ slot ∧ slot ≤ 2 → s.areaBusy (slot - 1) = false →
      exec (.transferFw cci action slot pkg) s = .next ((((s.spoilSlot (slot - 1)).startBackground cci
    { op := .transferFw, area := some (slot - 1), package := if action = 0 ∨ action = 3 then some pkg else none }).reply
      cci rcBackground []).settle)) ∧
  (∀ (s : State) (cci : Nat), s.takesMail cci true → exec (.activateFw cci 1 1) s = .next ((s.reply cci rcSuccess []).settle)) ∧
  (∀ (s : State) (cci : Nat), s.takesMail cci false →
      exec (.getTimestamp cci) s = .next ((s.reply cci rcSuccess [toNs s.stamp]).settle)) ∧
  (∀ (s : State) (cci t : Nat), s.takesMail cci true →
      exec (.setTimestamp cci t) s = .next (((s.setStamp (2 * t / 5)).reply cci rcSuccess []).settle)) ∧
  (∀ (s : State) (cci : Nat), s.takesMail cci false → exec (.getSupportedLogs cci) s = .next ((s.replyFree cci [1]).settle)) ∧
  (∀ (s : State) (cci : Nat), s.takesMail cci false → exec (.getLog cci true) s = .next ((s.replyFree cci []).settle)) ∧
  (∀ (s : State) (cci : Nat), s.takesMail cci false →
      exec (.unsupportedCommand cci) s = .next ((s.reply cci rcUnsupported []).settle)) ∧
  (∀ (s : State) (cci : Nat) (w : KamWait), s.mbx.waiting = some (cci, w) →
      exec (.commandTimeout cci) s = .next ((s.stopWaiting.reply cci rcInternal []).settle)) ∧
  (∀ (s : State) (cci : Nat) (b : Background) (ok : Bool), (s.cci cci).background = some b → b.op = .sanitize →
      exec (.backgroundOperationEnd cci ok) s = .next ((s.zeroMedia.endBackground cci rcSuccess).settle)) ∧
  (∀ (s : State) (cci : Nat) (b : Background) (ok : Bool), (s.cci cci).background = some b → b.op = .secureErase →
      exec (.backgroundOperationEnd cci ok) s = .next ((s.endBackground cci rcSuccess).settle))

/-- Commands on a command interface about the memory: the device, health, alerts, poison, media scans, erasure and dynamic
  capacity, and those of the fabric manager (R21, R24, R267, R271, R529, R531).
Choices of the model among them: log entries 71, 72, 76, 77. -/
def Obligations.MailboxMemory : Prop :=
  (∀ (s : State) (cci : Nat), s.takesMail cci false →
      exec (.identifyMemoryDevice cci) s = .next ((s.reply cci rcSuccess [s.dpaCap, s.dpaCap, 0, 0, poisonCapacity, 0]).settle)) ∧
  (∀ (s : State) (cci : Nat), s.takesMail cci false →
      exec (.getHealthInfo cci) s = .next ((s.replyFree cci [flag s.mbx.maintenance, flag s.mbx.degraded, s.rd TEL_THERMSTAT.HOTTEST, 0]).settle)) ∧
  (∀ (s : State) (cci : Nat) (x : Cci), s.takesMail cci false → x = s.cci cci →
      exec (.getAlertConfiguration cci) s = .next ((s.reply cci rcSuccess (alertWords x.overTemp ++ alertWords x.underTemp ++ [flag x.ceAlert.isSome, x.ceAlert.getD 0])).settle)) ∧
  (∀ (s : State) (cci : Nat) (a b : Option (Option Int)) (c : Option (Option Nat)) (x : Cci), s.takesMail cci false →
      x = s.cci cci →
      exec (.setAlertConfiguration cci a b c false) s = .next (((s.setCci cci { x with overTemp := a.getD x.overTemp, underTemp := b.getD x.underTemp, ceAlert := c.getD x.ceAlert }).reply
    cci rcSuccess []).settle)) ∧
  (∀ (s : State) (cci dpa lines : Nat), s.takesMail cci false → s.mayList cci (dpa / 64 * 64) ((dpa / 64 + lines) * 64) →
      exec (.getPoisonList cci dpa lines) s = .next ((s.reply cci rcSuccess (s.poisonWords (dpa / 64) lines)).settle)) ∧
  (∀ (s : State) (cci dpa c : Nat) (f : AccessFind) (ld : Ld), s.takesMail cci false → s.grantedClaim cci dpa = some c →
      s.grant c cci = grantWrite → s.poisonData.2.lds.find cci = some ld →
      (!s.poisonData.2.on SYS_CTL.DEV_ENABLE || s.poisonData.2.pairState == pairFenced || !s.poisonData.2.homeFor (dpa / 64 * 64)) = false →
      ((s.poisonData.2.reply cci rcSuccess []).onAt MAP_CLAIMATTR.SHARED c && (s.poisonData.2.reply cci rcSuccess []).fenced ld.link) = false →
      exec (.injectPoison cci dpa f) s = .next (((s.poisonData.2.reply cci rcSuccess []).takeIn (s.poisonData.2.mailReq ld (dpa / 64) c s.poisonData.1 true) f).settle)) ∧
  (∀ (s : State) (cci dpa c : Nat) (f : AccessFind) (ld : Ld) (d : Line), s.takesMail cci false →
      s.grantedClaim cci dpa = some c → s.grant c cci = grantWrite → (s.entry (dpa / 4096)).state ≠ .lost →
      s.lds.find cci = some ld → (!s.on SYS_CTL.DEV_ENABLE || s.pairState == pairFenced || !s.homeFor (dpa / 64 * 64)) = false →
      ((s.reply cci rcSuccess []).onAt MAP_CLAIMATTR.SHARED c && (s.reply cci rcSuccess []).fenced ld.link) = false →
      exec (.clearPoison cci dpa d f) s = .next (((s.reply cci rcSuccess []).takeIn (s.mailReq ld (dpa / 64) c d false) f).settle)) ∧
  (∀ (s : State) (cci dpa lines : Nat), s.takesMail cci false →
      exec (.getScanMediaCapabilities cci dpa lines) s = .next ((s.reply cci rcSuccess [s.scanTime dpa (lines * 64)]).settle)) ∧
  (∀ (s : State) (cci dpa lines : Nat), s.takesMail cci false → s.mayRun cci → s.scrubRangeOk true 0 dpa (lines * 64) →
      exec (.scanMedia cci dpa lines) s = .next ((((s.startBackground cci { op := .scanMedia }).reply cci rcBackground []).startScrub (.scanMedia cci) true true 0 dpa
    (lines * 64)).settle)) ∧
  (∀ (s : State) (cci : Nat) (ls : List Nat), s.takesMail cci false → ls = (s.cci cci).ueList.take 512 →
      exec (.getScanMediaResults cci) s = .next ((s.reply cci rcSuccess (ls.length :: ls.map fun l => l * 64)).settle)) ∧
  (∀ (s : State) (cci : Nat), s.takesMail cci true → s.mayRun cci → s.unused →
      exec (.sanitize cci) s = .next (((s.drawVeil.restartInit.startBackground cci { op := .sanitize }).reply cci rcBackground []).settle)) ∧
  (∀ (s : State) (cci : Nat), s.takesMail cci true → s.mayRun cci → s.unused →
      exec (.secureErase cci) s = .next (((s.drawVeil.restartInit.startBackground cci { op := .secureErase }).reply cci rcBackground []).settle)) ∧
  (∀ (s : State) (cci : Nat), s.takesMail cci false →
      exec (.getDynamicCapacityConfiguration cci) s = .next ((s.reply cci rcSuccess (capacityBlock :: extentWords (s.mbx.regions.get [] cci))).settle)) ∧
  (∀ (s : State) (cci : Nat), s.takesMail cci false →
      exec (.getDcExtentList cci) s = .next ((s.reply cci rcSuccess (extentWords (s.mbx.extents.get [] cci))).settle)) ∧
  (∀ (s : State) (cci : Nat) (xs : List (Nat × Nat)), s.takesMail cci false → s.extentsFit cci xs →
      exec (.addDcResponse cci xs) s = .next (((s.takeExtents cci xs).reply cci rcSuccess []).settle)) ∧
  (∀ (s : State) (cci : Nat) (xs : List (Nat × Nat)), s.takesMail cci false → s.extentsHeld cci xs →
      exec (.releaseDynamicCapacity cci xs) s = .next (((s.giveExtents cci xs).reply cci rcSuccess []).settle)) ∧
  (∀ (s : State) (cci port n0 n1 : Nat), s.takesMail cci false → 64 ≤ cci →
      port < 4 ∧ s.onAt LNK_PORTCFG.MLD port = true ∧ (n1 = 0 ∨ s.hasLink (2 * port + 1) = true) →
      s.ldSplitCheck port n0 n1 = 0 →
      exec (.fmSetLdAllocations cci port n0 n1) s = .next (((s.splitLds port n0 n1).reply cci rcSuccess [n0, n1]).settle)) ∧
  (∀ (s : State) (cci port : Nat), s.takesMail cci false → 64 ≤ cci → port < 4 →
      exec (.fmGetLdAllocations cci port) s = .next ((s.reply cci rcSuccess [s.ldCount (2 * port), s.ldCount (2 * port + 1)]).settle)) ∧
  (∀ (s : State) (cci : Nat), s.takesMail cci false → 64 ≤ cci →
      exec (.fmLdInfo cci) s = .next ((s.reply cci rcSuccess [s.dpaCap, s.lds.length]).settle)) ∧
  (∀ (s : State) (cci : Nat), s.takesMail cci false → 64 ≤ cci →
      exec (.fmMultiHeadedInfo cci) s = .next ((s.reply cci rcSuccess ([s.lds.length, s.heads.length] ++ s.lds.map fun (e : Nat × Ld) => e.2.link)).settle)) ∧
  (∀ (s : State) (cci link : Nat), s.takesMail cci false → 64 ≤ cci → s.hasLink link →
      exec (.fmHeadInfo cci link) s = .next ((s.reply cci rcSuccess [link / 2, if s.onAt LNK_PORTCFG.BIF (link / 2) then 8 else 16, s.rdAt LNK_LSTAT.UP link,
    s.rdAt LNK_LSTAT.RATE link, s.rdAt LNK_LSTAT.WIDTH link]).settle)) ∧
  (∀ (s : State) (cci : Nat), s.takesMail cci false → 64 ≤ cci →
      exec (.fmDcdManagement cci .info) s = .next ((s.reply cci rcSuccess [s.lds.length, regionLimit, capacityBlock, s.dpaCap]).settle))

/-- Requests of the Zenith request set inside a session of the slice's key, and DOE requests before Horizon runs (R208, R291, R307, R311,
  R509, R543–R545).
Choices of the model among them: log entries 82 to 84. -/
def Obligations.ZenithRequests : Prop :=
  (∀ (s : State) (h : ZenithHead) (key : List Byte), s.takesZenith h key (bodyOk [] 0 []) true →
      s.mbx.bindings.find h.slice = none →
      exec (.bindSlice h []) s = .next (((s.bindSlice h.slice key).zenithOk 0x01 (sha384 key)).settle)) ∧
  (∀ (s : State) (h : ZenithHead) (key : List Byte), s.takesZenith h key (bodyOk [] 0 []) true →
      s.mbx.bindings.find h.slice = some key →
      exec (.getBinding h []) s = .next ((s.zenithOk 0x02 (toBytes 1 8 ++ sha384 key)).settle)) ∧
  (∀ (s t : State) (h : ZenithHead) (body key : List Byte) (c : Nat), s.takesZenith h key (bodyOk body 2 [(0, 0, 13)]) false →
      field body 0 2 = c → s.rdAt MAP_CLAIMATTR.SLICE c = h.slice → s.askSeal c = (some 0, t) →
      exec (.sealEnable h body) s = .next ((t.zenithOk 0x03 []).settle)) ∧
  (∀ (s t : State) (h : ZenithHead) (body key : List Byte) (c choice : Nat),
      s.takesZenith h key (bodyOk body 4 [(0, 0, 13), (2, 0, 8), (3, 0, 1)] && decide (field body 2 1 ≤ 2)) false →
      field body 0 2 = c → field body 2 1 = choice → field body 3 1 = 0 → s.sealedOf h.slice c →
      choice ≠ recoverRefetch ∨ s.pairState = pairMirrored → s.recoverClaim c choice = t → t.recovers c = false →
      exec (.sealRecovery h body) s = .next ((t.zenithOk 0x04 []).settle)) ∧
  (∀ (s : State) (h : ZenithHead) (key : List Byte), s.takesZenith h key (bodyOk [] 0 []) false →
      exec (.breachList h []) s = .next ((s.zenithOk 0x05 (s.breachBytes h.slice)).settle)) ∧
  (∀ (s : State) (h : ZenithHead) (body key : List Byte) (x : Salvage), s.takesZenith h key (bodyOk body 1 [(0, 0, 6)]) false →
      s.cir.salvage.find (field body 0 1) = some x → x.slice = h.slice →
      exec (.zrSalvageRead h body) s = .next ((s.zenithOk 0x06 ((x.bytes true).map fun b => BitVec.ofNat 8 b)).settle)) ∧
  (∀ (s t : State) (h : ZenithHead) (body key : List Byte) (n : Nat),
      s.takesZenith h key (bodyOk body 4 [(0, 0, 8), (2, 0, 13)]) false → field body 0 1 = n → s.slotState n = slotFree →
      s.sealedOf h.slice (field body 2 2) → t = s.dropSlotKey n → t.createdCount < 256 →
      exec (.exportKeyCreate h body) s = .next (((t.createKey n h.slice).2.zenithOk 0x07 (toBytes (t.createKey n h.slice).1 4)).settle)) ∧
  (∀ (s : State) (h : ZenithHead) (body key : List Byte) (ref : Nat) (k : ExportKey),
      s.takesZenith h key (bodyOk body 4 [(0, 0, 32)]) false → field body 0 4 = ref → s.createdKey h.slice ref = some k →
      exec (.exportKeyGet h body) s = .next (((s.markFetched ref k).zenithOk 0x08 (toBytes k.key 32)).settle)) ∧
  (∀ (s : State) (h : ZenithHead) (body key : List Byte) (ref : Nat),
      s.takesZenith h key (bodyOk body 40 [(0, 0, 32), (8, 0, 256)]) false → field body 0 4 = ref → s.sec.loaded.length < 256 →
      exec (.exportKeyLoad h body) s = .next (((s.loadExportKey ref (field body 8 32)).zenithOk 0x09 []).settle)) ∧
  (∀ (s : State) (h : ZenithHead) (body key : List Byte) (ref : Nat) (k : ExportKey),
      s.takesZenith h key (bodyOk body 4 [(0, 0, 32)]) false → field body 0 4 = ref → s.createdKey h.slice ref = some k →
      exec (.exportKeyDrop h body) s = .next (((s.dropCreated ref k).zenithOk 0x0A []).settle)) ∧
  (∀ (s : State) (h : ZenithHead) (key : List Byte), s.takesZenith h key (bodyOk [] 0 [] && h.slice == 0) false →
      s.on SEC_VEILSTAT.ROTATING = false → exec (.zrVeilRotate h []) s = .next ((s.startRotation.zenithOk 0x0B []).settle)) ∧
  (∀ (s : State) (link ld : Nat) (spdm : Bool), s.hasLink link → s.cciExists ld → s.on ENG_STAT.HORIZON_UP = false →
      s.chip.zenithOnly = false → exec (.doeRequest link ld spdm) s = .next ((s.send (.doeBusy link ld)).settle))

/-- The device enters HAZE and OVERCAST, leaves them for CLEAR, and a link leaves L0 (R547–R550, R553).
Choices of the model among them: log entries 68. -/
def Obligations.PowerStates : Prop :=
  (∀ (s : State), s.clearState → s.on SYS_CTL.DEV_ENABLE → s.rd PWR_CFG.HAZE_IDLE ≠ 0 → s.quiet → s.pow.night = 0 →
      exec .hazeEntry s = .next ((((s.gateFor hazeRetained domRetention).gateFor hazeGated domGated).setPower pwrHaze).settle)) ∧
  (∀ (s : State), s.rd PWR_STAT.STATE = pwrHaze → exec (.hazeExit false) s = .next ((s.toClear wakeActivity).settle)) ∧
  (∀ (s : State), s.rd PWR_STAT.STATE = pwrHaze →
      exec (.hazeExit true) s = .next (((s.toClear wakeActivity).raise srcWakeLate).settle)) ∧
  (∀ (s : State), s.rd PWR_STAT.STATE = pwrClear ∨ s.rd PWR_STAT.STATE = pwrHaze → s.on SYS_CTL.DEV_ENABLE →
      s.rd PWR_CFG.OVC_IDLE ≠ 0 → s.quiet → s.someL0 = false → s.rd CON_STAT.STATE = conOff ∨ s.rd CON_STAT.STATE = conDown →
      s.cir.sweep = none → s.pow.night = 0 →
      exec .overcastEntry s = .next (((((s.gateFor hazeRetained domRetention).gateFor hazeGated domGated).gateFor overcastGated domGated).setPower pwrOvercast).settle)) ∧
  (∀ (s : State) (source : WakeSource), s.rd PWR_STAT.STATE = pwrOvercast → s.wakeSelected source = true →
      exec (.overcastWake source) s = .next (((s.toClear (sourceCode source)).assertWake (sourceCode source)).settle)) ∧
  (∀ (s : State) (n : Nat), s.inL0 n →
      exec (.linkLowPowerEntry n .l1) s = .next ((s.setLink n { s.link n with state := .l1 }).settle)) ∧
  (∀ (s : State) (n : Nat), s.inL0 n →
      exec (.linkLowPowerEntry n .l2) s = .next ((s.setLink n { s.link n with state := .l2 }).settle))

/-- NIGHT is asked for, entered step by step and left; domains are asked for, gated and woken; the brownout guard is engaged and
  lifted (R551, R552, R554–R556, R558, R560).
Choices of the model among them: log entries 68, 69. -/
def Obligations.NightAndDomains : Prop :=
  (∀ (s : State), s.nightCheck = 0 →
      exec .pwrCtlNight s = .next ((((s.wr PWR_CTL.CHECK 0).put PWR_STAT.PENDING true).put PWR_CTL.NIGHT true).settle)) ∧
  (∀ (s : State), s.rd PWR_STAT.STATE = pwrOvercast ∨ s.rd PWR_STAT.STATE = pwrHaze → s.on PWR_STAT.PENDING = false →
      exec .pwrCtlClear s = .next (((s.wr PWR_CTL.CHECK 0).toClear wakeClear).settle)) ∧
  (∀ (s : State), s.on PWR_STAT.PENDING → s.pow.night = 0 → s.linksAsleep → exec .nightEntry s = .next s.nightStops.settle) ∧
  (∀ (s : State) (fs : Finds), s.pow.night = 1 →
      exec (.nightEntryStep fs) s = .next (({ s with pow := { s.pow with night := 2 } } : State).settle)) ∧
  (∀ (s : State) (fs : Finds), s.pow.night = 2 → exec (.nightEntryStep fs) s = .next ((s.nightFlush fs).settle)) ∧
  (∀ (s : State) (fs : Finds), s.pow.night = 3 → exec (.nightEntryStep fs) s = .next s.nightFall.settle) ∧
  (∀ (s : State) (source : WakeSource), s.pow.night = 0 → s.rd PWR_STAT.STATE = pwrNight → s.pow.leaving = 0 →
      s.wakeSelected source = true → exec (.nightWake source) s = .next ((s.leaveNight (sourceCode source)).settle)) ∧
  (∀ (s : State), s.pow.night ≠ 0 → exec (.nightWake .link) s = .next s.dropNight.settle) ∧
  (∀ (s : State) (ok : Bool), s.pow.leaving = 4 →
      exec (.nightExitStep ok) s = .next (({ (s.setPower pwrClear) with pow := { (s.setPower pwrClear).pow with leaving := 5 } } : State).settle)) ∧
  (∀ (s : State), s.pow.leaving = 2 → exec (.nightExitStep false) s = .next ((s.coldReset causeWarmFail 0 0).settle)) ∧
  (∀ (s : State) (d : Nat), d ∈ [9, 10, 11, 31] → s.rdAt PWR_DOMSTAT.STATE d = domGated ∨ s.rdAt PWR_DOMSTAT.STATE d = domOff →
      exec (.domainWake d) s = .next ((s.wakeDomain d).settle)) ∧
  (∀ (s : State) (d : Nat), s.onAt PWR_DOMSTAT.WAKING d → s.rdAt PWR_DOMSTAT.STATE d ≠ domGated →
      exec (.domainWakeEnd d false) s = .next (((s.putAt PWR_DOMSTAT.WAKING d false).wrAt PWR_DOMSTAT.STATE d domOn).settle)) ∧
  (∀ (s : State) (p : Path) (d a : Nat), s.rdAt PWR_DOMSEL.DOMAIN (pathCopy p) = d → s.rd PWR_DOMCTL.ACTION = a → d ≤ 32 →
      a = actGate ∨ a = actOff → s.refuserOf (askerOf p) d a = 0 →
      exec (.pwrDomctlGo p) s = .next ((({ s with pow := { s.pow with gates := s.pow.gates.put d a } } : State).wr PWR_DOMCTL.CHECK 0).settle)) ∧
  (∀ (s : State) (d a : Nat), s.pow.gates.find d = some a → exec (.domainGateEffect d) s = .next ((s.gateNow d a).settle)) ∧
  (∀ (s : State) (rail : Nat), rail ≤ 6 → exec (.supplyWarning rail) s = .next ((s.warnSupply rail).settle)) ∧
  (∀ (s : State), s.guarded →
      exec .guardLift s = .next ((if s.liftGuard.rd PWR_STAT.STATE = pwrNight then s.liftGuard else s.liftGuard.startSweep true).settle))

/-- The registers and events of the fault unit: the sticky bits, the chip reset, the FIFO, the heartbeat, event records, the
  reactions and the interrupt (R570, R571, R573, R574, R577–R579, R588).
Choices of the model among them: log entries 63, 74. -/
def Obligations.FaultRegisters : Prop :=
  (∀ (s : State) (k v : Nat), k ≤ 1 → exec (.fltStickyClear k v) s = .next ((s.writeField FLT_STICKY.SRC k v).driveErrn.settle)) ∧
  (∀ (s : State) (src : Nat), s.flt.chipReset = some src → exec .chiprst s = .next ((s.coldReset causeFault 0 src).settle)) ∧
  (∀ (s : State) (p : Path) (x : Nat × Nat) (t : State), p ≠ .bar2 → s.popFault = (some x, t) →
      exec (.fltFifoRead p) s = .next ((t.send (.regData (fifoWord x))).settle)) ∧
  (∀ (s : State), exec (.fltFifoRead .bar2) s = .next ((s.send (.regData 0)).settle)) ∧
  (∀ (s : State), s.heartGood ∨ (s.chip.petted = true ∧ s.rd PWR_STAT.STATE = pwrNight) →
      exec .hbeatToggle s = .next (((s.put FLT_PINS.HBEAT (!s.on FLT_PINS.HBEAT)).wr FLT_PINS.HBCAUSE 0).settle)) ∧
  (∀ (s : State) (e : EventCause), s.on ENG_STAT.HORIZON_UP → exec (.eventRecord e) s = .next ((s.eventRecord e).settle)) ∧
  (∀ (s : State) (p : Path) (v : Nat),
      exec (.fltSrccfgWrite p v) s = .next ((s.setReactions (s.rdAt FLT_SRCSEL.SOURCE (pathCopy p)) v).settle)) ∧
  (∀ (s : State) (v : Nat), exec (.fltIntcfgWrite v) s = .next ((s.setInterrupt v).settle))

/-- Counter sweeps, loads and clears, the sampler's reader, junction sensors, rails, receiver lanes and occupancy (R592, R597,
  R599–R608).
Choices of the model among them: log entries 85 to 88. -/
def Obligations.TelemetryCommands : Prop :=
  (∀ (s : State), s.tel.sweep = none → exec .telCtlStart s = .next s.openSweep.settle) ∧
  (∀ (s : State), s.tel.sweep ≠ none → exec .telCtlStart s = .next ((s.inc TEL_SWEEPSTAT.SKIPPED).settle)) ∧
  (∀ (s : State), s.rd TEL_CTL.PERIOD ≠ 0 → exec .sweepPeriod s = .next s.startSweepRead.settle) ∧
  (∀ (s : State) (ts span : Nat) (values : List (Nat × Bool)) (failed : List Nat), s.tel.sweep = some (ts, values) →
      exec (.sweepEnd span failed) s = .next ((s.endSweepRead ts values span failed).settle)) ∧
  (∀ (s : State), exec .telCtlClrall s = .next s.clearCounters.settle) ∧
  (∀ (s : State) (p : Path) (v : Nat), s.rdAt TEL_CNTSEL.COUNTER (pathCopy p) ≤ 319 →
      exec (.telCntvalWrite p v) s = .next ((s.loadCounter (s.rdAt TEL_CNTSEL.COUNTER (pathCopy p)) v).settle)) ∧
  (∀ (s : State) (v : Nat), exec (.telSmprdWrite v) s = .next ((s.freeSamples v).settle)) ∧
  (∀ (s : State) (n : Nat), n < 20 → exec (.thermSensor n) s = .next ((s.failSensor n).judgeHeat.settle)) ∧
  (∀ (s : State) (readings : List (Option Int)),
      exec (.junctionSensorRead readings) s = .next ((s.sensorReports readings).judgeHeat.settle)) ∧
  (∀ (s : State), s.on TEL_THERMSTAT.THROTTLE → 4 ≤ s.rd TEL_THERMSTAT.NVALID →
      ofTemp9 (s.rd TEL_THERMSTAT.HOTTEST) ≤ s.throttlePoint - 5 →
      exec .throttleRelease s = .next (((s.occur Ev.throttleTime 0 ((s.time - s.tel.since) / 400) none).put TEL_THERMSTAT.THROTTLE false).settle)) ∧
  (∀ (s : State) (samples : List (Nat × Nat)), exec (.railSample samples) s = .next ((s.sampleRails samples).settle)) ∧
  (∀ (s : State) (contrail : Bool) (unit lane height width : Nat) (k : Nat), k = marginCopy contrail unit lane →
      s.laneExists contrail unit lane → s.laneReports contrail unit →
      exec (.eyeEstimate contrail unit lane height width false) s = .next (((((s.wrAt TEL_MARGIN.HEIGHT k (min height 255)).wrAt TEL_MARGIN.WIDTH k (min width 255)).putAt TEL_MARGIN.VALID k true).putAt
    TEL_MARGIN.HELD k false).settle)) ∧
  (∀ (s : State) (unit lane height width : Nat), s.laneExists false unit lane → s.laneReports false unit →
      exec (.eyeEstimate false unit lane height width true) s = .next ((s.putAt TEL_MARGIN.HELD (marginCopy false unit lane) true).settle)) ∧
  (∀ (s : State), exec .occupancySample s = .next ((s.occur Ev.journalLevel 0 s.pair.journal.length none).settle))

/-- A write of the register file through each view, and the test port's instruction (R6, R619, R622–R625, R630, R647).
Choices of the model among them: log entries 13 to 15, 90. -/
def Obligations.RegisterFileAndTestPort : Prop :=
  (∀ (s : State) (p : Path) (fn off bytes v : Nat) (bme msix : Bool), (p = .bar2 → s.bar2Shown fn = true) →
      exec (.registerWrite p fn off bytes v bme msix) s = .next ((s.writeOffset p off bytes v bme msix).settle)) ∧
  (∀ (s : State) (i : JtagOp) (t : State), t = ({ s with chip := { s.chip with jtag := i } } : State) →
      exec (.jtagInstruction i) s = .next ((t.send (.jtag t.jtagActs (if t.jtagActs = .idcode then jtagIdcode else 0))).settle))
end

