-- ==== Sys2Proof/Laws/Kept.lean ====
section
/-! SUPPORT. What every operation keeps: the queue of commands, the messages already sent, and a sound state. -/

namespace Sys2Proof.Machine

/-! ### Tables -/

theorem Table.rising_iff {α : Type} {t : Table α} : t.rising = true ↔ (t.map Prod.fst).Pairwise (· < ·) := by
  simp [Table.rising]

theorem Table.rising_filter {α : Type} {t : Table α} (p : Nat × α → Bool) (h : t.rising = true) :
    Table.rising (t.filter p) = true := by
  rw [Table.rising_iff] at *
  exact List.Pairwise.sublist (List.Sublist.map _ List.filter_sublist) h

theorem Table.rising_erase {α : Type} {t : Table α} (k : Nat) (h : t.rising = true) : (t.erase k).rising = true :=
  Table.rising_filter _ h

theorem Table.mem_place {α : Type} {k : Nat} {v : α} {t : Table α} {e : Nat × α} :
    e ∈ Table.place k v t ↔ e = (k, v) ∨ e ∈ t := by
  induction t with
  | nil => simp [Table.place]
  | cons x xs ih => simp only [Table.place]; split <;> simp [ih, or_left_comm]

theorem Table.rising_place {α : Type} {k : Nat} {v : α} {t : Table α} (hk : ∀ e ∈ t, e.1 ≠ k) (h : t.rising = true) :
    (Table.place k v t).rising = true := by
  induction t with
  | nil => simp [Table.place, Table.rising]
  | cons x xs ih =>
    rw [Table.rising_iff] at h ⊢
    simp only [List.map_cons, List.pairwise_cons, List.mem_map, forall_exists_index, and_imp, forall_apply_eq_imp_iff₂] at h
    simp only [Table.place]
    split
    · rename_i hlt
      simp only [List.map_cons, List.pairwise_cons, List.mem_cons, List.mem_map, forall_eq_or_imp, forall_exists_index, and_imp,
        forall_apply_eq_imp_iff₂]
      exact ⟨⟨hlt, fun e he => Nat.lt_trans hlt (h.1 e he)⟩, h.1, h.2⟩
    · rename_i hge
      have hne := hk x (by simp)
      have ih' := ih (fun e he => hk e (by simp [he])) (Table.rising_iff.2 h.2)
      rw [Table.rising_iff] at ih'
      simp only [List.map_cons, List.pairwise_cons, List.mem_map, forall_exists_index, and_imp, forall_apply_eq_imp_iff₂]
      refine ⟨fun e he => ?_, ih'⟩
      rcases Table.mem_place.1 he with rfl | he
      · show x.1 < k
        omega
      · exact h.1 e he

theorem Table.rising_put {α : Type} {t : Table α} (k : Nat) (v : α) (h : t.rising = true) : (t.put k v).rising = true :=
  Table.rising_place (by simp [Table.erase]) (Table.rising_erase k h)

theorem Table.rising_set {α : Type} [DecidableEq α] {t : Table α} (d : α) (k : Nat) (v : α) (h : t.rising = true) :
    (t.set d k v).rising = true := by
  unfold Table.set
  split
  · exact Table.rising_erase k h
  · exact Table.rising_put k v h

theorem Table.wf_filter {α : Type} [DecidableEq α] {t : Table α} {d : α} (p : Nat × α → Bool) (h : t.wf d = true) :
    Table.wf (t.filter p) d = true := by
  simp only [Table.wf, Bool.and_eq_true, List.all_eq_true] at *
  exact ⟨Table.rising_filter p h.1, fun e he => h.2 e (List.mem_filter.1 he).1⟩

theorem Table.wf_set {α : Type} [DecidableEq α] {t : Table α} {d : α} (k : Nat) (v : α) (h : t.wf d = true) :
    (t.set d k v).wf d = true := by
  have hr : (t.set d k v).rising = true := by
    simp only [Table.wf, Bool.and_eq_true] at h
    exact Table.rising_set d k v h.1
  simp only [Table.wf, Bool.and_eq_true, List.all_eq_true] at *
  refine ⟨hr, fun e he => ?_⟩
  unfold Table.set at he
  split at he
  · exact h.2 e (List.mem_filter.1 he).1
  · rename_i hv
    rcases Table.mem_place.1 he with rfl | he
    · simpa using hv
    · exact h.2 e (List.mem_filter.1 he).1

theorem Table.length_place {α : Type} (k : Nat) (v : α) (t : Table α) : (Table.place k v t).length = t.length + 1 := by
  induction t with
  | nil => rfl
  | cons x xs ih => simp only [Table.place]; split <;> simp [ih]

theorem Table.find_isNone {α : Type} {t : Table α} {k : Nat} (h : ∀ e ∈ t, e.1 ≠ k) : (t.find k).isNone = true := by
  induction t with
  | nil => rfl
  | cons x xs ih =>
    rw [Table.find, if_neg (h x (by simp))]
    exact ih fun e he => h e (by simp [he])

/-- Putting an entry under a key that is there, or where there is room, stays in the bound. -/
theorem Table.length_put_le {α : Type} {t : Table α} {k n : Nat} {v : α} (h : t.length ≤ n)
    (hc : ¬(n ≤ t.length ∧ (t.find k).isNone = true)) : (t.put k v).length ≤ n := by
  rw [Table.put, Table.length_place]
  by_cases hl : n ≤ t.length
  · have hf : (t.find k).isNone ≠ true := fun hn => hc ⟨hl, hn⟩
    have hlt : (t.erase k).length < t.length := by
      by_contra hge
      have he : (t.erase k).length = t.length := Nat.le_antisymm (List.length_filter_le _ _) (Nat.le_of_not_lt hge)
      have ha := List.length_filter_eq_length_iff.1 he
      exact hf (Table.find_isNone fun e he => by simpa using ha e he)
    omega
  · have : (t.erase k).length ≤ t.length := List.length_filter_le _ _
    omega

/-! ### Memory -/

/-- Writing a byte keeps the canonical form of memory. -/
theorem Memory.wf_set {mem : List Host.Cell} (a : Nat) (b : Byte) (h : Memory.wf mem = true) :
    Memory.wf (Table.set mem 0 a b) = true := Table.wf_set a b h

/-- Dropping cells keeps the canonical form of memory. -/
theorem Memory.wf_filter {mem : List Host.Cell} (p : Host.Cell → Bool) (h : Memory.wf mem = true) :
    Memory.wf (mem.filter p) = true := Table.wf_filter p h

/-- Zero fill keeps the canonical form of memory. -/
theorem Memory.wf_clear {mem : List Host.Cell} (lo n : Nat) (h : Memory.wf mem = true) :
    Memory.wf (clearCells mem lo n) = true := Table.wf_filter _ h

/-- Memory after reset is in canonical form. -/
theorem Memory.wf_reset : Memory.wf State.reset.dram.mem = true := by decide

/-! ### Kept -/

/-- The queue is `q`, the messages `o` have been sent, and the state is sound. -/
structure State.Kept (q : List Instr) (o : List Output) (s : State) : Prop where
  queue : s.pending = q
  sent : o <:+ s.out
  sound : s.Sound

/-- The state that an operation may give keeps it. -/
def KeptO (q : List Instr) (o : List Output) (x : Option State) : Prop := ∀ t, x = some t → t.Kept q o

/-- The same where a value comes with the state. -/
def KeptP {α : Type} (q : List Instr) (o : List Output) (x : Option (α × State)) : Prop := ∀ a t, x = some (a, t) → t.Kept q o

/-- The same where two values come with the state. -/
def KeptQ {α β : Type} (q : List Instr) (o : List Output) (x : Option (α × β × State)) : Prop :=
  ∀ a b t, x = some (a, b, t) → t.Kept q o

/-- A command answers a next state that keeps it. -/
def KeptN (q : List Instr) (o : List Output) (x : Host.Outcome State Fault Refusal) : Prop := ∃ t, x = .next t ∧ t.Kept q o

variable {q : List Instr} {o : List Output} {s : State}

theorem State.Kept.same {x_regs x_time x_stampBase x_links x_lds x_decoders x_reqs x_nextReq x_map x_cir x_nmb x_dram x_med x_flt
    x_hal x_con x_pair x_sec x_snp x_plc x_que x_qos x_smp x_tel x_eng x_pow x_chip x_mbx x_free x_out x_pending} (h1 :
    x_pending = s.pending) (h2 : x_out = s.out)
    (h3 : x_regs = s.regs) (h4 : x_dram.mem = s.dram.mem) (h5 : x_flt.fifo = s.flt.fifo) (h6 : x_sec.loaded = s.sec.loaded)
    (h7 : x_sec.trackers = s.sec.trackers) (h8 : x_cir.salvage = s.cir.salvage) (h9 : x_smp.held = s.smp.held) (h : s.Kept q o) : (State.mk x_regs x_time x_stampBase x_links x_lds x_decoders
    x_reqs x_nextReq x_map x_cir x_nmb x_dram x_med x_flt x_hal x_con x_pair x_sec x_snp x_plc x_que x_qos x_smp x_tel x_eng
    x_pow x_chip x_mbx x_free x_out x_pending).Kept q o :=
  ⟨h1 ▸ h.queue, h2 ▸ h.sent,
    { registers := by simpa [h3] using h.sound.registers
      memory := by simpa [h4] using h.sound.memory
      faults := by simpa [h5] using h.sound.faults
      keys := by simpa [h6] using h.sound.keys
      rewrites := by simpa [h7] using h.sound.rewrites
      salvage := by simpa [h8] using h.sound.salvage
      samples := by simpa [h9] using h.sound.samples }⟩

theorem State.Kept.regs {r : Table Nat} (h : s.Kept q o) (hr : Table.rising r = true) : { s with regs := r }.Kept q o :=
  ⟨h.queue, h.sent, { h.sound with registers := hr }⟩

theorem State.Kept.send {m : Output} (h : s.Kept q o) : { s with out := m :: s.out }.Kept q o :=
  ⟨h.queue, h.sent.trans (List.suffix_cons m s.out), { h.sound with }⟩

theorem State.Kept.dram {d : Dram} (h : s.Kept q o) (hm : Memory.wf d.mem = true) : { s with dram := d }.Kept q o :=
  ⟨h.queue, h.sent, { h.sound with memory := hm }⟩

theorem State.Kept.flt {f : Faults} (h : s.Kept q o) (hf : f.fifo.length ≤ 1024) : { s with flt := f }.Kept q o :=
  ⟨h.queue, h.sent, { h.sound with faults := hf }⟩

theorem State.Kept.sec {p : Protection} (h : s.Kept q o) (hk : p.loaded.length ≤ 256) (ht : p.trackers.length ≤ 64) :
    { s with sec := p }.Kept q o :=
  ⟨h.queue, h.sent, { h.sound with keys := hk, rewrites := ht }⟩

theorem State.Kept.cir {c : Cirrus} (h : s.Kept q o) (hr : c.salvage.rising = true) (hc : ∀ e ∈ c.salvage, e.1 < 64) :
    { s with cir := c }.Kept q o :=
  ⟨h.queue, h.sent, { h.sound with salvage := ⟨hr, hc⟩ }⟩

theorem State.Kept.smp {x : Sampler} (h : s.Kept q o) (hx : x.held ≤ sampleCount) : { s with smp := x }.Kept q o :=
  ⟨h.queue, h.sent, { h.sound with samples := hx }⟩

theorem State.Kept.foldl {α : Type} {f : State → α → State} {l : List α} (H : ∀ s x, s.Kept q o → (f s x).Kept q o)
    (h : s.Kept q o) : (l.foldl f s).Kept q o := by
  induction l generalizing s with
  | nil => exact h
  | cons x xs ih => exact ih (H _ _ h)

theorem State.Kept.snd {α : Type} {p : α × State} {a : α} {t : State} (e : p = (a, t)) (h : p.2.Kept q o) : t.Kept q o := by
  subst e; exact h

theorem State.Kept.thd {α β : Type} {p : α × β × State} {a : α} {b : β} {t : State} (e : p = (a, b, t)) (h : p.2.2.Kept q o) :
    t.Kept q o := by
  subst e; exact h

theorem State.Kept.ofSome {x : Option State} {t : State} (e : x = some t) (h : KeptO q o x) : t.Kept q o := h t e

theorem State.Kept.ofPair {α : Type} {x : Option (α × State)} {a : α} {t : State} (e : x = some (a, t)) (h : KeptP q o x) :
    t.Kept q o := h a t e

theorem KeptO.none : KeptO q o Option.none := fun _ e => by cases e
theorem KeptO.some (h : s.Kept q o) : KeptO q o (Option.some s) := fun _ e => by cases e; exact h
theorem KeptP.none {α : Type} : KeptP (α := α) q o Option.none := fun _ _ e => by cases e
theorem KeptP.some {α : Type} {a : α} (h : s.Kept q o) : KeptP q o (Option.some (a, s)) := fun _ _ e => by cases e; exact h
theorem KeptP.mk {α : Type} {p : α × State} (h : p.2.Kept q o) : KeptP q o (Option.some p) := fun _ _ e => by cases e; exact h
theorem State.Kept.ofTriple {α β : Type} {x : Option (α × β × State)} {a : α} {b : β} {t : State} (e : x = some (a, b, t))
    (h : KeptQ q o x) : t.Kept q o := h a b t e

theorem KeptQ.none {α β : Type} : KeptQ (α := α) (β := β) q o Option.none := fun _ _ _ e => by cases e
theorem KeptQ.some {α β : Type} {a : α} {b : β} (h : s.Kept q o) : KeptQ q o (Option.some (a, b, s)) := fun _ _ _ e => by
  cases e; exact h

theorem KeptO.getD {x : Option State} (h : s.Kept q o) (hx : KeptO q o x) : (x.getD s).Kept q o := by
  cases x with
  | none => exact h
  | some t => exact hx t rfl

theorem KeptO.map {x : Option State} {f : State → State} (hx : KeptO q o x) (H : ∀ s, s.Kept q o → (f s).Kept q o) :
    KeptO q o (x.map f) := by
  cases x with
  | none => exact KeptO.none
  | some t => exact KeptO.some (H t (hx t rfl))

theorem KeptO.mapP {α : Type} {x : Option (α × State)} {f : α × State → State} (hx : KeptP q o x)
    (H : ∀ a s, s.Kept q o → (f (a, s)).Kept q o) : KeptO q o (x.map f) := by
  cases x with
  | none => exact KeptO.none
  | some t => exact KeptO.some (H t.1 t.2 (hx t.1 t.2 rfl))

theorem KeptP.mapP {α β : Type} {x : Option (α × State)} {f : α × State → β × State} (hx : KeptP q o x)
    (H : ∀ a s, s.Kept q o → (f (a, s)).2.Kept q o) : KeptP q o (x.map f) := by
  cases x with
  | none => exact KeptP.none
  | some t => exact KeptP.mk (H t.1 t.2 (hx t.1 t.2 rfl))

theorem KeptP.bind {α β : Type} {x : Option α} {f : α → Option (β × State)} (H : ∀ a, KeptP q o (f a)) :
    KeptP q o (x.bind f) := by
  cases x with
  | none => exact KeptP.none
  | some a => exact H a

/-- Folding over a pair whose second part is the state. -/
theorem State.Kept.foldlP {α β : Type} {f : β × State → α → β × State} {l : List α} {x : β × State}
    (H : ∀ x a, x.2.Kept q o → (f x a).2.Kept q o) (h : x.2.Kept q o) : (l.foldl f x).2.Kept q o := by
  induction l generalizing x with
  | nil => exact h
  | cons a as ih => exact ih (H _ _ h)

/-- Choosing an action from a list all of whose actions keep it. -/
theorem State.Kept.act {α : Type} {l : List (α × (State → State))} {p : α × (State → State) → Bool} {e : α × (State → State)}
    (he : l.find? p = some e) (H : ∀ e ∈ l, (e.2 s).Kept q o) : (e.2 s).Kept q o := H e (List.mem_of_find?_eq_some he)

theorem KeptN.next (h : s.Kept q o) : KeptN q o (.next s) := ⟨s, rfl, h⟩

end Sys2Proof.Machine
end

