-- ==== Sys2Proof/Laws/Ops.lean ====
section
/-! SUPPORT. What each operation of Machine/Ops keeps. -/

set_option linter.all false

namespace Sys2Proof.Machine

theorem State.wrAt_kept {q : List Instr} {o : List Output} {s f i v} (h : State.Kept q o s) : State.Kept q o (State.wrAt s f i v) := h.regs (Table.rising_set _ _ _ h.sound.registers)

theorem State.wr_kept {q : List Instr} {o : List Output} {s x1 x2} (h : State.Kept q o s) : State.Kept q o (State.wr s x1 x2) := by
  unfold State.wr
  repeat' first
    | (with_reducible first
      | assumption
      | refine State.wrAt_kept ?_
      | fail_if_no_progress (refine State.Kept.same rfl rfl rfl rfl rfl rfl rfl rfl rfl ?_))

theorem State.putAt_kept {q : List Instr} {o : List Output} {s x1 x2 x3} (h : State.Kept q o s) : State.Kept q o (State.putAt s x1 x2 x3) := by
  unfold State.putAt
  repeat' first
    | (with_reducible first
      | assumption
      | refine State.wrAt_kept ?_
      | fail_if_no_progress (refine State.Kept.same rfl rfl rfl rfl rfl rfl rfl rfl rfl ?_))

theorem State.put_kept {q : List Instr} {o : List Output} {s x1 x2} (h : State.Kept q o s) : State.Kept q o (State.put s x1 x2) := by
  unfold State.put
  repeat' first
    | (with_reducible first
      | assumption
      | refine State.wr_kept ?_
      | fail_if_no_progress (refine State.Kept.same rfl rfl rfl rfl rfl rfl rfl rfl rfl ?_))

theorem State.addAt_kept {q : List Instr} {o : List Output} {s x1 x2 x3} (h : State.Kept q o s) : State.Kept q o (State.addAt s x1 x2 x3) := by
  unfold State.addAt
  repeat' first
    | (with_reducible first
      | assumption
      | refine State.wrAt_kept ?_
      | fail_if_no_progress (refine State.Kept.same rfl rfl rfl rfl rfl rfl rfl rfl rfl ?_))

theorem State.incAt_kept {q : List Instr} {o : List Output} {s x1 x2} (h : State.Kept q o s) : State.Kept q o (State.incAt s x1 x2) := by
  unfold State.incAt
  repeat' first
    | (with_reducible first
      | assumption
      | refine State.addAt_kept ?_
      | fail_if_no_progress (refine State.Kept.same rfl rfl rfl rfl rfl rfl rfl rfl rfl ?_))

theorem State.inc_kept {q : List Instr} {o : List Output} {s x1} (h : State.Kept q o s) : State.Kept q o (State.inc s x1) := by
  unfold State.inc
  repeat' first
    | (with_reducible first
      | assumption
      | refine State.incAt_kept ?_
      | fail_if_no_progress (refine State.Kept.same rfl rfl rfl rfl rfl rfl rfl rfl rfl ?_))

theorem State.subAt_kept {q : List Instr} {o : List Output} {s x1 x2 x3} (h : State.Kept q o s) : State.Kept q o (State.subAt s x1 x2 x3) := by
  unfold State.subAt
  repeat' first
    | (with_reducible first
      | assumption
      | refine State.wrAt_kept ?_
      | fail_if_no_progress (refine State.Kept.same rfl rfl rfl rfl rfl rfl rfl rfl rfl ?_))

theorem State.resetWindow_kept {q : List Instr} {o : List Output} {s a b c} (h : State.Kept q o s) : State.Kept q o (State.resetWindow s a b c) := h.regs (Table.rising_filter _ h.sound.registers)

theorem State.draw_kept {q : List Instr} {o : List Output} {s} (h : State.Kept q o s) : State.Kept q o (State.draw s).2 := by
  unfold State.draw
  repeat' first
    | (with_reducible first
      | assumption
      | fail_if_no_progress (refine State.Kept.same rfl rfl rfl rfl rfl rfl rfl rfl rfl ?_))

theorem State.send_kept {q : List Instr} {o : List Output} {s m} (h : State.Kept q o s) : State.Kept q o (State.send s m) := h.send

theorem State.setLink_kept {q : List Instr} {o : List Output} {s x1 x2} (h : State.Kept q o s) : State.Kept q o (State.setLink s x1 x2) := by
  unfold State.setLink
  repeat' first
    | (with_reducible first
      | assumption
      | fail_if_no_progress (refine State.Kept.same rfl rfl rfl rfl rfl rfl rfl rfl rfl ?_))

end Sys2Proof.Machine
end

