-- ==== Sys2Proof/Laws/Flags.lean ====
section
/-! SUPPORT. What each operation of Machine/Flags keeps. -/

set_option linter.all false

namespace Sys2Proof.Machine

theorem State.setSticky_kept {q : List Instr} {o : List Output} {s x1 x2} (h : State.Kept q o s) : State.Kept q o (State.setSticky s x1 x2) := by
  unfold State.setSticky
  repeat' first
    | (with_reducible first
      | assumption
      | refine State.wrAt_kept ?_
      | fail_if_no_progress (refine State.Kept.same rfl rfl rfl rfl rfl rfl rfl rfl rfl ?_))

theorem State.driveErrn_kept {q : List Instr} {o : List Output} {s} (h : State.Kept q o s) : State.Kept q o (State.driveErrn s) := by
  unfold State.driveErrn
  repeat' first
    | (with_reducible first
      | assumption
      | refine State.put_kept ?_
      | fail_if_no_progress (refine State.Kept.same rfl rfl rfl rfl rfl rfl rfl rfl rfl ?_))

theorem State.interrupt_kept {q : List Instr} {o : List Output} {s} (h : State.Kept q o s) : State.Kept q o (State.interrupt s) := by
  unfold State.interrupt
  repeat' first
    | (with_reducible first
      | assumption
      | split
      | refine State.send_kept ?_
      | refine State.put_kept ?_
      | fail_if_no_progress (refine State.Kept.same rfl rfl rfl rfl rfl rfl rfl rfl rfl ?_))

theorem State.releaseInterrupt_kept {q : List Instr} {o : List Output} {s} (h : State.Kept q o s) : State.Kept q o (State.releaseInterrupt s) := by
  unfold State.releaseInterrupt
  repeat' first
    | (with_reducible first
      | assumption
      | split
      | refine State.send_kept ?_
      | refine State.put_kept ?_
      | fail_if_no_progress (refine State.Kept.same rfl rfl rfl rfl rfl rfl rfl rfl rfl ?_))

theorem State.capture_kept {q : List Instr} {o : List Output} {s x1} (h : State.Kept q o s) : State.Kept q o (State.capture s x1) := by
  unfold State.capture
  repeat' first
    | (with_reducible first
      | assumption
      | (extract_lets +onlyGivenNames σ; refine (?_ : State.Kept q o σ → _) ?_; (on_goal 1 => (intro hσ; clear_value σ)); (on_goal 2 => (dsimp only [σ]; try clear σ)))
      | (extract_lets +onlyGivenNames σ; first | (have : Nat := σ; clear this) | (have : Bool := σ; clear this) | (have : Option Nat := σ; clear this); clear_value σ)
      | (extract_lets +onlyGivenNames σ; refine (?_ : State.Kept q o σ.2 → _) ?_; (on_goal 1 => (intro hσ; clear_value σ)); (on_goal 2 => (dsimp only [σ]; try clear σ)))
      | (extract_lets +onlyGivenNames σ; first | (have : Dram := σ; clear this) | (have : Cirrus := σ; clear this) | (have : Protection := σ; clear this) | (have : Sampler := σ; clear this) | (have : Faults := σ; clear this))
      | (extract_lets +onlyGivenNames σ; try clear_value σ)
      | split
      | refine State.wrAt_kept ?_
      | refine State.incAt_kept ?_
      | refine State.wr_kept ?_
      | refine State.put_kept ?_
      | refine State.inc_kept ?_
      | refine State.setSticky_kept ?_
      | fail_if_no_progress (refine State.Kept.same rfl rfl rfl rfl rfl rfl rfl rfl rfl ?_))
  exact State.Kept.flt ‹_› (by simp only [List.length_append, List.length_cons, List.length_nil]; omega)

theorem State.heartStop_kept {q : List Instr} {o : List Output} {s x1} (h : State.Kept q o s) : State.Kept q o (State.heartStop s x1) := by
  unfold State.heartStop
  repeat' first
    | (with_reducible first
      | assumption
      | split
      | refine State.wr_kept ?_
      | fail_if_no_progress (refine State.Kept.same rfl rfl rfl rfl rfl rfl rfl rfl rfl ?_))

theorem State.chipReset_kept {q : List Instr} {o : List Output} {s x1} (h : State.Kept q o s) : State.Kept q o (State.chipReset s x1) := by
  unfold State.chipReset
  repeat' first
    | (with_reducible first
      | assumption
      | (extract_lets +onlyGivenNames σ; refine (?_ : State.Kept q o σ → _) ?_; (on_goal 1 => (intro hσ; clear_value σ)); (on_goal 2 => (dsimp only [σ]; try clear σ)))
      | (extract_lets +onlyGivenNames σ; first | (have : Nat := σ; clear this) | (have : Bool := σ; clear this) | (have : Option Nat := σ; clear this); clear_value σ)
      | (extract_lets +onlyGivenNames σ; refine (?_ : State.Kept q o σ.2 → _) ?_; (on_goal 1 => (intro hσ; clear_value σ)); (on_goal 2 => (dsimp only [σ]; try clear σ)))
      | (extract_lets +onlyGivenNames σ; first | (have : Dram := σ; clear this) | (have : Cirrus := σ; clear this) | (have : Protection := σ; clear this) | (have : Sampler := σ; clear this) | (have : Faults := σ; clear this))
      | (extract_lets +onlyGivenNames σ; try clear_value σ)
      | split
      | refine State.wrAt_kept ?_
      | refine State.heartStop_kept ?_
      | fail_if_no_progress (refine State.Kept.same rfl rfl rfl rfl rfl rfl rfl rfl rfl ?_))

theorem State.reactRising_kept {q : List Instr} {o : List Output} {s x1} (h : State.Kept q o s) : State.Kept q o (State.reactRising s x1) := by
  unfold State.reactRising
  repeat' first
    | (with_reducible first
      | assumption
      | (extract_lets +onlyGivenNames σ; refine (?_ : State.Kept q o σ → _) ?_; (on_goal 1 => (intro hσ; clear_value σ)); (on_goal 2 => (dsimp only [σ]; try clear σ)))
      | (extract_lets +onlyGivenNames σ; first | (have : Nat := σ; clear this) | (have : Bool := σ; clear this) | (have : Option Nat := σ; clear this); clear_value σ)
      | (extract_lets +onlyGivenNames σ; refine (?_ : State.Kept q o σ.2 → _) ?_; (on_goal 1 => (intro hσ; clear_value σ)); (on_goal 2 => (dsimp only [σ]; try clear σ)))
      | (extract_lets +onlyGivenNames σ; first | (have : Dram := σ; clear this) | (have : Cirrus := σ; clear this) | (have : Protection := σ; clear this) | (have : Sampler := σ; clear this) | (have : Faults := σ; clear this))
      | (extract_lets +onlyGivenNames σ; try clear_value σ)
      | split
      | refine State.interrupt_kept ?_
      | refine State.driveErrn_kept ?_
      | fail_if_no_progress (refine State.Kept.same rfl rfl rfl rfl rfl rfl rfl rfl rfl ?_))

theorem State.reactAlways_kept {q : List Instr} {o : List Output} {s x1 x2} (h : State.Kept q o s) : State.Kept q o (State.reactAlways s x1 x2) := by
  unfold State.reactAlways
  repeat' first
    | (with_reducible first
      | assumption
      | (extract_lets +onlyGivenNames σ; refine (?_ : State.Kept q o σ → _) ?_; (on_goal 1 => (intro hσ; clear_value σ)); (on_goal 2 => (dsimp only [σ]; try clear σ)))
      | (extract_lets +onlyGivenNames σ; first | (have : Nat := σ; clear this) | (have : Bool := σ; clear this) | (have : Option Nat := σ; clear this); clear_value σ)
      | (extract_lets +onlyGivenNames σ; refine (?_ : State.Kept q o σ.2 → _) ?_; (on_goal 1 => (intro hσ; clear_value σ)); (on_goal 2 => (dsimp only [σ]; try clear σ)))
      | (extract_lets +onlyGivenNames σ; first | (have : Dram := σ; clear this) | (have : Cirrus := σ; clear this) | (have : Protection := σ; clear this) | (have : Sampler := σ; clear this) | (have : Faults := σ; clear this))
      | (extract_lets +onlyGivenNames σ; try clear_value σ)
      | split
      | refine State.interrupt_kept ?_
      | refine State.driveErrn_kept ?_
      | refine State.chipReset_kept ?_
      | fail_if_no_progress (refine State.Kept.same rfl rfl rfl rfl rfl rfl rfl rfl rfl ?_))

theorem State.raiseFor_kept {q : List Instr} {o : List Output} {s x1 x2} (h : State.Kept q o s) : State.Kept q o (State.raiseFor s x1 x2) := by
  unfold State.raiseFor
  repeat' first
    | (with_reducible first
      | assumption
      | (extract_lets +onlyGivenNames σ; refine (?_ : State.Kept q o σ → _) ?_; (on_goal 1 => (intro hσ; clear_value σ)); (on_goal 2 => (dsimp only [σ]; try clear σ)))
      | (extract_lets +onlyGivenNames σ; first | (have : Nat := σ; clear this) | (have : Bool := σ; clear this) | (have : Option Nat := σ; clear this); clear_value σ)
      | (extract_lets +onlyGivenNames σ; refine (?_ : State.Kept q o σ.2 → _) ?_; (on_goal 1 => (intro hσ; clear_value σ)); (on_goal 2 => (dsimp only [σ]; try clear σ)))
      | (extract_lets +onlyGivenNames σ; first | (have : Dram := σ; clear this) | (have : Cirrus := σ; clear this) | (have : Protection := σ; clear this) | (have : Sampler := σ; clear this) | (have : Faults := σ; clear this))
      | (extract_lets +onlyGivenNames σ; try clear_value σ)
      | split
      | refine State.capture_kept ?_
      | refine State.reactRising_kept ?_
      | refine State.reactAlways_kept ?_
      | fail_if_no_progress (refine State.Kept.same rfl rfl rfl rfl rfl rfl rfl rfl rfl ?_))

theorem State.raise_kept {q : List Instr} {o : List Output} {s x1} (h : State.Kept q o s) : State.Kept q o (State.raise s x1) := by
  unfold State.raise
  repeat' first
    | (with_reducible first
      | assumption
      | refine State.raiseFor_kept ?_
      | fail_if_no_progress (refine State.Kept.same rfl rfl rfl rfl rfl rfl rfl rfl rfl ?_))

end Sys2Proof.Machine
end

