-- ==== Sys2Proof/Laws/Events.lean ====
section
/-! SUPPORT. What each operation of Machine/Events keeps. -/

set_option linter.all false

namespace Sys2Proof.Machine

theorem State.overflow_kept {q : List Instr} {o : List Output} {s x1} (h : State.Kept q o s) : State.Kept q o (State.overflow s x1) := by
  unfold State.overflow
  repeat' first
    | (with_reducible first
      | assumption
      | (extract_lets +onlyGivenNames σ; refine (?_ : State.Kept q o σ → _) ?_; (on_goal 1 => (intro hσ; clear_value σ)); (on_goal 2 => (dsimp only [σ]; try clear σ)))
      | (extract_lets +onlyGivenNames σ; first | (have : Nat := σ; clear this) | (have : Bool := σ; clear this) | (have : Option Nat := σ; clear this); clear_value σ)
      | (extract_lets +onlyGivenNames σ; refine (?_ : State.Kept q o σ.2 → _) ?_; (on_goal 1 => (intro hσ; clear_value σ)); (on_goal 2 => (dsimp only [σ]; try clear σ)))
      | (extract_lets +onlyGivenNames σ; first | (have : Dram := σ; clear this) | (have : Cirrus := σ; clear this) | (have : Protection := σ; clear this) | (have : Sampler := σ; clear this) | (have : Faults := σ; clear this))
      | (extract_lets +onlyGivenNames σ; try clear_value σ)
      | split
      | refine State.wrAt_kept ?_
      | refine State.raise_kept ?_
      | fail_if_no_progress (refine State.Kept.same rfl rfl rfl rfl rfl rfl rfl rfl rfl ?_))

theorem State.addCounter_kept {q : List Instr} {o : List Output} {s x1 x2 x3} (h : State.Kept q o s) : State.Kept q o (State.addCounter s x1 x2 x3) := by
  induction x3 generalizing s x1 x2 with
  | zero =>
    rw [State.addCounter]
    repeat' first
      | (with_reducible first
        | assumption
        | (extract_lets +onlyGivenNames σ; first | (have : Nat := σ; clear this) | (have : Bool := σ; clear this) | (have : Option Nat := σ; clear this); clear_value σ)
        | (extract_lets +onlyGivenNames σ; refine (?_ : State.Kept q o σ.2 → _) ?_; (on_goal 1 => (intro hσ; clear_value σ)); (on_goal 2 => (dsimp only [σ]; try clear σ)))
        | (extract_lets +onlyGivenNames σ; first | (have : Dram := σ; clear this) | (have : Cirrus := σ; clear this) | (have : Protection := σ; clear this) | (have : Sampler := σ; clear this) | (have : Faults := σ; clear this))
        | (extract_lets +onlyGivenNames σ; try clear_value σ)
        | split
        | refine State.wrAt_kept ?_
        | refine State.overflow_kept ?_
        | fail_if_no_progress (refine State.Kept.same rfl rfl rfl rfl rfl rfl rfl rfl rfl ?_))
  | succ _ ih =>
    rw [State.addCounter]
    repeat' first
      | (with_reducible first
        | assumption
        | (extract_lets +onlyGivenNames σ; first | (have : Nat := σ; clear this) | (have : Bool := σ; clear this) | (have : Option Nat := σ; clear this); clear_value σ)
        | (extract_lets +onlyGivenNames σ; refine (?_ : State.Kept q o σ.2 → _) ?_; (on_goal 1 => (intro hσ; clear_value σ)); (on_goal 2 => (dsimp only [σ]; try clear σ)))
        | (extract_lets +onlyGivenNames σ; first | (have : Dram := σ; clear this) | (have : Cirrus := σ; clear this) | (have : Protection := σ; clear this) | (have : Sampler := σ; clear this) | (have : Faults := σ; clear this))
        | (extract_lets +onlyGivenNames σ; try clear_value σ)
        | split
        | refine ih ?_
        | refine State.wrAt_kept ?_
        | refine State.overflow_kept ?_
        | fail_if_no_progress (refine State.Kept.same rfl rfl rfl rfl rfl rfl rfl rfl rfl ?_))

theorem State.occur_kept {q : List Instr} {o : List Output} {s x1 x2 x3 x4} (h : State.Kept q o s) : State.Kept q o (State.occur s x1 x2 x3 x4) := by
  unfold State.occur
  repeat' first
    | (with_reducible first
      | assumption
      | intro _
      | dsimp only
      | refine State.addCounter_kept ?_
      | refine State.Kept.foldl (fun _ _ _ => ?_) ?_
      | refine State.Kept.foldlP (fun _ _ _ => ?_) ?_
      | dsimp only
      | fail_if_no_progress (refine State.Kept.same rfl rfl rfl rfl rfl rfl rfl rfl rfl ?_))

theorem State.event_kept {q : List Instr} {o : List Output} {s x1 x2} (h : State.Kept q o s) : State.Kept q o (State.event s x1 x2) := by
  unfold State.event
  repeat' first
    | (with_reducible first
      | assumption
      | refine State.occur_kept ?_
      | fail_if_no_progress (refine State.Kept.same rfl rfl rfl rfl rfl rfl rfl rfl rfl ?_))

theorem State.claimEvent_kept {q : List Instr} {o : List Output} {s x1 x2 x3} (h : State.Kept q o s) : State.Kept q o (State.claimEvent s x1 x2 x3) := by
  unfold State.claimEvent
  repeat' first
    | (with_reducible first
      | assumption
      | refine State.occur_kept ?_
      | fail_if_no_progress (refine State.Kept.same rfl rfl rfl rfl rfl rfl rfl rfl rfl ?_))

end Sys2Proof.Machine
end

