-- ==== Sys2Proof/Laws/Dram.lean ====
section
/-! SUPPORT. What each operation of Machine/Dram keeps. -/

set_option linter.all false

namespace Sys2Proof.Machine

theorem State.setChan_kept {q : List Instr} {o : List Output} {s x1 x2} (h : State.Kept q o s) : State.Kept q o (State.setChan s x1 x2) := by
  unfold State.setChan
  repeat' first
    | (with_reducible first
      | assumption
      | (extract_lets +onlyGivenNames σ; first | (have : Nat := σ; clear this) | (have : Bool := σ; clear this) | (have : Option Nat := σ; clear this); clear_value σ)
      | (extract_lets +onlyGivenNames σ; refine (?_ : State.Kept q o σ.2 → _) ?_; (on_goal 1 => (intro hσ; clear_value σ)); (on_goal 2 => (dsimp only [σ]; try clear σ)))
      | (extract_lets +onlyGivenNames σ; first | (have : Dram := σ; clear this) | (have : Cirrus := σ; clear this) | (have : Protection := σ; clear this) | (have : Sampler := σ; clear this) | (have : Faults := σ; clear this))
      | (extract_lets +onlyGivenNames σ; try clear_value σ)
      | fail_if_no_progress (refine State.Kept.same rfl rfl rfl rfl rfl rfl rfl rfl rfl ?_))

theorem State.zeroLines_kept {q : List Instr} {o : List Output} {s line n} (h : State.Kept q o s) : State.Kept q o (State.zeroLines s line n) := by
  unfold State.zeroLines
  extract_lets c ch s1
  have h1 : State.Kept q o s1 := State.setChan_kept h
  clear_value s1
  exact State.Kept.same (s := { s1 with dram := { s1.dram with mem := clearCells s1.dram.mem (line * 64) (n * 64) } })
    rfl rfl rfl rfl rfl rfl rfl rfl rfl (h1.dram (Memory.wf_clear _ _ h1.sound.memory))

theorem State.takeFrame_kept {q : List Instr} {o : List Output} {s use} (h : State.Kept q o s) : KeptP q o (State.takeFrame s use) := by
  unfold State.takeFrame
  split
  · exact KeptP.none
  · split
    · exact KeptP.none
    · extract_lets f mfn p1 d
      split
      · refine KeptP.some (State.zeroLines_kept (h.dram ?_))
        have hd : d.mem = s.dram.mem := by dsimp only [d]; split <;> rfl
        show Memory.wf d.mem = true
        rw [hd]
        exact h.sound.memory
      · exact KeptP.none

theorem State.giveFrame_kept {q : List Instr} {o : List Output} {s x1} (h : State.Kept q o s) : State.Kept q o (State.giveFrame s x1) := by
  unfold State.giveFrame
  repeat' first
    | (with_reducible first
      | assumption
      | (extract_lets +onlyGivenNames σ; first | (have : Nat := σ; clear this) | (have : Bool := σ; clear this) | (have : Option Nat := σ; clear this); clear_value σ)
      | (extract_lets +onlyGivenNames σ; refine (?_ : State.Kept q o σ.2 → _) ?_; (on_goal 1 => (intro hσ; clear_value σ)); (on_goal 2 => (dsimp only [σ]; try clear σ)))
      | (extract_lets +onlyGivenNames σ; first | (have : Dram := σ; clear this) | (have : Cirrus := σ; clear this) | (have : Protection := σ; clear this) | (have : Sampler := σ; clear this) | (have : Faults := σ; clear this))
      | (extract_lets +onlyGivenNames σ; try clear_value σ)
      | fail_if_no_progress (refine State.Kept.same rfl rfl rfl rfl rfl rfl rfl rfl rfl ?_))

theorem State.setByte_kept {q : List Instr} {o : List Output} {s a b} (h : State.Kept q o s) : State.Kept q o (State.setByte s a b) := h.dram (Memory.wf_set _ _ h.sound.memory)

theorem State.setBytes_kept {q : List Instr} {o : List Output} {s x1 x2} (h : State.Kept q o s) : State.Kept q o (State.setBytes s x1 x2) := by
  induction x2 generalizing s x1 with
  | nil =>
    rw [State.setBytes]
    repeat' first
      | (with_reducible first
        | assumption
        | split
        | refine State.setByte_kept ?_
        | fail_if_no_progress (refine State.Kept.same rfl rfl rfl rfl rfl rfl rfl rfl rfl ?_))
  | cons _ _ ih =>
    rw [State.setBytes]
    repeat' first
      | (with_reducible first
        | assumption
        | split
        | refine ih ?_
        | refine State.setByte_kept ?_
        | fail_if_no_progress (refine State.Kept.same rfl rfl rfl rfl rfl rfl rfl rfl rfl ?_))

theorem State.storeLine_kept {q : List Instr} {o : List Output} {s x1 x2 x3} (h : State.Kept q o s) : State.Kept q o (State.storeLine s x1 x2 x3) := by
  unfold State.storeLine
  repeat' first
    | (with_reducible first
      | assumption
      | (extract_lets +onlyGivenNames σ; refine (?_ : State.Kept q o σ → _) ?_; (on_goal 1 => (intro hσ; clear_value σ)); (on_goal 2 => (dsimp only [σ]; try clear σ)))
      | (extract_lets +onlyGivenNames σ; first | (have : Nat := σ; clear this) | (have : Bool := σ; clear this) | (have : Option Nat := σ; clear this); clear_value σ)
      | (extract_lets +onlyGivenNames σ; refine (?_ : State.Kept q o σ.2 → _) ?_; (on_goal 1 => (intro hσ; clear_value σ)); (on_goal 2 => (dsimp only [σ]; try clear σ)))
      | (extract_lets +onlyGivenNames σ; first | (have : Dram := σ; clear this) | (have : Cirrus := σ; clear this) | (have : Protection := σ; clear this) | (have : Sampler := σ; clear this) | (have : Faults := σ; clear this))
      | (extract_lets +onlyGivenNames σ; try clear_value σ)
      | split
      | refine State.setBytes_kept ?_
      | fail_if_no_progress (refine State.Kept.same rfl rfl rfl rfl rfl rfl rfl rfl rfl ?_))

theorem State.recordCmd_kept {q : List Instr} {o : List Output} {s x1 x2 x3 x4 x5 x6} (h : State.Kept q o s) : State.Kept q o (State.recordCmd s x1 x2 x3 x4 x5 x6) := by
  unfold State.recordCmd
  repeat' first
    | (with_reducible first
      | assumption
      | (extract_lets +onlyGivenNames σ; first | (have : Nat := σ; clear this) | (have : Bool := σ; clear this) | (have : Option Nat := σ; clear this); clear_value σ)
      | (extract_lets +onlyGivenNames σ; refine (?_ : State.Kept q o σ.2 → _) ?_; (on_goal 1 => (intro hσ; clear_value σ)); (on_goal 2 => (dsimp only [σ]; try clear σ)))
      | (extract_lets +onlyGivenNames σ; first | (have : Dram := σ; clear this) | (have : Cirrus := σ; clear this) | (have : Protection := σ; clear this) | (have : Sampler := σ; clear this) | (have : Faults := σ; clear this))
      | (extract_lets +onlyGivenNames σ; try clear_value σ)
      | refine State.setChan_kept ?_
      | fail_if_no_progress (refine State.Kept.same rfl rfl rfl rfl rfl rfl rfl rfl rfl ?_))

theorem State.issue_kept {q : List Instr} {o : List Output} {s x1 x2 x3} (h : State.Kept q o s) : State.Kept q o (State.issue s x1 x2 x3) := by
  unfold State.issue
  repeat' first
    | (with_reducible first
      | assumption
      | (extract_lets +onlyGivenNames σ; refine (?_ : State.Kept q o σ → _) ?_; (on_goal 1 => (intro hσ; clear_value σ)); (on_goal 2 => (dsimp only [σ]; try clear σ)))
      | (extract_lets +onlyGivenNames σ; first | (have : Nat := σ; clear this) | (have : Bool := σ; clear this) | (have : Option Nat := σ; clear this); clear_value σ)
      | (extract_lets +onlyGivenNames σ; refine (?_ : State.Kept q o σ.2 → _) ?_; (on_goal 1 => (intro hσ; clear_value σ)); (on_goal 2 => (dsimp only [σ]; try clear σ)))
      | (extract_lets +onlyGivenNames σ; first | (have : Dram := σ; clear this) | (have : Cirrus := σ; clear this) | (have : Protection := σ; clear this) | (have : Sampler := σ; clear this) | (have : Faults := σ; clear this))
      | (extract_lets +onlyGivenNames σ; try clear_value σ)
      | split
      | refine State.recordCmd_kept ?_
      | refine State.setChan_kept ?_
      | refine State.event_kept ?_
      | fail_if_no_progress (refine State.Kept.same rfl rfl rfl rfl rfl rfl rfl rfl rfl ?_))

theorem State.drain_kept {q : List Instr} {o : List Output} {s x1 x2} (h : State.Kept q o s) : State.Kept q o (State.drain s x1 x2) := by
  induction x2 generalizing s x1 with
  | zero =>
    rw [State.drain]
    repeat' first
      | (with_reducible first
        | assumption
        | (extract_lets +onlyGivenNames σ; first | (have : Nat := σ; clear this) | (have : Bool := σ; clear this) | (have : Option Nat := σ; clear this); clear_value σ)
        | (extract_lets +onlyGivenNames σ; refine (?_ : State.Kept q o σ.2 → _) ?_; (on_goal 1 => (intro hσ; clear_value σ)); (on_goal 2 => (dsimp only [σ]; try clear σ)))
        | (extract_lets +onlyGivenNames σ; first | (have : Dram := σ; clear this) | (have : Cirrus := σ; clear this) | (have : Protection := σ; clear this) | (have : Sampler := σ; clear this) | (have : Faults := σ; clear this))
        | (extract_lets +onlyGivenNames σ; try clear_value σ)
        | split
        | refine State.issue_kept ?_
        | refine State.storeLine_kept ?_
        | refine State.setChan_kept ?_
        | fail_if_no_progress (refine State.Kept.same rfl rfl rfl rfl rfl rfl rfl rfl rfl ?_))
  | succ _ ih =>
    rw [State.drain]
    repeat' first
      | (with_reducible first
        | assumption
        | (extract_lets +onlyGivenNames σ; first | (have : Nat := σ; clear this) | (have : Bool := σ; clear this) | (have : Option Nat := σ; clear this); clear_value σ)
        | (extract_lets +onlyGivenNames σ; refine (?_ : State.Kept q o σ.2 → _) ?_; (on_goal 1 => (intro hσ; clear_value σ)); (on_goal 2 => (dsimp only [σ]; try clear σ)))
        | (extract_lets +onlyGivenNames σ; first | (have : Dram := σ; clear this) | (have : Cirrus := σ; clear this) | (have : Protection := σ; clear this) | (have : Sampler := σ; clear this) | (have : Faults := σ; clear this))
        | (extract_lets +onlyGivenNames σ; try clear_value σ)
        | split
        | refine ih ?_
        | refine State.issue_kept ?_
        | refine State.storeLine_kept ?_
        | refine State.setChan_kept ?_
        | fail_if_no_progress (refine State.Kept.same rfl rfl rfl rfl rfl rfl rfl rfl rfl ?_))

theorem State.queueWrite_kept {q : List Instr} {o : List Output} {s x1 x2 x3 x4} (h : State.Kept q o s) : State.Kept q o (State.queueWrite s x1 x2 x3 x4) := by
  unfold State.queueWrite
  repeat' first
    | (with_reducible first
      | assumption
      | (extract_lets +onlyGivenNames σ; refine (?_ : State.Kept q o σ → _) ?_; (on_goal 1 => (intro hσ; clear_value σ)); (on_goal 2 => (dsimp only [σ]; try clear σ)))
      | (extract_lets +onlyGivenNames σ; first | (have : Nat := σ; clear this) | (have : Bool := σ; clear this) | (have : Option Nat := σ; clear this); clear_value σ)
      | (extract_lets +onlyGivenNames σ; refine (?_ : State.Kept q o σ.2 → _) ?_; (on_goal 1 => (intro hσ; clear_value σ)); (on_goal 2 => (dsimp only [σ]; try clear σ)))
      | (extract_lets +onlyGivenNames σ; first | (have : Dram := σ; clear this) | (have : Cirrus := σ; clear this) | (have : Protection := σ; clear this) | (have : Sampler := σ; clear this) | (have : Faults := σ; clear this))
      | (extract_lets +onlyGivenNames σ; try clear_value σ)
      | split
      | refine State.event_kept ?_
      | refine State.setChan_kept ?_
      | refine State.drain_kept ?_
      | fail_if_no_progress (refine State.Kept.same rfl rfl rfl rfl rfl rfl rfl rfl rfl ?_))

end Sys2Proof.Machine
end

