-- ==== Sys2Proof/Laws/Regulator.lean ====
section
/-! SUPPORT. What each operation of Machine/Regulator keeps. -/

set_option linter.all false

namespace Sys2Proof.Machine

theorem State.hostStatus_kept {q : List Instr} {o : List Output} {s x1} (h : State.Kept q o s) : State.Kept q o (State.hostStatus s x1) := by
  unfold State.hostStatus
  repeat' first
    | (with_reducible first
      | assumption
      | (extract_lets +onlyGivenNames σ; refine (?_ : State.Kept q o σ → _) ?_; (on_goal 1 => (intro hσ; clear_value σ)); (on_goal 2 => (dsimp only [σ]; try clear σ)))
      | (extract_lets +onlyGivenNames σ; first | (have : Nat := σ; clear this) | (have : Bool := σ; clear this) | (have : Option Nat := σ; clear this); clear_value σ)
      | (extract_lets +onlyGivenNames σ; refine (?_ : State.Kept q o σ.2 → _) ?_; (on_goal 1 => (intro hσ; clear_value σ)); (on_goal 2 => (dsimp only [σ]; try clear σ)))
      | (extract_lets +onlyGivenNames σ; first | (have : Dram := σ; clear this) | (have : Cirrus := σ; clear this) | (have : Protection := σ; clear this) | (have : Sampler := σ; clear this) | (have : Faults := σ; clear this))
      | (extract_lets +onlyGivenNames σ; try clear_value σ)
      | split
      | refine State.wrAt_kept ?_
      | fail_if_no_progress (refine State.Kept.same rfl rfl rfl rfl rfl rfl rfl rfl rfl ?_))

theorem State.takeUnits_kept {q : List Instr} {o : List Output} {s m n} (h : State.Kept q o s) : State.Kept q o (State.takeUnits s m n) := by
  unfold State.takeUnits
  extract_lets s1 p s2
  have h1 : State.Kept q o s1 := State.occur_kept (State.wrAt_kept h)
  have h2 : State.Kept q o s2 := h1.dram h1.sound.memory
  by_cases hr : s2.profile QOS_BUCKET.RATE m = 0
  · rw [if_pos hr]; exact h2
  · rw [if_neg hr]; exact State.subAt_kept h2

theorem State.holdUnits_kept {q : List Instr} {o : List Output} {s x1 x2} (h : State.Kept q o s) : State.Kept q o (State.holdUnits s x1 x2) := by
  unfold State.holdUnits
  repeat' first
    | (with_reducible first
      | assumption
      | refine State.occur_kept ?_
      | refine State.putAt_kept ?_
      | fail_if_no_progress (refine State.Kept.same rfl rfl rfl rfl rfl rfl rfl rfl rfl ?_))

theorem State.showPanic_kept {q : List Instr} {o : List Output} {s x1 x2} (h : State.Kept q o s) : State.Kept q o (State.showPanic s x1 x2) := by
  unfold State.showPanic
  repeat' first
    | (with_reducible first
      | assumption
      | intro _
      | (extract_lets +onlyGivenNames σ; refine (?_ : State.Kept q o σ → _) ?_; (on_goal 1 => (intro hσ; clear_value σ)); (on_goal 2 => (dsimp only [σ]; try clear σ)))
      | (extract_lets +onlyGivenNames σ; first | (have : Nat := σ; clear this) | (have : Bool := σ; clear this) | (have : Option Nat := σ; clear this); clear_value σ)
      | (extract_lets +onlyGivenNames σ; refine (?_ : State.Kept q o σ.2 → _) ?_; (on_goal 1 => (intro hσ; clear_value σ)); (on_goal 2 => (dsimp only [σ]; try clear σ)))
      | (extract_lets +onlyGivenNames σ; first | (have : Dram := σ; clear this) | (have : Cirrus := σ; clear this) | (have : Protection := σ; clear this) | (have : Sampler := σ; clear this) | (have : Faults := σ; clear this))
      | (extract_lets +onlyGivenNames σ; try clear_value σ)
      | dsimp only
      | split
      | refine State.wr_kept ?_
      | refine State.putAt_kept ?_
      | refine State.Kept.foldl (fun _ _ _ => ?_) ?_
      | refine State.Kept.foldlP (fun _ _ _ => ?_) ?_
      | dsimp only
      | fail_if_no_progress (refine State.Kept.same rfl rfl rfl rfl rfl rfl rfl rfl rfl ?_))

theorem State.writeSample_kept {q : List Instr} {o : List Output} {s x} (h : State.Kept q o s) : State.Kept q o (State.writeSample s x) := by
  unfold State.writeSample
  extract_lets early
  split
  · exact State.event_kept (State.inc_kept h)
  · rename_i k n held p s1 s2 _
    have h2 : State.Kept q o s2 :=
      State.event_kept (State.wr_kept (State.wr_kept (h.smp (show min _ sampleCount ≤ sampleCount from Nat.min_le_right _ _))))
    clear_value s2
    split
    · exact State.raise_kept (State.put_kept h2)
    · exact h2

theorem State.sample_kept {q : List Instr} {o : List Output} {s x1 x2} (h : State.Kept q o s) : State.Kept q o (State.sample s x1 x2) := by
  unfold State.sample
  repeat' first
    | (with_reducible first
      | assumption
      | (extract_lets +onlyGivenNames σ; refine (?_ : State.Kept q o σ → _) ?_; (on_goal 1 => (intro hσ; clear_value σ)); (on_goal 2 => (dsimp only [σ]; try clear σ)))
      | (extract_lets +onlyGivenNames σ; first | (have : Nat := σ; clear this) | (have : Bool := σ; clear this) | (have : Option Nat := σ; clear this); clear_value σ)
      | (extract_lets +onlyGivenNames σ; refine (?_ : State.Kept q o σ.2 → _) ?_; (on_goal 1 => (intro hσ; clear_value σ)); (on_goal 2 => (dsimp only [σ]; try clear σ)))
      | (extract_lets +onlyGivenNames σ; first | (have : Dram := σ; clear this) | (have : Cirrus := σ; clear this) | (have : Protection := σ; clear this) | (have : Sampler := σ; clear this) | (have : Faults := σ; clear this))
      | (extract_lets +onlyGivenNames σ; try clear_value σ)
      | split
      | refine State.writeSample_kept ?_
      | fail_if_no_progress (refine State.Kept.same rfl rfl rfl rfl rfl rfl rfl rfl rfl ?_))

end Sys2Proof.Machine
end

