-- ==== Sys2Proof/Laws/Media.lean ====
section
/-! SUPPORT. What each operation of Machine/Media keeps. -/

set_option linter.all false

namespace Sys2Proof.Machine

theorem State.poisonStatus_kept {q : List Instr} {o : List Output} {s} (h : State.Kept q o s) : State.Kept q o (State.poisonStatus s) := by
  unfold State.poisonStatus
  repeat' first
    | (with_reducible first
      | assumption
      | (extract_lets +onlyGivenNames σ; refine (?_ : State.Kept q o σ → _) ?_; (on_goal 1 => (intro hσ; clear_value σ)); (on_goal 2 => (dsimp only [σ]; try clear σ)))
      | (extract_lets +onlyGivenNames σ; first | (have : Nat := σ; clear this) | (have : Bool := σ; clear this) | (have : Option Nat := σ; clear this); clear_value σ)
      | (extract_lets +onlyGivenNames σ; refine (?_ : State.Kept q o σ.2 → _) ?_; (on_goal 1 => (intro hσ; clear_value σ)); (on_goal 2 => (dsimp only [σ]; try clear σ)))
      | (extract_lets +onlyGivenNames σ; first | (have : Dram := σ; clear this) | (have : Cirrus := σ; clear this) | (have : Protection := σ; clear this) | (have : Sampler := σ; clear this) | (have : Faults := σ; clear this))
      | (extract_lets +onlyGivenNames σ; try clear_value σ)
      | split
      | refine State.put_kept ?_
      | refine State.wr_kept ?_
      | fail_if_no_progress (refine State.Kept.same rfl rfl rfl rfl rfl rfl rfl rfl rfl ?_))

theorem State.poisonOverflow_kept {q : List Instr} {o : List Output} {s} (h : State.Kept q o s) : State.Kept q o (State.poisonOverflow s) := by
  unfold State.poisonOverflow
  repeat' first
    | (with_reducible first
      | assumption
      | split
      | refine State.wr_kept ?_
      | refine State.put_kept ?_
      | fail_if_no_progress (refine State.Kept.same rfl rfl rfl rfl rfl rfl rfl rfl rfl ?_))

theorem State.poisonLine_kept {q : List Instr} {o : List Output} {s x1 x2 x3} (h : State.Kept q o s) : State.Kept q o (State.poisonLine s x1 x2 x3) := by
  unfold State.poisonLine
  repeat' first
    | (with_reducible first
      | assumption
      | (extract_lets +onlyGivenNames σ; refine (?_ : State.Kept q o σ → _) ?_; (on_goal 1 => (intro hσ; clear_value σ)); (on_goal 2 => (dsimp only [σ]; try clear σ)))
      | (extract_lets +onlyGivenNames σ; first | (have : Nat := σ; clear this) | (have : Bool := σ; clear this) | (have : Option Nat := σ; clear this); clear_value σ)
      | (extract_lets +onlyGivenNames σ; refine (?_ : State.Kept q o σ.2 → _) ?_; (on_goal 1 => (intro hσ; clear_value σ)); (on_goal 2 => (dsimp only [σ]; try clear σ)))
      | (extract_lets +onlyGivenNames σ; first | (have : Dram := σ; clear this) | (have : Cirrus := σ; clear this) | (have : Protection := σ; clear this) | (have : Sampler := σ; clear this) | (have : Faults := σ; clear this))
      | (extract_lets +onlyGivenNames σ; try clear_value σ)
      | split
      | refine State.event_kept ?_
      | refine State.poisonStatus_kept ?_
      | refine State.poisonOverflow_kept ?_
      | refine State.inc_kept ?_
      | fail_if_no_progress (refine State.Kept.same rfl rfl rfl rfl rfl rfl rfl rfl rfl ?_))

theorem State.poisonPending_kept {q : List Instr} {o : List Output} {s x1} (h : State.Kept q o s) : State.Kept q o (State.poisonPending s x1) := by
  unfold State.poisonPending
  repeat' first
    | (with_reducible first
      | assumption
      | (extract_lets +onlyGivenNames σ; first | (have : Nat := σ; clear this) | (have : Bool := σ; clear this) | (have : Option Nat := σ; clear this); clear_value σ)
      | (extract_lets +onlyGivenNames σ; refine (?_ : State.Kept q o σ.2 → _) ?_; (on_goal 1 => (intro hσ; clear_value σ)); (on_goal 2 => (dsimp only [σ]; try clear σ)))
      | (extract_lets +onlyGivenNames σ; first | (have : Dram := σ; clear this) | (have : Cirrus := σ; clear this) | (have : Protection := σ; clear this) | (have : Sampler := σ; clear this) | (have : Faults := σ; clear this))
      | (extract_lets +onlyGivenNames σ; try clear_value σ)
      | split
      | refine State.poisonStatus_kept ?_
      | refine State.poisonOverflow_kept ?_
      | fail_if_no_progress (refine State.Kept.same rfl rfl rfl rfl rfl rfl rfl rfl rfl ?_))

theorem State.unpoison_kept {q : List Instr} {o : List Output} {s x1} (h : State.Kept q o s) : State.Kept q o (State.unpoison s x1) := by
  unfold State.unpoison
  repeat' first
    | (with_reducible first
      | assumption
      | (extract_lets +onlyGivenNames σ; first | (have : Nat := σ; clear this) | (have : Bool := σ; clear this) | (have : Option Nat := σ; clear this); clear_value σ)
      | (extract_lets +onlyGivenNames σ; refine (?_ : State.Kept q o σ.2 → _) ?_; (on_goal 1 => (intro hσ; clear_value σ)); (on_goal 2 => (dsimp only [σ]; try clear σ)))
      | (extract_lets +onlyGivenNames σ; first | (have : Dram := σ; clear this) | (have : Cirrus := σ; clear this) | (have : Protection := σ; clear this) | (have : Sampler := σ; clear this) | (have : Faults := σ; clear this))
      | (extract_lets +onlyGivenNames σ; try clear_value σ)
      | split
      | refine State.event_kept ?_
      | refine State.poisonStatus_kept ?_
      | fail_if_no_progress (refine State.Kept.same rfl rfl rfl rfl rfl rfl rfl rfl rfl ?_))

theorem State.unpoisonRange_kept {q : List Instr} {o : List Output} {s x1 x2} (h : State.Kept q o s) : State.Kept q o (State.unpoisonRange s x1 x2) := by
  unfold State.unpoisonRange
  repeat' first
    | (with_reducible first
      | assumption
      | (extract_lets +onlyGivenNames σ; first | (have : Nat := σ; clear this) | (have : Bool := σ; clear this) | (have : Option Nat := σ; clear this); clear_value σ)
      | (extract_lets +onlyGivenNames σ; refine (?_ : State.Kept q o σ.2 → _) ?_; (on_goal 1 => (intro hσ; clear_value σ)); (on_goal 2 => (dsimp only [σ]; try clear σ)))
      | (extract_lets +onlyGivenNames σ; first | (have : Dram := σ; clear this) | (have : Cirrus := σ; clear this) | (have : Protection := σ; clear this) | (have : Sampler := σ; clear this) | (have : Faults := σ; clear this))
      | (extract_lets +onlyGivenNames σ; try clear_value σ)
      | refine State.occur_kept ?_
      | refine State.poisonStatus_kept ?_
      | fail_if_no_progress (refine State.Kept.same rfl rfl rfl rfl rfl rfl rfl rfl rfl ?_))

theorem State.settlePending_kept {q : List Instr} {o : List Output} {s x1 x2} (h : State.Kept q o s) : State.Kept q o (State.settlePending s x1 x2) := by
  unfold State.settlePending
  repeat' first
    | (with_reducible first
      | assumption
      | (extract_lets +onlyGivenNames σ; first | (have : Nat := σ; clear this) | (have : Bool := σ; clear this) | (have : Option Nat := σ; clear this); clear_value σ)
      | (extract_lets +onlyGivenNames σ; refine (?_ : State.Kept q o σ.2 → _) ?_; (on_goal 1 => (intro hσ; clear_value σ)); (on_goal 2 => (dsimp only [σ]; try clear σ)))
      | (extract_lets +onlyGivenNames σ; first | (have : Dram := σ; clear this) | (have : Cirrus := σ; clear this) | (have : Protection := σ; clear this) | (have : Sampler := σ; clear this) | (have : Faults := σ; clear this))
      | (extract_lets +onlyGivenNames σ; try clear_value σ)
      | split
      | refine State.poisonStatus_kept ?_
      | fail_if_no_progress (refine State.Kept.same rfl rfl rfl rfl rfl rfl rfl rfl rfl ?_))

theorem State.setMark_kept {q : List Instr} {o : List Output} {s x1 x2 x3 x4} (h : State.Kept q o s) : State.Kept q o (State.setMark s x1 x2 x3 x4) := by
  unfold State.setMark
  repeat' first
    | (with_reducible first
      | assumption
      | (extract_lets +onlyGivenNames σ; first | (have : Nat := σ; clear this) | (have : Bool := σ; clear this) | (have : Option Nat := σ; clear this); clear_value σ)
      | (extract_lets +onlyGivenNames σ; refine (?_ : State.Kept q o σ.2 → _) ?_; (on_goal 1 => (intro hσ; clear_value σ)); (on_goal 2 => (dsimp only [σ]; try clear σ)))
      | (extract_lets +onlyGivenNames σ; first | (have : Dram := σ; clear this) | (have : Cirrus := σ; clear this) | (have : Protection := σ; clear this) | (have : Sampler := σ; clear this) | (have : Faults := σ; clear this))
      | (extract_lets +onlyGivenNames σ; try clear_value σ)
      | refine State.wrAt_kept ?_
      | fail_if_no_progress (refine State.Kept.same rfl rfl rfl rfl rfl rfl rfl rfl rfl ?_))

theorem State.flagRow_kept {q : List Instr} {o : List Output} {s x1} (h : State.Kept q o s) : State.Kept q o (State.flagRow s x1) := by
  unfold State.flagRow
  repeat' first
    | (with_reducible first
      | assumption
      | split
      | refine State.putAt_kept ?_
      | fail_if_no_progress (refine State.Kept.same rfl rfl rfl rfl rfl rfl rfl rfl rfl ?_))

theorem State.logCorrection_kept {q : List Instr} {o : List Output} {s x1 x2 x3} (h : State.Kept q o s) : State.Kept q o (State.logCorrection s x1 x2 x3) := by
  unfold State.logCorrection
  repeat' first
    | (with_reducible first
      | assumption
      | (extract_lets +onlyGivenNames σ; refine (?_ : State.Kept q o σ → _) ?_; (on_goal 1 => (intro hσ; clear_value σ)); (on_goal 2 => (dsimp only [σ]; try clear σ)))
      | (extract_lets +onlyGivenNames σ; first | (have : Nat := σ; clear this) | (have : Bool := σ; clear this) | (have : Option Nat := σ; clear this); clear_value σ)
      | (extract_lets +onlyGivenNames σ; refine (?_ : State.Kept q o σ.2 → _) ?_; (on_goal 1 => (intro hσ; clear_value σ)); (on_goal 2 => (dsimp only [σ]; try clear σ)))
      | (extract_lets +onlyGivenNames σ; first | (have : Dram := σ; clear this) | (have : Cirrus := σ; clear this) | (have : Protection := σ; clear this) | (have : Sampler := σ; clear this) | (have : Faults := σ; clear this))
      | (extract_lets +onlyGivenNames σ; try clear_value σ)
      | split
      | refine State.flagRow_kept ?_
      | refine State.wrAt_kept ?_
      | refine State.incAt_kept ?_
      | refine State.inc_kept ?_
      | refine State.putAt_kept ?_
      | fail_if_no_progress (refine State.Kept.same rfl rfl rfl rfl rfl rfl rfl rfl rfl ?_))

theorem State.markDevice_kept {q : List Instr} {o : List Output} {s x1 x2 x3} (h : State.Kept q o s) : State.Kept q o (State.markDevice s x1 x2 x3) := by
  unfold State.markDevice
  repeat' first
    | (with_reducible first
      | assumption
      | (extract_lets +onlyGivenNames σ; first | (have : Nat := σ; clear this) | (have : Bool := σ; clear this) | (have : Option Nat := σ; clear this); clear_value σ)
      | (extract_lets +onlyGivenNames σ; refine (?_ : State.Kept q o σ.2 → _) ?_; (on_goal 1 => (intro hσ; clear_value σ)); (on_goal 2 => (dsimp only [σ]; try clear σ)))
      | (extract_lets +onlyGivenNames σ; first | (have : Dram := σ; clear this) | (have : Cirrus := σ; clear this) | (have : Protection := σ; clear this) | (have : Sampler := σ; clear this) | (have : Faults := σ; clear this))
      | (extract_lets +onlyGivenNames σ; try clear_value σ)
      | split
      | refine State.setMark_kept ?_
      | fail_if_no_progress (refine State.Kept.same rfl rfl rfl rfl rfl rfl rfl rfl rfl ?_))

theorem State.corrected_kept {q : List Instr} {o : List Output} {s x1 x2} (h : State.Kept q o s) : State.Kept q o (State.corrected s x1 x2) := by
  unfold State.corrected
  repeat' first
    | (with_reducible first
      | assumption
      | (extract_lets +onlyGivenNames σ; refine (?_ : State.Kept q o σ → _) ?_; (on_goal 1 => (intro hσ; clear_value σ)); (on_goal 2 => (dsimp only [σ]; try clear σ)))
      | (extract_lets +onlyGivenNames σ; first | (have : Nat := σ; clear this) | (have : Bool := σ; clear this) | (have : Option Nat := σ; clear this); clear_value σ)
      | (extract_lets +onlyGivenNames σ; refine (?_ : State.Kept q o σ.2 → _) ?_; (on_goal 1 => (intro hσ; clear_value σ)); (on_goal 2 => (dsimp only [σ]; try clear σ)))
      | (extract_lets +onlyGivenNames σ; first | (have : Dram := σ; clear this) | (have : Cirrus := σ; clear this) | (have : Protection := σ; clear this) | (have : Sampler := σ; clear this) | (have : Faults := σ; clear this))
      | (extract_lets +onlyGivenNames σ; try clear_value σ)
      | split
      | refine State.issue_kept ?_
      | refine State.event_kept ?_
      | refine State.takeUnits_kept ?_
      | refine State.markDevice_kept ?_
      | refine State.logCorrection_kept ?_
      | fail_if_no_progress (refine State.Kept.same rfl rfl rfl rfl rfl rfl rfl rfl rfl ?_))

theorem State.noteFreeze_kept {q : List Instr} {o : List Output} {s x1 x2} (h : State.Kept q o s) : State.Kept q o (State.noteFreeze s x1 x2) := by
  unfold State.noteFreeze
  repeat' first
    | (with_reducible first
      | assumption
      | (extract_lets +onlyGivenNames σ; first | (have : Nat := σ; clear this) | (have : Bool := σ; clear this) | (have : Option Nat := σ; clear this); clear_value σ)
      | (extract_lets +onlyGivenNames σ; refine (?_ : State.Kept q o σ.2 → _) ?_; (on_goal 1 => (intro hσ; clear_value σ)); (on_goal 2 => (dsimp only [σ]; try clear σ)))
      | (extract_lets +onlyGivenNames σ; first | (have : Dram := σ; clear this) | (have : Cirrus := σ; clear this) | (have : Protection := σ; clear this) | (have : Sampler := σ; clear this) | (have : Faults := σ; clear this))
      | (extract_lets +onlyGivenNames σ; try clear_value σ)
      | split
      | refine State.setChan_kept ?_
      | fail_if_no_progress (refine State.Kept.same rfl rfl rfl rfl rfl rfl rfl rfl rfl ?_))

theorem State.startSparing_kept {q : List Instr} {o : List Output} {s x1 x2} (h : State.Kept q o s) : State.Kept q o (State.startSparing s x1 x2) := by
  unfold State.startSparing
  repeat' first
    | (with_reducible first
      | assumption
      | (extract_lets +onlyGivenNames σ; refine (?_ : State.Kept q o σ → _) ?_; (on_goal 1 => (intro hσ; clear_value σ)); (on_goal 2 => (dsimp only [σ]; try clear σ)))
      | (extract_lets +onlyGivenNames σ; first | (have : Nat := σ; clear this) | (have : Bool := σ; clear this) | (have : Option Nat := σ; clear this); clear_value σ)
      | (extract_lets +onlyGivenNames σ; refine (?_ : State.Kept q o σ.2 → _) ?_; (on_goal 1 => (intro hσ; clear_value σ)); (on_goal 2 => (dsimp only [σ]; try clear σ)))
      | (extract_lets +onlyGivenNames σ; first | (have : Dram := σ; clear this) | (have : Cirrus := σ; clear this) | (have : Protection := σ; clear this) | (have : Sampler := σ; clear this) | (have : Faults := σ; clear this))
      | (extract_lets +onlyGivenNames σ; try clear_value σ)
      | refine State.setChan_kept ?_
      | refine State.wrAt_kept ?_
      | fail_if_no_progress (refine State.Kept.same rfl rfl rfl rfl rfl rfl rfl rfl rfl ?_))

theorem State.ueFound_kept {q : List Instr} {o : List Output} {s x1} (h : State.Kept q o s) : State.Kept q o (State.ueFound s x1) := by
  unfold State.ueFound
  repeat' first
    | (with_reducible first
      | assumption
      | (extract_lets +onlyGivenNames σ; refine (?_ : State.Kept q o σ → _) ?_; (on_goal 1 => (intro hσ; clear_value σ)); (on_goal 2 => (dsimp only [σ]; try clear σ)))
      | (extract_lets +onlyGivenNames σ; first | (have : Nat := σ; clear this) | (have : Bool := σ; clear this) | (have : Option Nat := σ; clear this); clear_value σ)
      | (extract_lets +onlyGivenNames σ; refine (?_ : State.Kept q o σ.2 → _) ?_; (on_goal 1 => (intro hσ; clear_value σ)); (on_goal 2 => (dsimp only [σ]; try clear σ)))
      | (extract_lets +onlyGivenNames σ; first | (have : Dram := σ; clear this) | (have : Cirrus := σ; clear this) | (have : Protection := σ; clear this) | (have : Sampler := σ; clear this) | (have : Faults := σ; clear this))
      | (extract_lets +onlyGivenNames σ; try clear_value σ)
      | dsimp only
      | split
      | refine State.raise_kept ?_
      | refine State.event_kept ?_
      | refine State.incAt_kept ?_
      | refine State.setChan_kept ?_
      | refine State.startSparing_kept ?_
      | refine State.noteFreeze_kept ?_
      | refine KeptO.mapP ?_ (fun _ _ _ => ?_)
      | refine KeptO.map ?_ (fun _ _ => ?_)
      | refine KeptP.mapP ?_ (fun _ _ _ => ?_)
      | dsimp only
      | fail_if_no_progress (refine State.Kept.same rfl rfl rfl rfl rfl rfl rfl rfl rfl ?_))

theorem State.macFail_kept {q : List Instr} {o : List Output} {s} (h : State.Kept q o s) : State.Kept q o (State.macFail s) := by
  unfold State.macFail
  repeat' first
    | (with_reducible first
      | assumption
      | refine State.raise_kept ?_
      | refine State.event_kept ?_
      | refine State.inc_kept ?_
      | fail_if_no_progress (refine State.Kept.same rfl rfl rfl rfl rfl rfl rfl rfl rfl ?_))

theorem State.readMedia_kept {q : List Instr} {o : List Output} {s x1 x2 x3} (h : State.Kept q o s) : State.Kept q o (State.readMedia s x1 x2 x3).2 := by
  unfold State.readMedia
  repeat' first
    | (with_reducible first
      | assumption
      | (extract_lets +onlyGivenNames σ; refine (?_ : State.Kept q o σ → _) ?_; (on_goal 1 => (intro hσ; clear_value σ)); (on_goal 2 => (dsimp only [σ]; try clear σ)))
      | (extract_lets +onlyGivenNames σ; first | (have : Nat := σ; clear this) | (have : Bool := σ; clear this) | (have : Option Nat := σ; clear this); clear_value σ)
      | (extract_lets +onlyGivenNames σ; refine (?_ : State.Kept q o σ.2 → _) ?_; (on_goal 1 => (intro hσ; clear_value σ)); (on_goal 2 => (dsimp only [σ]; try clear σ)))
      | (extract_lets +onlyGivenNames σ; first | (have : Dram := σ; clear this) | (have : Cirrus := σ; clear this) | (have : Protection := σ; clear this) | (have : Sampler := σ; clear this) | (have : Faults := σ; clear this))
      | (extract_lets +onlyGivenNames σ; try clear_value σ)
      | split
      | refine State.issue_kept ?_
      | refine State.event_kept ?_
      | refine State.corrected_kept ?_
      | refine State.incAt_kept ?_
      | refine State.ueFound_kept ?_
      | fail_if_no_progress (refine State.Kept.same rfl rfl rfl rfl rfl rfl rfl rfl rfl ?_))

end Sys2Proof.Machine
end

