-- ==== Sys2Proof/Laws/Codec.lean ====
section
/-! SUPPORT. What each operation of Machine/Codec keeps. -/

set_option linter.all false

namespace Sys2Proof.Machine

theorem State.nmbLog_kept {q : List Instr} {o : List Output} {s x1 x2 x3 x4 x5} (h : State.Kept q o s) : State.Kept q o (State.nmbLog s x1 x2 x3 x4 x5) := by
  unfold State.nmbLog
  repeat' first
    | (with_reducible first
      | assumption
      | split
      | refine State.put_kept ?_
      | refine State.wr_kept ?_
      | fail_if_no_progress (refine State.Kept.same rfl rfl rfl rfl rfl rfl rfl rfl rfl ?_))

theorem State.compress_kept {q : List Instr} {o : List Output} {s x1 x2 x3 x4} (h : State.Kept q o s) : State.Kept q o (State.compress s x1 x2 x3 x4).2 := by
  unfold State.compress
  repeat' first
    | (with_reducible first
      | assumption
      | (extract_lets +onlyGivenNames σ; refine (?_ : State.Kept q o σ → _) ?_; (on_goal 1 => (intro hσ; clear_value σ)); (on_goal 2 => (dsimp only [σ]; try clear σ)))
      | (extract_lets +onlyGivenNames σ; first | (have : Nat := σ; clear this) | (have : Bool := σ; clear this) | (have : Option Nat := σ; clear this); clear_value σ)
      | (extract_lets +onlyGivenNames σ; refine (?_ : State.Kept q o σ.2 → _) ?_; (on_goal 1 => (intro hσ; clear_value σ)); (on_goal 2 => (dsimp only [σ]; try clear σ)))
      | (extract_lets +onlyGivenNames σ; first | (have : Dram := σ; clear this) | (have : Cirrus := σ; clear this) | (have : Protection := σ; clear this) | (have : Sampler := σ; clear this) | (have : Faults := σ; clear this))
      | (extract_lets +onlyGivenNames σ; try clear_value σ)
      | split
      | refine State.raise_kept ?_
      | refine State.nmbLog_kept ?_
      | refine State.inc_kept ?_
      | refine State.occur_kept ?_
      | refine State.event_kept ?_
      | fail_if_no_progress (refine State.Kept.same rfl rfl rfl rfl rfl rfl rfl rfl rfl ?_))

theorem State.heapStatus_kept {q : List Instr} {o : List Output} {s} (h : State.Kept q o s) : State.Kept q o (State.heapStatus s) := by
  unfold State.heapStatus
  repeat' first
    | (with_reducible first
      | assumption
      | (extract_lets +onlyGivenNames σ; refine (?_ : State.Kept q o σ → _) ?_; (on_goal 1 => (intro hσ; clear_value σ)); (on_goal 2 => (dsimp only [σ]; try clear σ)))
      | (extract_lets +onlyGivenNames σ; first | (have : Nat := σ; clear this) | (have : Bool := σ; clear this) | (have : Option Nat := σ; clear this); clear_value σ)
      | (extract_lets +onlyGivenNames σ; refine (?_ : State.Kept q o σ.2 → _) ?_; (on_goal 1 => (intro hσ; clear_value σ)); (on_goal 2 => (dsimp only [σ]; try clear σ)))
      | (extract_lets +onlyGivenNames σ; first | (have : Dram := σ; clear this) | (have : Cirrus := σ; clear this) | (have : Protection := σ; clear this) | (have : Sampler := σ; clear this) | (have : Faults := σ; clear this))
      | (extract_lets +onlyGivenNames σ; try clear_value σ)
      | split
      | refine State.wr_kept ?_
      | fail_if_no_progress (refine State.Kept.same rfl rfl rfl rfl rfl rfl rfl rfl rfl ?_))

theorem State.setSegment_kept {q : List Instr} {o : List Output} {s x1 x2} (h : State.Kept q o s) : State.Kept q o (State.setSegment s x1 x2) := by
  unfold State.setSegment
  repeat' first
    | (with_reducible first
      | assumption
      | (extract_lets +onlyGivenNames σ; first | (have : Nat := σ; clear this) | (have : Bool := σ; clear this) | (have : Option Nat := σ; clear this); clear_value σ)
      | (extract_lets +onlyGivenNames σ; refine (?_ : State.Kept q o σ.2 → _) ?_; (on_goal 1 => (intro hσ; clear_value σ)); (on_goal 2 => (dsimp only [σ]; try clear σ)))
      | (extract_lets +onlyGivenNames σ; first | (have : Dram := σ; clear this) | (have : Cirrus := σ; clear this) | (have : Protection := σ; clear this) | (have : Sampler := σ; clear this) | (have : Faults := σ; clear this))
      | (extract_lets +onlyGivenNames σ; try clear_value σ)
      | fail_if_no_progress (refine State.Kept.same rfl rfl rfl rfl rfl rfl rfl rfl rfl ?_))

theorem State.newSegment_kept {q : List Instr} {o : List Output} {s x1 x2} (h : State.Kept q o s) : KeptP q o (State.newSegment s x1 x2) := by
  unfold State.newSegment
  repeat' first
    | (with_reducible first
      | assumption
      | intro _
      | (extract_lets +onlyGivenNames σ; refine (?_ : State.Kept q o σ → _) ?_; (on_goal 1 => (intro hσ; clear_value σ)); (on_goal 2 => (dsimp only [σ]; try clear σ)))
      | (extract_lets +onlyGivenNames σ; first | (have : Nat := σ; clear this) | (have : Bool := σ; clear this) | (have : Option Nat := σ; clear this); clear_value σ)
      | (extract_lets +onlyGivenNames σ; refine (?_ : State.Kept q o σ.2 → _) ?_; (on_goal 1 => (intro hσ; clear_value σ)); (on_goal 2 => (dsimp only [σ]; try clear σ)))
      | (extract_lets +onlyGivenNames σ; first | (have : Dram := σ; clear this) | (have : Cirrus := σ; clear this) | (have : Protection := σ; clear this) | (have : Sampler := σ; clear this) | (have : Faults := σ; clear this))
      | (extract_lets +onlyGivenNames σ; try clear_value σ)
      | split
      | exact KeptP.none
      | refine KeptP.some ?_
      | refine State.setSegment_kept ?_
      | fail_if_no_progress (refine State.Kept.same rfl rfl rfl rfl rfl rfl rfl rfl rfl ?_))

theorem State.placeRun_kept {q : List Instr} {o : List Output} {s x1 x2} (h : State.Kept q o s) : KeptP q o (State.placeRun s x1 x2) := by
  unfold State.placeRun
  repeat' first
    | (with_reducible first
      | assumption
      | intro _
      | split
      | exact KeptP.none
      | refine KeptP.some ?_
      | refine State.heapStatus_kept ?_
      | refine State.setSegment_kept ?_
      | fail_if_no_progress (refine State.Kept.same rfl rfl rfl rfl rfl rfl rfl rfl rfl ?_))

theorem State.runOn_kept {q : List Instr} {o : List Output} {s x1 x2 x3} (h : State.Kept q o s) : KeptP q o (State.runOn s x1 x2 x3) := by
  unfold State.runOn
  repeat' first
    | (with_reducible first
      | assumption
      | intro _
      | split
      | exact KeptP.none
      | refine KeptP.some ?_
      | refine State.placeRun_kept ?_
      | refine State.newSegment_kept ?_
      | refine State.Kept.ofPair ‹_› ?_
      | refine KeptP.bind (fun _ => ?_)
      | fail_if_no_progress (refine State.Kept.same rfl rfl rfl rfl rfl rfl rfl rfl rfl ?_))

theorem State.runFrom_kept {q : List Instr} {o : List Output} {s x1 x2 x3} (h : State.Kept q o s) : KeptP q o (State.runFrom s x1 x2 x3) := by
  induction x3 generalizing s x1 x2 with
  | nil =>
    rw [State.runFrom]
    repeat' first
      | (with_reducible first
        | assumption
        | intro _
        | split
        | exact KeptP.none
        | refine KeptP.some ?_
        | refine State.runOn_kept ?_
        | refine State.Kept.ofPair ‹_› ?_
        | fail_if_no_progress (refine State.Kept.same rfl rfl rfl rfl rfl rfl rfl rfl rfl ?_))
  | cons _ _ ih =>
    rw [State.runFrom]
    repeat' first
      | (with_reducible first
        | assumption
        | intro _
        | split
        | exact KeptP.none
        | refine KeptP.some ?_
        | refine ih ?_
        | refine State.runOn_kept ?_
        | refine State.Kept.ofPair ‹_› ?_
        | fail_if_no_progress (refine State.Kept.same rfl rfl rfl rfl rfl rfl rfl rfl rfl ?_))

theorem State.moveRun_kept {q : List Instr} {o : List Output} {s x1} (h : State.Kept q o s) : KeptP q o (State.moveRun s x1) := by
  unfold State.moveRun
  repeat' first
    | (with_reducible first
      | assumption
      | intro _
      | exact KeptP.none
      | refine KeptP.some ?_
      | refine State.runFrom_kept ?_
      | refine State.Kept.ofPair ‹_› ?_
      | fail_if_no_progress (refine State.Kept.same rfl rfl rfl rfl rfl rfl rfl rfl rfl ?_))

theorem State.writebackRun_kept {q : List Instr} {o : List Output} {s x1 x2} (h : State.Kept q o s) : KeptP q o (State.writebackRun s x1 x2) := by
  unfold State.writebackRun
  repeat' first
    | (with_reducible first
      | assumption
      | intro _
      | split
      | exact KeptP.none
      | refine KeptP.some ?_
      | refine State.placeRun_kept ?_
      | refine State.runFrom_kept ?_
      | refine State.Kept.ofPair ‹_› ?_
      | refine KeptP.bind (fun _ => ?_)
      | fail_if_no_progress (refine State.Kept.same rfl rfl rfl rfl rfl rfl rfl rfl rfl ?_))

theorem State.emptySegment_kept {q : List Instr} {o : List Output} {s x1 x2} (h : State.Kept q o s) : State.Kept q o (State.emptySegment s x1 x2) := by
  unfold State.emptySegment
  repeat' first
    | (with_reducible first
      | assumption
      | (extract_lets +onlyGivenNames σ; first | (have : Nat := σ; clear this) | (have : Bool := σ; clear this) | (have : Option Nat := σ; clear this); clear_value σ)
      | (extract_lets +onlyGivenNames σ; refine (?_ : State.Kept q o σ.2 → _) ?_; (on_goal 1 => (intro hσ; clear_value σ)); (on_goal 2 => (dsimp only [σ]; try clear σ)))
      | (extract_lets +onlyGivenNames σ; first | (have : Dram := σ; clear this) | (have : Cirrus := σ; clear this) | (have : Protection := σ; clear this) | (have : Sampler := σ; clear this) | (have : Faults := σ; clear this))
      | (extract_lets +onlyGivenNames σ; try clear_value σ)
      | split
      | fail_if_no_progress (refine State.Kept.same rfl rfl rfl rfl rfl rfl rfl rfl rfl ?_))

theorem State.freeRun_kept {q : List Instr} {o : List Output} {s x1 x2} (h : State.Kept q o s) : State.Kept q o (State.freeRun s x1 x2) := by
  unfold State.freeRun
  repeat' first
    | (with_reducible first
      | assumption
      | (extract_lets +onlyGivenNames σ; first | (have : Nat := σ; clear this) | (have : Bool := σ; clear this) | (have : Option Nat := σ; clear this); clear_value σ)
      | (extract_lets +onlyGivenNames σ; refine (?_ : State.Kept q o σ.2 → _) ?_; (on_goal 1 => (intro hσ; clear_value σ)); (on_goal 2 => (dsimp only [σ]; try clear σ)))
      | (extract_lets +onlyGivenNames σ; first | (have : Dram := σ; clear this) | (have : Cirrus := σ; clear this) | (have : Protection := σ; clear this) | (have : Sampler := σ; clear this) | (have : Faults := σ; clear this))
      | (extract_lets +onlyGivenNames σ; try clear_value σ)
      | split
      | refine State.heapStatus_kept ?_
      | refine State.emptySegment_kept ?_
      | refine State.setSegment_kept ?_
      | fail_if_no_progress (refine State.Kept.same rfl rfl rfl rfl rfl rfl rfl rfl rfl ?_))

theorem State.trimRun_kept {q : List Instr} {o : List Output} {s x1 x2 x3} (h : State.Kept q o s) : State.Kept q o (State.trimRun s x1 x2 x3) := by
  unfold State.trimRun
  repeat' first
    | (with_reducible first
      | assumption
      | (extract_lets +onlyGivenNames σ; first | (have : Nat := σ; clear this) | (have : Bool := σ; clear this) | (have : Option Nat := σ; clear this); clear_value σ)
      | (extract_lets +onlyGivenNames σ; refine (?_ : State.Kept q o σ.2 → _) ?_; (on_goal 1 => (intro hσ; clear_value σ)); (on_goal 2 => (dsimp only [σ]; try clear σ)))
      | (extract_lets +onlyGivenNames σ; first | (have : Dram := σ; clear this) | (have : Cirrus := σ; clear this) | (have : Protection := σ; clear this) | (have : Sampler := σ; clear this) | (have : Faults := σ; clear this))
      | (extract_lets +onlyGivenNames σ; try clear_value σ)
      | split
      | refine State.heapStatus_kept ?_
      | refine State.setSegment_kept ?_
      | fail_if_no_progress (refine State.Kept.same rfl rfl rfl rfl rfl rfl rfl rfl rfl ?_))

theorem State.freeLocation_kept {q : List Instr} {o : List Output} {s x1} (h : State.Kept q o s) : State.Kept q o (State.freeLocation s x1) := by
  unfold State.freeLocation
  repeat' first
    | (with_reducible first
      | assumption
      | split
      | refine State.giveFrame_kept ?_
      | refine State.freeRun_kept ?_
      | fail_if_no_progress (refine State.Kept.same rfl rfl rfl rfl rfl rfl rfl rfl rfl ?_))

theorem State.readLines_kept {q : List Instr} {o : List Output} {s x1 x2 x3 x4} (h : State.Kept q o s) : State.Kept q o (State.readLines s x1 x2 x3 x4).2 := by
  induction x4 generalizing s x1 x2 x3 with
  | zero =>
    rw [State.readLines]
    repeat' first
      | (with_reducible first
        | assumption
        | (extract_lets +onlyGivenNames σ; first | (have : Nat := σ; clear this) | (have : Bool := σ; clear this) | (have : Option Nat := σ; clear this); clear_value σ)
        | (extract_lets +onlyGivenNames σ; refine (?_ : State.Kept q o σ.2 → _) ?_; (on_goal 1 => (intro hσ; clear_value σ)); (on_goal 2 => (dsimp only [σ]; try clear σ)))
        | (extract_lets +onlyGivenNames σ; first | (have : Dram := σ; clear this) | (have : Cirrus := σ; clear this) | (have : Protection := σ; clear this) | (have : Sampler := σ; clear this) | (have : Faults := σ; clear this))
        | (extract_lets +onlyGivenNames σ; try clear_value σ)
        | split
        | refine State.readMedia_kept ?_
        | refine State.macFail_kept ?_
        | refine State.Kept.snd ‹_› ?_
        | fail_if_no_progress (refine State.Kept.same rfl rfl rfl rfl rfl rfl rfl rfl rfl ?_))
  | succ _ ih =>
    rw [State.readLines]
    repeat' first
      | (with_reducible first
        | assumption
        | (extract_lets +onlyGivenNames σ; first | (have : Nat := σ; clear this) | (have : Bool := σ; clear this) | (have : Option Nat := σ; clear this); clear_value σ)
        | (extract_lets +onlyGivenNames σ; refine (?_ : State.Kept q o σ.2 → _) ?_; (on_goal 1 => (intro hσ; clear_value σ)); (on_goal 2 => (dsimp only [σ]; try clear σ)))
        | (extract_lets +onlyGivenNames σ; first | (have : Dram := σ; clear this) | (have : Cirrus := σ; clear this) | (have : Protection := σ; clear this) | (have : Sampler := σ; clear this) | (have : Faults := σ; clear this))
        | (extract_lets +onlyGivenNames σ; try clear_value σ)
        | split
        | refine ih ?_
        | refine State.readMedia_kept ?_
        | refine State.macFail_kept ?_
        | refine State.Kept.snd ‹_› ?_
        | fail_if_no_progress (refine State.Kept.same rfl rfl rfl rfl rfl rfl rfl rfl rfl ?_))

theorem State.writeLines_kept {q : List Instr} {o : List Output} {s x1 x2} (h : State.Kept q o s) : State.Kept q o (State.writeLines s x1 x2) := by
  unfold State.writeLines
  repeat' first
    | (with_reducible first
      | assumption
      | intro _
      | dsimp only
      | refine State.storeLine_kept ?_
      | refine State.Kept.foldl (fun _ _ _ => ?_) ?_
      | refine State.Kept.foldlP (fun _ _ _ => ?_) ?_
      | dsimp only
      | fail_if_no_progress (refine State.Kept.same rfl rfl rfl rfl rfl rfl rfl rfl rfl ?_))

theorem State.readBlock_kept {q : List Instr} {o : List Output} {s x1 x2 x3 x4} (h : State.Kept q o s) : State.Kept q o (State.readBlock s x1 x2 x3 x4).2 := by
  unfold State.readBlock
  repeat' first
    | (with_reducible first
      | assumption
      | dsimp only
      | split
      | refine State.readLines_kept ?_
      | refine State.Kept.snd ‹_› ?_
      | refine KeptO.mapP ?_ (fun _ _ _ => ?_)
      | refine KeptO.map ?_ (fun _ _ => ?_)
      | refine KeptP.mapP ?_ (fun _ _ _ => ?_)
      | dsimp only
      | fail_if_no_progress (refine State.Kept.same rfl rfl rfl rfl rfl rfl rfl rfl rfl ?_))

end Sys2Proof.Machine
end

