-- ==== Sys2Proof/Laws/HostAccess.lean ====
section
/-! SUPPORT. What each operation of Machine/HostAccess keeps. -/

set_option linter.all false

namespace Sys2Proof.Machine

theorem State.answerFenced_kept {q : List Instr} {o : List Output} {s x1} (h : State.Kept q o s) : State.Kept q o (State.answerFenced s x1) := by
  unfold State.answerFenced
  repeat' first
    | (with_reducible first
      | assumption
      | (extract_lets +onlyGivenNames σ; refine (?_ : State.Kept q o σ → _) ?_; (on_goal 1 => (intro hσ; clear_value σ)); (on_goal 2 => (dsimp only [σ]; try clear σ)))
      | (extract_lets +onlyGivenNames σ; first | (have : Nat := σ; clear this) | (have : Bool := σ; clear this) | (have : Option Nat := σ; clear this); clear_value σ)
      | (extract_lets +onlyGivenNames σ; refine (?_ : State.Kept q o σ.2 → _) ?_; (on_goal 1 => (intro hσ; clear_value σ)); (on_goal 2 => (dsimp only [σ]; try clear σ)))
      | (extract_lets +onlyGivenNames σ; first | (have : Dram := σ; clear this) | (have : Cirrus := σ; clear this) | (have : Protection := σ; clear this) | (have : Sampler := σ; clear this) | (have : Faults := σ; clear this))
      | (extract_lets +onlyGivenNames σ; try clear_value σ)
      | split
      | refine State.event_kept ?_
      | refine State.inc_kept ?_
      | refine State.poisonData_kept ?_
      | refine State.sample_kept ?_
      | refine State.send_kept ?_
      | refine State.Kept.snd ‹_› ?_
      | fail_if_no_progress (refine State.Kept.same rfl rfl rfl rfl rfl rfl rfl rfl rfl ?_))

theorem State.noteNotHome_kept {q : List Instr} {o : List Output} {s x1 x2 x3} (h : State.Kept q o s) : State.Kept q o (State.noteNotHome s x1 x2 x3) := by
  unfold State.noteNotHome
  repeat' first
    | (with_reducible first
      | assumption
      | split
      | refine State.event_kept ?_
      | refine State.inc_kept ?_
      | refine KeptP.bind (fun _ => ?_)
      | fail_if_no_progress (refine State.Kept.same rfl rfl rfl rfl rfl rfl rfl rfl rfl ?_))

theorem State.routed_kept {q : List Instr} {o : List Output} {s x1 x2 x3 x4 x5 x6 x7 x8 x9} (h : State.Kept q o s) : State.Kept q o (State.routed s x1 x2 x3 x4 x5 x6 x7 x8 x9) := by
  unfold State.routed
  repeat' first
    | (with_reducible first
      | assumption
      | (extract_lets +onlyGivenNames σ; first | (have : Nat := σ; clear this) | (have : Bool := σ; clear this) | (have : Option Nat := σ; clear this); clear_value σ)
      | (extract_lets +onlyGivenNames σ; refine (?_ : State.Kept q o σ.2 → _) ?_; (on_goal 1 => (intro hσ; clear_value σ)); (on_goal 2 => (dsimp only [σ]; try clear σ)))
      | (extract_lets +onlyGivenNames σ; first | (have : Dram := σ; clear this) | (have : Cirrus := σ; clear this) | (have : Protection := σ; clear this) | (have : Sampler := σ; clear this) | (have : Faults := σ; clear this))
      | (extract_lets +onlyGivenNames σ; try clear_value σ)
      | split
      | refine State.refuse_kept ?_
      | refine State.noteNotHome_kept ?_
      | refine State.answerFenced_kept ?_
      | refine State.takeIn_kept ?_
      | fail_if_no_progress (refine State.Kept.same rfl rfl rfl rfl rfl rfl rfl rfl rfl ?_))

theorem State.decodeSlot_kept {q : List Instr} {o : List Output} {s x1 x2 x3 x4 x5 x6 x7 x8 x9 x10} (h : State.Kept q o s) : State.Kept q o (State.decodeSlot s x1 x2 x3 x4 x5 x6 x7 x8 x9 x10) := by
  unfold State.decodeSlot
  repeat' first
    | (with_reducible first
      | assumption
      | (extract_lets +onlyGivenNames σ; first | (have : Nat := σ; clear this) | (have : Bool := σ; clear this) | (have : Option Nat := σ; clear this); clear_value σ)
      | (extract_lets +onlyGivenNames σ; refine (?_ : State.Kept q o σ.2 → _) ?_; (on_goal 1 => (intro hσ; clear_value σ)); (on_goal 2 => (dsimp only [σ]; try clear σ)))
      | (extract_lets +onlyGivenNames σ; first | (have : Dram := σ; clear this) | (have : Cirrus := σ; clear this) | (have : Protection := σ; clear this) | (have : Sampler := σ; clear this) | (have : Faults := σ; clear this))
      | (extract_lets +onlyGivenNames σ; try clear_value σ)
      | split
      | refine State.routed_kept ?_
      | refine State.takeUnits_kept ?_
      | fail_if_no_progress (refine State.Kept.same rfl rfl rfl rfl rfl rfl rfl rfl rfl ?_))

theorem execMemRead_kept {q : List Instr} {o : List Output} {s x0 x1 x2 x3 x4 x5} (h : State.Kept q o s) : KeptN q o (execMemRead x0 x1 x2 x3 x4 x5 s) := by
  unfold execMemRead
  repeat' first
    | (with_reducible first
      | assumption
      | refine KeptN.next ?_
      | refine State.done_kept ?_
      | refine State.decodeSlot_kept ?_
      | fail_if_no_progress (refine State.Kept.same rfl rfl rfl rfl rfl rfl rfl rfl rfl ?_))

theorem execMemWrite_kept {q : List Instr} {o : List Output} {s x0 x1 x2 x3 x4 x5 x6 x7 x8} (h : State.Kept q o s) : KeptN q o (execMemWrite x0 x1 x2 x3 x4 x5 x6 x7 x8 s) := by
  unfold execMemWrite
  repeat' first
    | (with_reducible first
      | assumption
      | refine KeptN.next ?_
      | refine State.done_kept ?_
      | refine State.decodeSlot_kept ?_
      | fail_if_no_progress (refine State.Kept.same rfl rfl rfl rfl rfl rfl rfl rfl rfl ?_))

theorem execMemSpecRd_kept {q : List Instr} {o : List Output} {s x0 x1 x2} (h : State.Kept q o s) : KeptN q o (execMemSpecRd x0 x1 x2 s) := by
  unfold execMemSpecRd
  repeat' first
    | (with_reducible first
      | assumption
      | refine KeptN.next ?_
      | fail_if_no_progress (refine State.Kept.same rfl rfl rfl rfl rfl rfl rfl rfl rfl ?_))

theorem State.judgeEvict_kept {q : List Instr} {o : List Output} {s x1 x2 x3} (h : State.Kept q o s) : State.Kept q o (State.judgeEvict s x1 x2 x3) := by
  unfold State.judgeEvict
  repeat' first
    | (with_reducible first
      | assumption
      | (extract_lets +onlyGivenNames σ; first | (have : Nat := σ; clear this) | (have : Bool := σ; clear this) | (have : Option Nat := σ; clear this); clear_value σ)
      | (extract_lets +onlyGivenNames σ; refine (?_ : State.Kept q o σ.2 → _) ?_; (on_goal 1 => (intro hσ; clear_value σ)); (on_goal 2 => (dsimp only [σ]; try clear σ)))
      | (extract_lets +onlyGivenNames σ; first | (have : Dram := σ; clear this) | (have : Cirrus := σ; clear this) | (have : Protection := σ; clear this) | (have : Sampler := σ; clear this) | (have : Faults := σ; clear this))
      | (extract_lets +onlyGivenNames σ; try clear_value σ)
      | split
      | refine State.halProtocol_kept ?_
      | fail_if_no_progress (refine State.Kept.same rfl rfl rfl rfl rfl rfl rfl rfl rfl ?_))

theorem execMemClnEvct_kept {q : List Instr} {o : List Output} {s x0 x1 x2 x3 x4} (h : State.Kept q o s) : KeptN q o (execMemClnEvct x0 x1 x2 x3 x4 s) := by
  unfold execMemClnEvct
  repeat' first
    | (with_reducible first
      | assumption
      | refine KeptN.next ?_
      | refine State.done_kept ?_
      | refine State.decodeSlot_kept ?_
      | refine State.judgeEvict_kept ?_
      | fail_if_no_progress (refine State.Kept.same rfl rfl rfl rfl rfl rfl rfl rfl rfl ?_))

theorem State.logDeadline_kept {q : List Instr} {o : List Output} {s x1} (h : State.Kept q o s) : State.Kept q o (State.logDeadline s x1) := by
  unfold State.logDeadline
  repeat' first
    | (with_reducible first
      | assumption
      | (extract_lets +onlyGivenNames σ; refine (?_ : State.Kept q o σ → _) ?_; (on_goal 1 => (intro hσ; clear_value σ)); (on_goal 2 => (dsimp only [σ]; try clear σ)))
      | (extract_lets +onlyGivenNames σ; first | (have : Nat := σ; clear this) | (have : Bool := σ; clear this) | (have : Option Nat := σ; clear this); clear_value σ)
      | (extract_lets +onlyGivenNames σ; refine (?_ : State.Kept q o σ.2 → _) ?_; (on_goal 1 => (intro hσ; clear_value σ)); (on_goal 2 => (dsimp only [σ]; try clear σ)))
      | (extract_lets +onlyGivenNames σ; first | (have : Dram := σ; clear this) | (have : Cirrus := σ; clear this) | (have : Protection := σ; clear this) | (have : Sampler := σ; clear this) | (have : Faults := σ; clear this))
      | (extract_lets +onlyGivenNames σ; try clear_value σ)
      | split
      | refine State.wrAt_kept ?_
      | refine State.putAt_kept ?_
      | fail_if_no_progress (refine State.Kept.same rfl rfl rfl rfl rfl rfl rfl rfl rfl ?_))

theorem State.leaveHome_kept {q : List Instr} {o : List Output} {s x1} (h : State.Kept q o s) : State.Kept q o (State.leaveHome s x1) := by
  unfold State.leaveHome
  repeat' first
    | (with_reducible first
      | assumption
      | (extract_lets +onlyGivenNames σ; refine (?_ : State.Kept q o σ → _) ?_; (on_goal 1 => (intro hσ; clear_value σ)); (on_goal 2 => (dsimp only [σ]; try clear σ)))
      | (extract_lets +onlyGivenNames σ; first | (have : Nat := σ; clear this) | (have : Bool := σ; clear this) | (have : Option Nat := σ; clear this); clear_value σ)
      | (extract_lets +onlyGivenNames σ; refine (?_ : State.Kept q o σ.2 → _) ?_; (on_goal 1 => (intro hσ; clear_value σ)); (on_goal 2 => (dsimp only [σ]; try clear σ)))
      | (extract_lets +onlyGivenNames σ; first | (have : Dram := σ; clear this) | (have : Cirrus := σ; clear this) | (have : Protection := σ; clear this) | (have : Sampler := σ; clear this) | (have : Faults := σ; clear this))
      | (extract_lets +onlyGivenNames σ; try clear_value σ)
      | refine State.advanceLine_kept ?_
      | refine State.hostStatus_kept ?_
      | refine State.removeReq_kept ?_
      | fail_if_no_progress (refine State.Kept.same rfl rfl rfl rfl rfl rfl rfl rfl rfl ?_))

theorem State.expire_kept {q : List Instr} {o : List Output} {s x1 x2} (h : State.Kept q o s) : State.Kept q o (State.expire s x1 x2) := by
  unfold State.expire
  repeat' first
    | (with_reducible first
      | assumption
      | (extract_lets +onlyGivenNames σ; refine (?_ : State.Kept q o σ → _) ?_; (on_goal 1 => (intro hσ; clear_value σ)); (on_goal 2 => (dsimp only [σ]; try clear σ)))
      | (extract_lets +onlyGivenNames σ; first | (have : Nat := σ; clear this) | (have : Bool := σ; clear this) | (have : Option Nat := σ; clear this); clear_value σ)
      | (extract_lets +onlyGivenNames σ; refine (?_ : State.Kept q o σ.2 → _) ?_; (on_goal 1 => (intro hσ; clear_value σ)); (on_goal 2 => (dsimp only [σ]; try clear σ)))
      | (extract_lets +onlyGivenNames σ; first | (have : Dram := σ; clear this) | (have : Cirrus := σ; clear this) | (have : Protection := σ; clear this) | (have : Sampler := σ; clear this) | (have : Faults := σ; clear this))
      | (extract_lets +onlyGivenNames σ; try clear_value σ)
      | split
      | refine State.event_kept ?_
      | refine State.setLink_kept ?_
      | refine State.logDeadline_kept ?_
      | refine State.inc_kept ?_
      | refine State.poisonData_kept ?_
      | refine State.respond_kept ?_
      | refine State.setReq_kept ?_
      | refine State.granted_kept ?_
      | refine State.hostStatus_kept ?_
      | refine State.leaveHome_kept ?_
      | refine State.raise_kept ?_
      | refine State.removeReq_kept ?_
      | refine State.Kept.snd ‹_› ?_
      | fail_if_no_progress (refine State.Kept.same rfl rfl rfl rfl rfl rfl rfl rfl rfl ?_))

theorem execDeadlineExpiry_kept {q : List Instr} {o : List Output} {s x0} (h : State.Kept q o s) : KeptN q o (execDeadlineExpiry x0 s) := by
  unfold execDeadlineExpiry
  repeat' first
    | (with_reducible first
      | assumption
      | split
      | refine KeptN.next ?_
      | refine State.done_kept ?_
      | refine State.expire_kept ?_
      | fail_if_no_progress (refine State.Kept.same rfl rfl rfl rfl rfl rfl rfl rfl rfl ?_))

end Sys2Proof.Machine
end

