-- ==== Sys2Proof/Laws/DataCmds.lean ====
section
/-! SUPPORT. What each operation of Machine/DataCmds keeps. -/

set_option linter.all false

namespace Sys2Proof.Machine

theorem State.readStored_kept {q : List Instr} {o : List Output} {s x1 x2} (h : State.Kept q o s) : State.Kept q o (State.readStored s x1 x2).2 := by
  unfold State.readStored
  extract_lets +onlyGivenNames dpn e i reachable poisoned ask
  have hask : ∀ s , State.Kept q o s → State.Kept q o (ask s ).2 := by
    intro s  h
    dsimp only [ask]
    repeat' first
      | (with_reducible first
        | assumption
        | (extract_lets +onlyGivenNames σ; first | (have : Nat := σ; clear this) | (have : Bool := σ; clear this) | (have : Option Nat := σ; clear this); clear_value σ)
        | (extract_lets +onlyGivenNames σ; refine (?_ : State.Kept q o σ.2 → _) ?_; (on_goal 1 => (intro hσ; clear_value σ)); (on_goal 2 => (dsimp only [σ]; try clear σ)))
        | (extract_lets +onlyGivenNames σ; first | (have : Dram := σ; clear this) | (have : Cirrus := σ; clear this) | (have : Protection := σ; clear this) | (have : Sampler := σ; clear this) | (have : Faults := σ; clear this))
        | (extract_lets +onlyGivenNames σ; try clear_value σ)
        | split
        | refine State.peerFetch_kept ?_
        | refine State.event_kept ?_
        | refine State.incAt_kept ?_
        | refine State.readMedia_kept ?_
        | refine State.settlePending_kept ?_
        | refine State.wantRepair_kept ?_
        | refine State.poisonLine_kept ?_
        | refine State.macFail_kept ?_
        | refine State.readBlock_kept ?_
        | refine State.badBlock_kept ?_
        | refine State.Kept.snd ‹_› ?_
        | refine KeptO.getD ?_ ?_
        | fail_if_no_progress (refine State.Kept.same rfl rfl rfl rfl rfl rfl rfl rfl rfl ?_))
  clear_value ask
  repeat' first
    | (with_reducible first
      | assumption
      | (extract_lets +onlyGivenNames σ; first | (have : Nat := σ; clear this) | (have : Bool := σ; clear this) | (have : Option Nat := σ; clear this); clear_value σ)
      | (extract_lets +onlyGivenNames σ; refine (?_ : State.Kept q o σ.2 → _) ?_; (on_goal 1 => (intro hσ; clear_value σ)); (on_goal 2 => (dsimp only [σ]; try clear σ)))
      | (extract_lets +onlyGivenNames σ; first | (have : Dram := σ; clear this) | (have : Cirrus := σ; clear this) | (have : Protection := σ; clear this) | (have : Sampler := σ; clear this) | (have : Faults := σ; clear this))
      | (extract_lets +onlyGivenNames σ; try clear_value σ)
      | split
      | refine hask _ ?_
      | refine hask _ _ ?_
      | refine hask _ _ _ ?_
      | refine State.peerFetch_kept ?_
      | refine State.event_kept ?_
      | refine State.incAt_kept ?_
      | refine State.readMedia_kept ?_
      | refine State.settlePending_kept ?_
      | refine State.wantRepair_kept ?_
      | refine State.poisonLine_kept ?_
      | refine State.macFail_kept ?_
      | refine State.readBlock_kept ?_
      | refine State.badBlock_kept ?_
      | refine State.Kept.snd ‹_› ?_
      | refine KeptO.getD ?_ ?_
      | fail_if_no_progress (refine State.Kept.same rfl rfl rfl rfl rfl rfl rfl rfl rfl ?_))

theorem State.deviceRead_kept {q : List Instr} {o : List Output} {s x1 x2} (h : State.Kept q o s) : State.Kept q o (State.deviceRead s x1 x2).2 := by
  unfold State.deviceRead
  repeat' first
    | (with_reducible first
      | assumption
      | (extract_lets +onlyGivenNames σ; first | (have : Nat := σ; clear this) | (have : Bool := σ; clear this) | (have : Option Nat := σ; clear this); clear_value σ)
      | (extract_lets +onlyGivenNames σ; refine (?_ : State.Kept q o σ.2 → _) ?_; (on_goal 1 => (intro hσ; clear_value σ)); (on_goal 2 => (dsimp only [σ]; try clear σ)))
      | (extract_lets +onlyGivenNames σ; first | (have : Dram := σ; clear this) | (have : Cirrus := σ; clear this) | (have : Protection := σ; clear this) | (have : Sampler := σ; clear this) | (have : Faults := σ; clear this))
      | (extract_lets +onlyGivenNames σ; try clear_value σ)
      | dsimp only
      | split
      | refine State.readStored_kept ?_
      | refine State.Kept.snd ‹_› ?_
      | refine KeptO.mapP ?_ (fun _ _ _ => ?_)
      | refine KeptO.map ?_ (fun _ _ => ?_)
      | refine KeptP.mapP ?_ (fun _ _ _ => ?_)
      | dsimp only
      | fail_if_no_progress (refine State.Kept.same rfl rfl rfl rfl rfl rfl rfl rfl rfl ?_))

theorem State.deviceWrite_kept {q : List Instr} {o : List Output} {s k i dpaLine data poison} (h : State.Kept q o s) : State.Kept q o (State.deviceWrite s k i dpaLine data poison).2 := by
  unfold State.deviceWrite
  extract_lets dpn e store
  have hs : ∀ t : State, State.Kept q o t → State.Kept q o (store t).2 := by
    intro t ht
    dsimp only [store]
    cases hw : t.cirWrite dpaLine data ByteMask.full poison false .recent with
    | none => exact ht
    | some u =>
      have hu := State.Kept.ofSome hw (State.cirWrite_kept ht)
      dsimp only
      have h2 : State.Kept q o (if poison = true then u.poisonLine dpaLine .external (u.linePlace dpaLine) else u) := by
        split
        · exact State.poisonLine_kept hu
        · exact hu
      refine State.mirror_kept (State.forgetExtra_kept (State.leaveFilter_kept ?_))
      generalize (if poison = true then u.poisonLine dpaLine .external (u.linePlace dpaLine) else u) = v at h2 ⊢
      split
      · exact State.setDesc_kept h2
      · exact h2
  clear_value store
  split
  · exact h
  · split
    · exact State.inc_kept h
    · have hb : State.Kept q o (s.backPage dpn).2 := State.backPage_kept h
      generalize s.backPage dpn = x at hb
      obtain ⟨b, t⟩ := x
      have hb : State.Kept q o t := hb
      cases b with
      | ok => exact hs t hb
      | noSpace => exact State.setDesc_kept (State.dropTrace_kept hb)
      | noRoom => exact h
      | noCounter => exact h
    · have hp : State.Kept q o (s.preserve dpn (.descriptor k i)).2 := State.preserve_kept h
      generalize s.preserve dpn (.descriptor k i) = x at hp
      obtain ⟨b, t⟩ := x
      have hp : State.Kept q o t := hp
      cases b with
      | true => exact hp
      | false => exact hs t hp

theorem State.deviceUnback_kept {q : List Instr} {o : List Output} {s x1 x2 x3} (h : State.Kept q o s) : State.Kept q o (State.deviceUnback s x1 x2 x3).2 := by
  unfold State.deviceUnback
  repeat' first
    | (with_reducible first
      | assumption
      | split
      | refine State.bumpMove_kept ?_
      | refine State.preserve_kept ?_
      | refine State.unback_kept ?_
      | refine State.Kept.snd ‹_› ?_
      | fail_if_no_progress (refine State.Kept.same rfl rfl rfl rfl rfl rfl rfl rfl rfl ?_))

theorem State.runDesc_kept {q : List Instr} {o : List Output} {s x1 x2 x3 x4} (hx4 : ∀ a0 a1, State.Kept q o a0 → ((x4 a0 a1)).Kept q o) (h : State.Kept q o s) : KeptN q o (State.runDesc s x1 x2 x3 x4) := by
  unfold State.runDesc
  repeat' first
    | (with_reducible first
      | assumption
      | split
      | refine KeptN.next ?_
      | refine hx4 _ _ ?_
      | refine State.done_kept ?_
      | refine State.stopDesc_kept ?_
      | fail_if_no_progress (refine State.Kept.same rfl rfl rfl rfl rfl rfl rfl rfl rfl ?_))

theorem State.advance_kept {q : List Instr} {o : List Output} {s x1 x2 x3} (h : State.Kept q o s) : State.Kept q o (State.advance s x1 x2 x3) := by
  unfold State.advance
  repeat' first
    | (with_reducible first
      | assumption
      | refine State.setDesc_kept ?_
      | fail_if_no_progress (refine State.Kept.same rfl rfl rfl rfl rfl rfl rfl rfl rfl ?_))

theorem State.eachLine_kept {q : List Instr} {o : List Output} {s x1 x2 x3 x4} (hx3 : ∀ a0 a1, State.Kept q o a0 → ((x3 a0 a1).2).Kept q o) (h : State.Kept q o s) : State.Kept q o (State.eachLine s x1 x2 x3 x4) := by
  induction x4 generalizing s x1 x2 with
  | nil =>
    rw [State.eachLine]
    repeat' first
      | (with_reducible first
        | assumption
        | split
        | refine hx3 _ _ ?_
        | refine State.advance_kept ?_
        | refine State.Kept.snd ‹_› ?_
        | fail_if_no_progress (refine State.Kept.same rfl rfl rfl rfl rfl rfl rfl rfl rfl ?_))
  | cons _ _ ih =>
    rw [State.eachLine]
    repeat' first
      | (with_reducible first
        | assumption
        | split
        | refine ih ?_
        | refine hx3 _ _ ?_
        | refine State.advance_kept ?_
        | refine State.Kept.snd ‹_› ?_
        | fail_if_no_progress (refine State.Kept.same rfl rfl rfl rfl rfl rfl rfl rfl rfl ?_))

theorem State.finishWrites_kept {q : List Instr} {o : List Output} {s x1 x2} (h : State.Kept q o s) : State.Kept q o (State.finishWrites s x1 x2) := by
  unfold State.finishWrites
  repeat' first
    | (with_reducible first
      | assumption
      | split
      | refine State.finishDesc_kept ?_
      | fail_if_no_progress (refine State.Kept.same rfl rfl rfl rfl rfl rfl rfl rfl rfl ?_))

theorem execNop_kept {q : List Instr} {o : List Output} {s x0 x1} (h : State.Kept q o s) : KeptN q o (execNop x0 x1 s) := by
  unfold execNop
  repeat' first
    | (with_reducible first
      | assumption
      | intro _
      | refine KeptN.next ?_
      | refine State.runDesc_kept ?_ ?_
      | refine State.finishDesc_kept ?_
      | fail_if_no_progress (refine State.Kept.same rfl rfl rfl rfl rfl rfl rfl rfl rfl ?_))

theorem State.copyUnit_kept {q : List Instr} {o : List Output} {s x1 x2 x3 x4} (h : State.Kept q o s) : State.Kept q o (State.copyUnit s x1 x2 x3 x4) := by
  unfold State.copyUnit
  repeat' first
    | (with_reducible first
      | assumption
      | intro _
      | (extract_lets +onlyGivenNames σ; refine (?_ : State.Kept q o σ → _) ?_; (on_goal 1 => (intro hσ; clear_value σ)); (on_goal 2 => (dsimp only [σ]; try clear σ)))
      | (extract_lets +onlyGivenNames σ; first | (have : Nat := σ; clear this) | (have : Bool := σ; clear this) | (have : Option Nat := σ; clear this); clear_value σ)
      | (extract_lets +onlyGivenNames σ; refine (?_ : State.Kept q o σ.2 → _) ?_; (on_goal 1 => (intro hσ; clear_value σ)); (on_goal 2 => (dsimp only [σ]; try clear σ)))
      | (extract_lets +onlyGivenNames σ; first | (have : Dram := σ; clear this) | (have : Cirrus := σ; clear this) | (have : Protection := σ; clear this) | (have : Sampler := σ; clear this) | (have : Faults := σ; clear this))
      | (extract_lets +onlyGivenNames σ; try clear_value σ)
      | split
      | refine State.takeUnits_kept ?_
      | refine State.deviceUnback_kept ?_
      | refine State.advance_kept ?_
      | refine State.eachLine_kept ?_ ?_
      | refine State.deviceRead_kept ?_
      | refine State.deviceWrite_kept ?_
      | refine State.finishWrites_kept ?_
      | refine State.Kept.snd ‹_› ?_
      | fail_if_no_progress (refine State.Kept.same rfl rfl rfl rfl rfl rfl rfl rfl rfl ?_))

theorem execCopy_kept {q : List Instr} {o : List Output} {s x0 x1 x2} (h : State.Kept q o s) : KeptN q o (execCopy x0 x1 x2 s) := by
  unfold execCopy
  repeat' first
    | (with_reducible first
      | assumption
      | intro _
      | refine KeptN.next ?_
      | refine State.runDesc_kept ?_ ?_
      | refine State.copyUnit_kept ?_
      | fail_if_no_progress (refine State.Kept.same rfl rfl rfl rfl rfl rfl rfl rfl rfl ?_))

theorem State.fillUnit_kept {q : List Instr} {o : List Output} {s x1 x2 x3} (h : State.Kept q o s) : State.Kept q o (State.fillUnit s x1 x2 x3) := by
  unfold State.fillUnit
  repeat' first
    | (with_reducible first
      | assumption
      | intro _
      | (extract_lets +onlyGivenNames σ; refine (?_ : State.Kept q o σ → _) ?_; (on_goal 1 => (intro hσ; clear_value σ)); (on_goal 2 => (dsimp only [σ]; try clear σ)))
      | (extract_lets +onlyGivenNames σ; first | (have : Nat := σ; clear this) | (have : Bool := σ; clear this) | (have : Option Nat := σ; clear this); clear_value σ)
      | (extract_lets +onlyGivenNames σ; refine (?_ : State.Kept q o σ.2 → _) ?_; (on_goal 1 => (intro hσ; clear_value σ)); (on_goal 2 => (dsimp only [σ]; try clear σ)))
      | (extract_lets +onlyGivenNames σ; first | (have : Dram := σ; clear this) | (have : Cirrus := σ; clear this) | (have : Protection := σ; clear this) | (have : Sampler := σ; clear this) | (have : Faults := σ; clear this))
      | (extract_lets +onlyGivenNames σ; try clear_value σ)
      | refine State.takeUnits_kept ?_
      | refine State.eachLine_kept ?_ ?_
      | refine State.deviceWrite_kept ?_
      | refine State.finishWrites_kept ?_
      | refine State.Kept.snd ‹_› ?_
      | fail_if_no_progress (refine State.Kept.same rfl rfl rfl rfl rfl rfl rfl rfl rfl ?_))

theorem execFill_kept {q : List Instr} {o : List Output} {s x0 x1} (h : State.Kept q o s) : KeptN q o (execFill x0 x1 s) := by
  unfold execFill
  repeat' first
    | (with_reducible first
      | assumption
      | intro _
      | refine KeptN.next ?_
      | refine State.runDesc_kept ?_ ?_
      | refine State.fillUnit_kept ?_
      | fail_if_no_progress (refine State.Kept.same rfl rfl rfl rfl rfl rfl rfl rfl rfl ?_))

theorem State.zeroUnit_kept {q : List Instr} {o : List Output} {s x1 x2 x3} (h : State.Kept q o s) : State.Kept q o (State.zeroUnit s x1 x2 x3) := by
  unfold State.zeroUnit
  repeat' first
    | (with_reducible first
      | assumption
      | intro _
      | (extract_lets +onlyGivenNames σ; refine (?_ : State.Kept q o σ → _) ?_; (on_goal 1 => (intro hσ; clear_value σ)); (on_goal 2 => (dsimp only [σ]; try clear σ)))
      | (extract_lets +onlyGivenNames σ; first | (have : Nat := σ; clear this) | (have : Bool := σ; clear this) | (have : Option Nat := σ; clear this); clear_value σ)
      | (extract_lets +onlyGivenNames σ; refine (?_ : State.Kept q o σ.2 → _) ?_; (on_goal 1 => (intro hσ; clear_value σ)); (on_goal 2 => (dsimp only [σ]; try clear σ)))
      | (extract_lets +onlyGivenNames σ; first | (have : Dram := σ; clear this) | (have : Cirrus := σ; clear this) | (have : Protection := σ; clear this) | (have : Sampler := σ; clear this) | (have : Faults := σ; clear this))
      | (extract_lets +onlyGivenNames σ; try clear_value σ)
      | split
      | refine State.takeUnits_kept ?_
      | refine State.deviceUnback_kept ?_
      | refine State.advance_kept ?_
      | refine State.eachLine_kept ?_ ?_
      | refine State.deviceWrite_kept ?_
      | refine State.finishWrites_kept ?_
      | refine State.Kept.snd ‹_› ?_
      | fail_if_no_progress (refine State.Kept.same rfl rfl rfl rfl rfl rfl rfl rfl rfl ?_))

theorem execZero_kept {q : List Instr} {o : List Output} {s x0 x1} (h : State.Kept q o s) : KeptN q o (execZero x0 x1 s) := by
  unfold execZero
  repeat' first
    | (with_reducible first
      | assumption
      | intro _
      | refine KeptN.next ?_
      | refine State.runDesc_kept ?_ ?_
      | refine State.zeroUnit_kept ?_
      | fail_if_no_progress (refine State.Kept.same rfl rfl rfl rfl rfl rfl rfl rfl rfl ?_))

theorem State.compareUnit_kept {q : List Instr} {o : List Output} {s x1 x2 x3 x4} (h : State.Kept q o s) : State.Kept q o (State.compareUnit s x1 x2 x3 x4) := by
  unfold State.compareUnit
  repeat' first
    | (with_reducible first
      | assumption
      | intro _
      | (extract_lets +onlyGivenNames σ; refine (?_ : State.Kept q o σ → _) ?_; (on_goal 1 => (intro hσ; clear_value σ)); (on_goal 2 => (dsimp only [σ]; try clear σ)))
      | (extract_lets +onlyGivenNames σ; first | (have : Nat := σ; clear this) | (have : Bool := σ; clear this) | (have : Option Nat := σ; clear this); clear_value σ)
      | (extract_lets +onlyGivenNames σ; refine (?_ : State.Kept q o σ.2 → _) ?_; (on_goal 1 => (intro hσ; clear_value σ)); (on_goal 2 => (dsimp only [σ]; try clear σ)))
      | (extract_lets +onlyGivenNames σ; first | (have : Dram := σ; clear this) | (have : Cirrus := σ; clear this) | (have : Protection := σ; clear this) | (have : Sampler := σ; clear this) | (have : Faults := σ; clear this))
      | (extract_lets +onlyGivenNames σ; try clear_value σ)
      | split
      | refine State.takeUnits_kept ?_
      | refine State.eachLine_kept ?_ ?_
      | refine State.deviceRead_kept ?_
      | refine State.finishDesc_kept ?_
      | refine State.Kept.snd ‹_› ?_
      | fail_if_no_progress (refine State.Kept.same rfl rfl rfl rfl rfl rfl rfl rfl rfl ?_))

theorem execCompare_kept {q : List Instr} {o : List Output} {s x0 x1 x2} (h : State.Kept q o s) : KeptN q o (execCompare x0 x1 x2 s) := by
  unfold execCompare
  repeat' first
    | (with_reducible first
      | assumption
      | intro _
      | refine KeptN.next ?_
      | refine State.runDesc_kept ?_ ?_
      | refine State.compareUnit_kept ?_
      | fail_if_no_progress (refine State.Kept.same rfl rfl rfl rfl rfl rfl rfl rfl rfl ?_))

theorem State.rangeUnit_kept {q : List Instr} {o : List Output} {s x1 x2} (h : State.Kept q o s) : State.Kept q o (State.rangeUnit s x1 x2) := by
  unfold State.rangeUnit
  repeat' first
    | (with_reducible first
      | assumption
      | (extract_lets +onlyGivenNames σ; refine (?_ : State.Kept q o σ → _) ?_; (on_goal 1 => (intro hσ; clear_value σ)); (on_goal 2 => (dsimp only [σ]; try clear σ)))
      | (extract_lets +onlyGivenNames σ; first | (have : Nat := σ; clear this) | (have : Bool := σ; clear this) | (have : Option Nat := σ; clear this); clear_value σ)
      | (extract_lets +onlyGivenNames σ; refine (?_ : State.Kept q o σ.2 → _) ?_; (on_goal 1 => (intro hσ; clear_value σ)); (on_goal 2 => (dsimp only [σ]; try clear σ)))
      | (extract_lets +onlyGivenNames σ; first | (have : Dram := σ; clear this) | (have : Cirrus := σ; clear this) | (have : Protection := σ; clear this) | (have : Sampler := σ; clear this) | (have : Faults := σ; clear this))
      | (extract_lets +onlyGivenNames σ; try clear_value σ)
      | split
      | refine State.advance_kept ?_
      | refine State.pageStatus_kept ?_
      | fail_if_no_progress (refine State.Kept.same rfl rfl rfl rfl rfl rfl rfl rfl rfl ?_))

theorem execDemoteRange_kept {q : List Instr} {o : List Output} {s x0 x1} (h : State.Kept q o s) : KeptN q o (execDemoteRange x0 x1 s) := by
  unfold execDemoteRange
  repeat' first
    | (with_reducible first
      | assumption
      | intro _
      | refine KeptN.next ?_
      | refine State.runDesc_kept ?_ ?_
      | refine State.rangeUnit_kept ?_
      | fail_if_no_progress (refine State.Kept.same rfl rfl rfl rfl rfl rfl rfl rfl rfl ?_))

theorem execPromoteRange_kept {q : List Instr} {o : List Output} {s x0 x1} (h : State.Kept q o s) : KeptN q o (execPromoteRange x0 x1 s) := by
  unfold execPromoteRange
  repeat' first
    | (with_reducible first
      | assumption
      | intro _
      | refine KeptN.next ?_
      | refine State.runDesc_kept ?_ ?_
      | refine State.rangeUnit_kept ?_
      | fail_if_no_progress (refine State.Kept.same rfl rfl rfl rfl rfl rfl rfl rfl rfl ?_))

theorem State.setHint_kept {q : List Instr} {o : List Output} {s dpn hint} (h : State.Kept q o s) : State.Kept q o (State.setHint s dpn hint) := by
  unfold State.setHint
  extract_lets e s1
  have h1 : State.Kept q o s1 := by
    dsimp only [s1]
    split
    · exact State.touchEntry_kept h
    · exact State.replaceEntry_kept h
  by_cases hc : hint = hintHot ∧ e.state = PageState.nimbus
  · rw [if_pos hc]
    exact State.postPromotion_kept h1
  · rw [if_neg hc]
    by_cases hd : hint = hintCold ∧ e.state = PageState.stratus ∧ s1.nimbusAllowed e.claim = true
    · rw [if_pos hd]
      exact State.postDemotion_kept h1
    · rw [if_neg hd]
      exact h1

theorem State.hintUnit_kept {q : List Instr} {o : List Output} {s x1 x2} (h : State.Kept q o s) : State.Kept q o (State.hintUnit s x1 x2) := by
  unfold State.hintUnit
  repeat' first
    | (with_reducible first
      | assumption
      | (extract_lets +onlyGivenNames σ; refine (?_ : State.Kept q o σ → _) ?_; (on_goal 1 => (intro hσ; clear_value σ)); (on_goal 2 => (dsimp only [σ]; try clear σ)))
      | (extract_lets +onlyGivenNames σ; first | (have : Nat := σ; clear this) | (have : Bool := σ; clear this) | (have : Option Nat := σ; clear this); clear_value σ)
      | (extract_lets +onlyGivenNames σ; refine (?_ : State.Kept q o σ.2 → _) ?_; (on_goal 1 => (intro hσ; clear_value σ)); (on_goal 2 => (dsimp only [σ]; try clear σ)))
      | (extract_lets +onlyGivenNames σ; first | (have : Dram := σ; clear this) | (have : Cirrus := σ; clear this) | (have : Protection := σ; clear this) | (have : Sampler := σ; clear this) | (have : Faults := σ; clear this))
      | (extract_lets +onlyGivenNames σ; try clear_value σ)
      | split
      | refine State.setHint_kept ?_
      | refine State.setDesc_kept ?_
      | refine State.finishDesc_kept ?_
      | fail_if_no_progress (refine State.Kept.same rfl rfl rfl rfl rfl rfl rfl rfl rfl ?_))

theorem execHintHot_kept {q : List Instr} {o : List Output} {s x0 x1} (h : State.Kept q o s) : KeptN q o (execHintHot x0 x1 s) := by
  unfold execHintHot
  repeat' first
    | (with_reducible first
      | assumption
      | intro _
      | refine KeptN.next ?_
      | refine State.runDesc_kept ?_ ?_
      | refine State.hintUnit_kept ?_
      | fail_if_no_progress (refine State.Kept.same rfl rfl rfl rfl rfl rfl rfl rfl rfl ?_))

theorem execHintCold_kept {q : List Instr} {o : List Output} {s x0 x1} (h : State.Kept q o s) : KeptN q o (execHintCold x0 x1 s) := by
  unfold execHintCold
  repeat' first
    | (with_reducible first
      | assumption
      | intro _
      | refine KeptN.next ?_
      | refine State.runDesc_kept ?_ ?_
      | refine State.hintUnit_kept ?_
      | fail_if_no_progress (refine State.Kept.same rfl rfl rfl rfl rfl rfl rfl rfl rfl ?_))

theorem State.fetchLine_kept {q : List Instr} {o : List Output} {s x1 x2} (h : State.Kept q o s) : State.Kept q o (State.fetchLine s x1 x2).2 := by
  unfold State.fetchLine
  repeat' first
    | (with_reducible first
      | assumption
      | (extract_lets +onlyGivenNames σ; first | (have : Nat := σ; clear this) | (have : Bool := σ; clear this) | (have : Option Nat := σ; clear this); clear_value σ)
      | (extract_lets +onlyGivenNames σ; refine (?_ : State.Kept q o σ.2 → _) ?_; (on_goal 1 => (intro hσ; clear_value σ)); (on_goal 2 => (dsimp only [σ]; try clear σ)))
      | (extract_lets +onlyGivenNames σ; first | (have : Dram := σ; clear this) | (have : Cirrus := σ; clear this) | (have : Protection := σ; clear this) | (have : Sampler := σ; clear this) | (have : Faults := σ; clear this))
      | (extract_lets +onlyGivenNames σ; try clear_value σ)
      | split
      | refine State.readStored_kept ?_
      | refine State.fillBlock_kept ?_
      | refine State.cirFill_kept ?_
      | refine State.Kept.snd ‹_› ?_
      | fail_if_no_progress (refine State.Kept.same rfl rfl rfl rfl rfl rfl rfl rfl rfl ?_))

theorem State.pinUnit_kept {q : List Instr} {o : List Output} {s x1 x2 x3 x4} (h : State.Kept q o s) : State.Kept q o (State.pinUnit s x1 x2 x3 x4) := by
  unfold State.pinUnit
  repeat' first
    | (with_reducible first
      | assumption
      | intro _
      | (extract_lets +onlyGivenNames σ; refine (?_ : State.Kept q o σ → _) ?_; (on_goal 1 => (intro hσ; clear_value σ)); (on_goal 2 => (dsimp only [σ]; try clear σ)))
      | (extract_lets +onlyGivenNames σ; first | (have : Nat := σ; clear this) | (have : Bool := σ; clear this) | (have : Option Nat := σ; clear this); clear_value σ)
      | (extract_lets +onlyGivenNames σ; refine (?_ : State.Kept q o σ.2 → _) ?_; (on_goal 1 => (intro hσ; clear_value σ)); (on_goal 2 => (dsimp only [σ]; try clear σ)))
      | (extract_lets +onlyGivenNames σ; first | (have : Dram := σ; clear this) | (have : Cirrus := σ; clear this) | (have : Protection := σ; clear this) | (have : Sampler := σ; clear this) | (have : Faults := σ; clear this))
      | (extract_lets +onlyGivenNames σ; try clear_value σ)
      | split
      | refine State.eachLine_kept ?_ ?_
      | refine State.fetchLine_kept ?_
      | refine State.takeUnits_kept ?_
      | refine State.pinLine_kept ?_
      | refine State.setDesc_kept ?_
      | refine State.finishDesc_kept ?_
      | refine State.Kept.snd ‹_› ?_
      | fail_if_no_progress (refine State.Kept.same rfl rfl rfl rfl rfl rfl rfl rfl rfl ?_))

theorem execPin_kept {q : List Instr} {o : List Output} {s x0 x1 x2} (h : State.Kept q o s) : KeptN q o (execPin x0 x1 x2 s) := by
  unfold execPin
  repeat' first
    | (with_reducible first
      | assumption
      | intro _
      | refine KeptN.next ?_
      | refine State.runDesc_kept ?_ ?_
      | refine State.pinUnit_kept ?_
      | fail_if_no_progress (refine State.Kept.same rfl rfl rfl rfl rfl rfl rfl rfl rfl ?_))

theorem State.unpinUnit_kept {q : List Instr} {o : List Output} {s x1 x2 x3} (h : State.Kept q o s) : State.Kept q o (State.unpinUnit s x1 x2 x3) := by
  unfold State.unpinUnit
  repeat' first
    | (with_reducible first
      | assumption
      | intro _
      | (extract_lets +onlyGivenNames σ; refine (?_ : State.Kept q o σ → _) ?_; (on_goal 1 => (intro hσ; clear_value σ)); (on_goal 2 => (dsimp only [σ]; try clear σ)))
      | (extract_lets +onlyGivenNames σ; first | (have : Nat := σ; clear this) | (have : Bool := σ; clear this) | (have : Option Nat := σ; clear this); clear_value σ)
      | (extract_lets +onlyGivenNames σ; refine (?_ : State.Kept q o σ.2 → _) ?_; (on_goal 1 => (intro hσ; clear_value σ)); (on_goal 2 => (dsimp only [σ]; try clear σ)))
      | (extract_lets +onlyGivenNames σ; first | (have : Dram := σ; clear this) | (have : Cirrus := σ; clear this) | (have : Protection := σ; clear this) | (have : Sampler := σ; clear this) | (have : Faults := σ; clear this))
      | (extract_lets +onlyGivenNames σ; try clear_value σ)
      | split
      | refine State.eachLine_kept ?_ ?_
      | refine State.setDesc_kept ?_
      | refine State.unpinWay_kept ?_
      | refine State.finishDesc_kept ?_
      | fail_if_no_progress (refine State.Kept.same rfl rfl rfl rfl rfl rfl rfl rfl rfl ?_))

theorem execUnpin_kept {q : List Instr} {o : List Output} {s x0 x1} (h : State.Kept q o s) : KeptN q o (execUnpin x0 x1 s) := by
  unfold execUnpin
  repeat' first
    | (with_reducible first
      | assumption
      | intro _
      | refine KeptN.next ?_
      | refine State.runDesc_kept ?_ ?_
      | refine State.unpinUnit_kept ?_
      | fail_if_no_progress (refine State.Kept.same rfl rfl rfl rfl rfl rfl rfl rfl rfl ?_))

theorem State.flushUnit_kept {q : List Instr} {o : List Output} {s x1 x2 x3 x4} (h : State.Kept q o s) : State.Kept q o (State.flushUnit s x1 x2 x3 x4) := by
  unfold State.flushUnit
  repeat' first
    | (with_reducible first
      | assumption
      | (extract_lets +onlyGivenNames σ; refine (?_ : State.Kept q o σ → _) ?_; (on_goal 1 => (intro hσ; clear_value σ)); (on_goal 2 => (dsimp only [σ]; try clear σ)))
      | (extract_lets +onlyGivenNames σ; first | (have : Nat := σ; clear this) | (have : Bool := σ; clear this) | (have : Option Nat := σ; clear this); clear_value σ)
      | (extract_lets +onlyGivenNames σ; refine (?_ : State.Kept q o σ.2 → _) ?_; (on_goal 1 => (intro hσ; clear_value σ)); (on_goal 2 => (dsimp only [σ]; try clear σ)))
      | (extract_lets +onlyGivenNames σ; first | (have : Dram := σ; clear this) | (have : Cirrus := σ; clear this) | (have : Protection := σ; clear this) | (have : Sampler := σ; clear this) | (have : Faults := σ; clear this))
      | (extract_lets +onlyGivenNames σ; try clear_value σ)
      | split
      | refine State.flush_kept ?_
      | refine State.setDesc_kept ?_
      | refine State.finishDesc_kept ?_
      | refine State.Kept.snd ‹_› ?_
      | fail_if_no_progress (refine State.Kept.same rfl rfl rfl rfl rfl rfl rfl rfl rfl ?_))

theorem execFlush_kept {q : List Instr} {o : List Output} {s x0 x1 x2} (h : State.Kept q o s) : KeptN q o (execFlush x0 x1 x2 s) := by
  unfold execFlush
  repeat' first
    | (with_reducible first
      | assumption
      | intro _
      | refine KeptN.next ?_
      | refine State.runDesc_kept ?_ ?_
      | refine State.flushUnit_kept ?_
      | fail_if_no_progress (refine State.Kept.same rfl rfl rfl rfl rfl rfl rfl rfl rfl ?_))

theorem State.scrubUnit_kept {q : List Instr} {o : List Output} {s x1 x2 x3} (h : State.Kept q o s) : State.Kept q o (State.scrubUnit s x1 x2 x3) := by
  unfold State.scrubUnit
  repeat' first
    | (with_reducible first
      | assumption
      | split
      | refine State.startScrub_kept ?_
      | refine State.advance_kept ?_
      | fail_if_no_progress (refine State.Kept.same rfl rfl rfl rfl rfl rfl rfl rfl rfl ?_))

theorem execScrubRange_kept {q : List Instr} {o : List Output} {s x0 x1} (h : State.Kept q o s) : KeptN q o (execScrubRange x0 x1 s) := by
  unfold execScrubRange
  repeat' first
    | (with_reducible first
      | assumption
      | intro _
      | refine KeptN.next ?_
      | refine State.runDesc_kept ?_ ?_
      | refine State.scrubUnit_kept ?_
      | fail_if_no_progress (refine State.Kept.same rfl rfl rfl rfl rfl rfl rfl rfl rfl ?_))

theorem State.cutDesc_kept {q : List Instr} {o : List Output} {s x1 x2 x3} (h : State.Kept q o s) : State.Kept q o (State.cutDesc s x1 x2 x3) := by
  unfold State.cutDesc
  repeat' first
    | (with_reducible first
      | assumption
      | (extract_lets +onlyGivenNames σ; first | (have : Nat := σ; clear this) | (have : Bool := σ; clear this) | (have : Option Nat := σ; clear this); clear_value σ)
      | (extract_lets +onlyGivenNames σ; refine (?_ : State.Kept q o σ.2 → _) ?_; (on_goal 1 => (intro hσ; clear_value σ)); (on_goal 2 => (dsimp only [σ]; try clear σ)))
      | (extract_lets +onlyGivenNames σ; first | (have : Dram := σ; clear this) | (have : Cirrus := σ; clear this) | (have : Protection := σ; clear this) | (have : Sampler := σ; clear this) | (have : Faults := σ; clear this))
      | (extract_lets +onlyGivenNames σ; try clear_value σ)
      | split
      | refine State.finishDesc_kept ?_
      | refine State.cutSlot_kept ?_
      | fail_if_no_progress (refine State.Kept.same rfl rfl rfl rfl rfl rfl rfl rfl rfl ?_))

theorem execSnapCut_kept {q : List Instr} {o : List Output} {s x0 x1} (h : State.Kept q o s) : KeptN q o (execSnapCut x0 x1 s) := by
  unfold execSnapCut
  repeat' first
    | (with_reducible first
      | assumption
      | intro _
      | refine KeptN.next ?_
      | refine State.runDesc_kept ?_ ?_
      | refine State.cutDesc_kept ?_
      | fail_if_no_progress (refine State.Kept.same rfl rfl rfl rfl rfl rfl rfl rfl rfl ?_))

theorem State.exportDesc_kept {q : List Instr} {o : List Output} {s x1 x2 x3} (h : State.Kept q o s) : State.Kept q o (State.exportDesc s x1 x2 x3) := by
  unfold State.exportDesc
  repeat' first
    | (with_reducible first
      | assumption
      | split
      | refine State.exportTo_kept ?_
      | refine State.advance_kept ?_
      | fail_if_no_progress (refine State.Kept.same rfl rfl rfl rfl rfl rfl rfl rfl rfl ?_))

theorem execSnapExport_kept {q : List Instr} {o : List Output} {s x0 x1} (h : State.Kept q o s) : KeptN q o (execSnapExport x0 x1 s) := by
  unfold execSnapExport
  repeat' first
    | (with_reducible first
      | assumption
      | intro _
      | refine KeptN.next ?_
      | refine State.runDesc_kept ?_ ?_
      | refine State.exportDesc_kept ?_
      | fail_if_no_progress (refine State.Kept.same rfl rfl rfl rfl rfl rfl rfl rfl rfl ?_))

theorem State.releaseDesc_kept {q : List Instr} {o : List Output} {s x1 x2 x3} (h : State.Kept q o s) : State.Kept q o (State.releaseDesc s x1 x2 x3) := by
  unfold State.releaseDesc
  repeat' first
    | (with_reducible first
      | assumption
      | split
      | refine State.releaseSlot_kept ?_
      | refine State.finishDesc_kept ?_
      | refine State.Kept.snd ‹_› ?_
      | fail_if_no_progress (refine State.Kept.same rfl rfl rfl rfl rfl rfl rfl rfl rfl ?_))

theorem execSnapRelease_kept {q : List Instr} {o : List Output} {s x0 x1} (h : State.Kept q o s) : KeptN q o (execSnapRelease x0 x1 s) := by
  unfold execSnapRelease
  repeat' first
    | (with_reducible first
      | assumption
      | intro _
      | refine KeptN.next ?_
      | refine State.runDesc_kept ?_ ?_
      | refine State.releaseDesc_kept ?_
      | fail_if_no_progress (refine State.Kept.same rfl rfl rfl rfl rfl rfl rfl rfl rfl ?_))

theorem State.importDesc_kept {q : List Instr} {o : List Output} {s x1 x2 x3 x4} (h : State.Kept q o s) : State.Kept q o (State.importDesc s x1 x2 x3 x4) := by
  unfold State.importDesc
  repeat' first
    | (with_reducible first
      | assumption
      | (extract_lets +onlyGivenNames σ; first | (have : Nat := σ; clear this) | (have : Bool := σ; clear this) | (have : Option Nat := σ; clear this); clear_value σ)
      | (extract_lets +onlyGivenNames σ; refine (?_ : State.Kept q o σ.2 → _) ?_; (on_goal 1 => (intro hσ; clear_value σ)); (on_goal 2 => (dsimp only [σ]; try clear σ)))
      | (extract_lets +onlyGivenNames σ; first | (have : Dram := σ; clear this) | (have : Cirrus := σ; clear this) | (have : Protection := σ; clear this) | (have : Sampler := σ; clear this) | (have : Faults := σ; clear this))
      | (extract_lets +onlyGivenNames σ; try clear_value σ)
      | split
      | refine State.finishDesc_kept ?_
      | fail_if_no_progress (refine State.Kept.same rfl rfl rfl rfl rfl rfl rfl rfl rfl ?_))

theorem execImportStream_kept {q : List Instr} {o : List Output} {s x0 x1 x2} (h : State.Kept q o s) : KeptN q o (execImportStream x0 x1 x2 s) := by
  unfold execImportStream
  repeat' first
    | (with_reducible first
      | assumption
      | intro _
      | refine KeptN.next ?_
      | refine State.runDesc_kept ?_ ?_
      | refine State.importDesc_kept ?_
      | fail_if_no_progress (refine State.Kept.same rfl rfl rfl rfl rfl rfl rfl rfl rfl ?_))

theorem execFence_kept {q : List Instr} {o : List Output} {s x0 x1} (h : State.Kept q o s) : KeptN q o (execFence x0 x1 s) := by
  unfold execFence
  repeat' first
    | (with_reducible first
      | assumption
      | intro _
      | split
      | refine KeptN.next ?_
      | refine State.runDesc_kept ?_ ?_
      | refine State.finishDesc_kept ?_
      | fail_if_no_progress (refine State.Kept.same rfl rfl rfl rfl rfl rfl rfl rfl rfl ?_))

end Sys2Proof.Machine
end

