-- ==== Sys2Proof/Laws/FaultCmds.lean ====
section
/-! SUPPORT. What each operation of Machine/FaultCmds keeps. -/

set_option linter.all false

namespace Sys2Proof.Machine

theorem State.clearSticky_kept {q : List Instr} {o : List Output} {s x1 x2} (h : State.Kept q o s) : State.Kept q o (State.clearSticky s x1 x2) := by
  unfold State.clearSticky
  repeat' first
    | (with_reducible first
      | assumption
      | split
      | refine State.driveErrn_kept ?_
      | refine State.writeField_kept ?_
      | fail_if_no_progress (refine State.Kept.same rfl rfl rfl rfl rfl rfl rfl rfl rfl ?_))

theorem execFltStickyClear_kept {q : List Instr} {o : List Output} {s x0 x1} (h : State.Kept q o s) : KeptN q o (execFltStickyClear x0 x1 s) := by
  unfold execFltStickyClear
  repeat' first
    | (with_reducible first
      | assumption
      | refine KeptN.next ?_
      | refine State.done_kept ?_
      | refine State.clearSticky_kept ?_
      | fail_if_no_progress (refine State.Kept.same rfl rfl rfl rfl rfl rfl rfl rfl rfl ?_))

theorem execChiprst_kept {q : List Instr} {o : List Output} {s} (h : State.Kept q o s) : KeptN q o (execChiprst s) := by
  unfold execChiprst
  repeat' first
    | (with_reducible first
      | assumption
      | split
      | refine KeptN.next ?_
      | refine State.done_kept ?_
      | refine State.coldReset_kept ?_
      | fail_if_no_progress (refine State.Kept.same rfl rfl rfl rfl rfl rfl rfl rfl rfl ?_))

theorem execFltFifoRead_kept {q : List Instr} {o : List Output} {s x0} (h : State.Kept q o s) : KeptN q o (execFltFifoRead x0 s) := by
  unfold execFltFifoRead
  repeat' first
    | (with_reducible first
      | assumption
      | split
      | refine KeptN.next ?_
      | refine State.done_kept ?_
      | refine State.send_kept ?_
      | refine State.popFault_kept ?_
      | refine State.Kept.snd ‹_› ?_
      | fail_if_no_progress (refine State.Kept.same rfl rfl rfl rfl rfl rfl rfl rfl rfl ?_))

theorem execHbeatToggle_kept {q : List Instr} {o : List Output} {s} (h : State.Kept q o s) : KeptN q o (execHbeatToggle s) := by
  unfold execHbeatToggle
  repeat' first
    | (with_reducible first
      | assumption
      | split
      | refine KeptN.next ?_
      | refine State.done_kept ?_
      | refine State.wr_kept ?_
      | refine State.put_kept ?_
      | fail_if_no_progress (refine State.Kept.same rfl rfl rfl rfl rfl rfl rfl rfl rfl ?_))

theorem execEventRecord_kept {q : List Instr} {o : List Output} {s x0} (h : State.Kept q o s) : KeptN q o (execEventRecord x0 s) := by
  unfold execEventRecord
  repeat' first
    | (with_reducible first
      | assumption
      | split
      | refine KeptN.next ?_
      | refine State.done_kept ?_
      | refine State.eventRecord_kept ?_
      | fail_if_no_progress (refine State.Kept.same rfl rfl rfl rfl rfl rfl rfl rfl rfl ?_))

theorem State.setReactions_kept {q : List Instr} {o : List Output} {s x1 x2} (h : State.Kept q o s) : State.Kept q o (State.setReactions s x1 x2) := by
  unfold State.setReactions
  repeat' first
    | (with_reducible first
      | assumption
      | (extract_lets +onlyGivenNames σ; first | (have : Nat := σ; clear this) | (have : Bool := σ; clear this) | (have : Option Nat := σ; clear this); clear_value σ)
      | (extract_lets +onlyGivenNames σ; refine (?_ : State.Kept q o σ.2 → _) ?_; (on_goal 1 => (intro hσ; clear_value σ)); (on_goal 2 => (dsimp only [σ]; try clear σ)))
      | (extract_lets +onlyGivenNames σ; first | (have : Dram := σ; clear this) | (have : Cirrus := σ; clear this) | (have : Protection := σ; clear this) | (have : Sampler := σ; clear this) | (have : Faults := σ; clear this))
      | (extract_lets +onlyGivenNames σ; try clear_value σ)
      | refine State.driveErrn_kept ?_
      | refine State.storeFields_kept ?_
      | fail_if_no_progress (refine State.Kept.same rfl rfl rfl rfl rfl rfl rfl rfl rfl ?_))

theorem State.setInterrupt_kept {q : List Instr} {o : List Output} {s x1} (h : State.Kept q o s) : State.Kept q o (State.setInterrupt s x1) := by
  unfold State.setInterrupt
  repeat' first
    | (with_reducible first
      | assumption
      | refine State.releaseInterrupt_kept ?_
      | refine State.storeFields_kept ?_
      | fail_if_no_progress (refine State.Kept.same rfl rfl rfl rfl rfl rfl rfl rfl rfl ?_))

theorem execFltSrccfgWrite_kept {q : List Instr} {o : List Output} {s x0 x1} (h : State.Kept q o s) : KeptN q o (execFltSrccfgWrite x0 x1 s) := by
  unfold execFltSrccfgWrite
  repeat' first
    | (with_reducible first
      | assumption
      | refine KeptN.next ?_
      | refine State.done_kept ?_
      | refine State.setReactions_kept ?_
      | fail_if_no_progress (refine State.Kept.same rfl rfl rfl rfl rfl rfl rfl rfl rfl ?_))

theorem execFltIntcfgWrite_kept {q : List Instr} {o : List Output} {s x0} (h : State.Kept q o s) : KeptN q o (execFltIntcfgWrite x0 s) := by
  unfold execFltIntcfgWrite
  repeat' first
    | (with_reducible first
      | assumption
      | refine KeptN.next ?_
      | refine State.done_kept ?_
      | refine State.setInterrupt_kept ?_
      | fail_if_no_progress (refine State.Kept.same rfl rfl rfl rfl rfl rfl rfl rfl rfl ?_))

end Sys2Proof.Machine
end

