-- ==== Sys2Proof/Laws/MailCmds.lean ====
section
/-! SUPPORT. What each operation of Machine/MailCmds keeps. -/

set_option linter.all false

namespace Sys2Proof.Machine

theorem State.received_kept {q : List Instr} {o : List Output} {s x1 x2 x3} (hx3 : ∀ a0, State.Kept q o a0 → ((x3 a0)).Kept q o) (h : State.Kept q o s) : State.Kept q o (State.received s x1 x2 x3) := by
  unfold State.received
  repeat' first
    | (with_reducible first
      | assumption
      | split
      | refine hx3 _  ?_
      | refine State.reply_kept ?_
      | fail_if_no_progress (refine State.Kept.same rfl rfl rfl rfl rfl rfl rfl rfl rfl ?_))

theorem State.standard_kept {q : List Instr} {o : List Output} {s x1 x2 x3} (hx3 : ∀ a0, State.Kept q o a0 → ((x3 a0)).Kept q o) (h : State.Kept q o s) : State.Kept q o (State.standard s x1 x2 x3) := by
  unfold State.standard
  repeat' first
    | (with_reducible first
      | assumption
      | intro _
      | split
      | refine hx3 _  ?_
      | refine State.received_kept ?_ ?_
      | refine State.reply_kept ?_
      | fail_if_no_progress (refine State.Kept.same rfl rfl rfl rfl rfl rfl rfl rfl rfl ?_))

theorem State.inBackground_kept {q : List Instr} {o : List Output} {s x1 x2} (hx2 : ∀ a0, State.Kept q o a0 → ((x2 a0)).Kept q o) (h : State.Kept q o s) : State.Kept q o (State.inBackground s x1 x2) := by
  unfold State.inBackground
  repeat' first
    | (with_reducible first
      | assumption
      | split
      | refine hx2 _  ?_
      | refine State.reply_kept ?_
      | fail_if_no_progress (refine State.Kept.same rfl rfl rfl rfl rfl rfl rfl rfl rfl ?_))

theorem State.replyFree_kept {q : List Instr} {o : List Output} {s x1 x2} (h : State.Kept q o s) : State.Kept q o (State.replyFree s x1 x2) := by
  unfold State.replyFree
  repeat' first
    | (with_reducible first
      | assumption
      | split
      | refine State.draw_kept ?_
      | refine State.reply_kept ?_
      | refine State.Kept.snd ‹_› ?_
      | fail_if_no_progress (refine State.Kept.same rfl rfl rfl rfl rfl rfl rfl rfl rfl ?_))

theorem execCciIdentify_kept {q : List Instr} {o : List Output} {s x0} (h : State.Kept q o s) : KeptN q o (execCciIdentify x0 s) := by
  unfold execCciIdentify
  repeat' first
    | (with_reducible first
      | assumption
      | intro _
      | refine KeptN.next ?_
      | refine State.done_kept ?_
      | refine State.standard_kept ?_ ?_
      | refine State.reply_kept ?_
      | fail_if_no_progress (refine State.Kept.same rfl rfl rfl rfl rfl rfl rfl rfl rfl ?_))

theorem State.percent_kept {q : List Instr} {o : List Output} {s x1 x2} (h : State.Kept q o s) : State.Kept q o (State.percent s x1 x2).2 := by
  unfold State.percent
  repeat' first
    | (with_reducible first
      | assumption
      | split
      | refine State.draw_kept ?_
      | refine State.Kept.snd ‹_› ?_
      | fail_if_no_progress (refine State.Kept.same rfl rfl rfl rfl rfl rfl rfl rfl rfl ?_))

theorem execBackgroundOperationStatus_kept {q : List Instr} {o : List Output} {s x0} (h : State.Kept q o s) : KeptN q o (execBackgroundOperationStatus x0 s) := by
  unfold execBackgroundOperationStatus
  repeat' first
    | (with_reducible first
      | assumption
      | intro _
      | (extract_lets +onlyGivenNames σ; first | (have : Nat := σ; clear this) | (have : Bool := σ; clear this) | (have : Option Nat := σ; clear this); clear_value σ)
      | (extract_lets +onlyGivenNames σ; refine (?_ : State.Kept q o σ.2 → _) ?_; (on_goal 1 => (intro hσ; clear_value σ)); (on_goal 2 => (dsimp only [σ]; try clear σ)))
      | (extract_lets +onlyGivenNames σ; first | (have : Dram := σ; clear this) | (have : Cirrus := σ; clear this) | (have : Protection := σ; clear this) | (have : Sampler := σ; clear this) | (have : Faults := σ; clear this))
      | (extract_lets +onlyGivenNames σ; try clear_value σ)
      | split
      | refine KeptN.next ?_
      | refine State.done_kept ?_
      | refine State.received_kept ?_ ?_
      | refine State.percent_kept ?_
      | refine State.reply_kept ?_
      | refine State.Kept.snd ‹_› ?_
      | fail_if_no_progress (refine State.Kept.same rfl rfl rfl rfl rfl rfl rfl rfl rfl ?_))

theorem execRequestAbortBackgroundOperation_kept {q : List Instr} {o : List Output} {s x0} (h : State.Kept q o s) : KeptN q o (execRequestAbortBackgroundOperation x0 s) := by
  unfold execRequestAbortBackgroundOperation
  repeat' first
    | (with_reducible first
      | assumption
      | intro _
      | split
      | refine KeptN.next ?_
      | refine State.done_kept ?_
      | refine State.received_kept ?_ ?_
      | refine State.reply_kept ?_
      | refine State.stopScrub_kept ?_
      | fail_if_no_progress (refine State.Kept.same rfl rfl rfl rfl rfl rfl rfl rfl rfl ?_))

theorem execGetResponseMessageLimit_kept {q : List Instr} {o : List Output} {s x0} (h : State.Kept q o s) : KeptN q o (execGetResponseMessageLimit x0 s) := by
  unfold execGetResponseMessageLimit
  repeat' first
    | (with_reducible first
      | assumption
      | intro _
      | refine KeptN.next ?_
      | refine State.done_kept ?_
      | refine State.standard_kept ?_ ?_
      | refine State.reply_kept ?_
      | fail_if_no_progress (refine State.Kept.same rfl rfl rfl rfl rfl rfl rfl rfl rfl ?_))

theorem execSetResponseMessageLimit_kept {q : List Instr} {o : List Output} {s x0 x1} (h : State.Kept q o s) : KeptN q o (execSetResponseMessageLimit x0 x1 s) := by
  unfold execSetResponseMessageLimit
  repeat' first
    | (with_reducible first
      | assumption
      | intro _
      | (extract_lets +onlyGivenNames σ; first | (have : Nat := σ; clear this) | (have : Bool := σ; clear this) | (have : Option Nat := σ; clear this); clear_value σ)
      | (extract_lets +onlyGivenNames σ; refine (?_ : State.Kept q o σ.2 → _) ?_; (on_goal 1 => (intro hσ; clear_value σ)); (on_goal 2 => (dsimp only [σ]; try clear σ)))
      | (extract_lets +onlyGivenNames σ; first | (have : Dram := σ; clear this) | (have : Cirrus := σ; clear this) | (have : Protection := σ; clear this) | (have : Sampler := σ; clear this) | (have : Faults := σ; clear this))
      | (extract_lets +onlyGivenNames σ; try clear_value σ)
      | split
      | refine KeptN.next ?_
      | refine State.done_kept ?_
      | refine State.standard_kept ?_ ?_
      | refine State.reply_kept ?_
      | refine State.setCci_kept ?_
      | fail_if_no_progress (refine State.Kept.same rfl rfl rfl rfl rfl rfl rfl rfl rfl ?_))

theorem execGetEventRecords_kept {q : List Instr} {o : List Output} {s x0 x1} (h : State.Kept q o s) : KeptN q o (execGetEventRecords x0 x1 s) := by
  unfold execGetEventRecords
  repeat' first
    | (with_reducible first
      | assumption
      | intro _
      | split
      | refine KeptN.next ?_
      | refine State.done_kept ?_
      | refine State.standard_kept ?_ ?_
      | refine State.reply_kept ?_
      | fail_if_no_progress (refine State.Kept.same rfl rfl rfl rfl rfl rfl rfl rfl rfl ?_))

theorem execClearEventRecords_kept {q : List Instr} {o : List Output} {s x0 x1 x2 x3} (h : State.Kept q o s) : KeptN q o (execClearEventRecords x0 x1 x2 x3 s) := by
  unfold execClearEventRecords
  repeat' first
    | (with_reducible first
      | assumption
      | intro _
      | (extract_lets +onlyGivenNames σ; first | (have : Nat := σ; clear this) | (have : Bool := σ; clear this) | (have : Option Nat := σ; clear this); clear_value σ)
      | (extract_lets +onlyGivenNames σ; refine (?_ : State.Kept q o σ.2 → _) ?_; (on_goal 1 => (intro hσ; clear_value σ)); (on_goal 2 => (dsimp only [σ]; try clear σ)))
      | (extract_lets +onlyGivenNames σ; first | (have : Dram := σ; clear this) | (have : Cirrus := σ; clear this) | (have : Protection := σ; clear this) | (have : Sampler := σ; clear this) | (have : Faults := σ; clear this))
      | (extract_lets +onlyGivenNames σ; try clear_value σ)
      | split
      | refine KeptN.next ?_
      | refine State.done_kept ?_
      | refine State.standard_kept ?_ ?_
      | refine State.reply_kept ?_
      | refine State.setEventLog_kept ?_
      | fail_if_no_progress (refine State.Kept.same rfl rfl rfl rfl rfl rfl rfl rfl rfl ?_))

theorem execGetEventInterruptPolicy_kept {q : List Instr} {o : List Output} {s x0} (h : State.Kept q o s) : KeptN q o (execGetEventInterruptPolicy x0 s) := by
  unfold execGetEventInterruptPolicy
  repeat' first
    | (with_reducible first
      | assumption
      | intro _
      | refine KeptN.next ?_
      | refine State.done_kept ?_
      | refine State.standard_kept ?_ ?_
      | refine State.reply_kept ?_
      | fail_if_no_progress (refine State.Kept.same rfl rfl rfl rfl rfl rfl rfl rfl rfl ?_))

theorem execSetEventInterruptPolicy_kept {q : List Instr} {o : List Output} {s x0 x1} (h : State.Kept q o s) : KeptN q o (execSetEventInterruptPolicy x0 x1 s) := by
  unfold execSetEventInterruptPolicy
  repeat' first
    | (with_reducible first
      | assumption
      | intro _
      | (extract_lets +onlyGivenNames σ; first | (have : Nat := σ; clear this) | (have : Bool := σ; clear this) | (have : Option Nat := σ; clear this); clear_value σ)
      | (extract_lets +onlyGivenNames σ; refine (?_ : State.Kept q o σ.2 → _) ?_; (on_goal 1 => (intro hσ; clear_value σ)); (on_goal 2 => (dsimp only [σ]; try clear σ)))
      | (extract_lets +onlyGivenNames σ; first | (have : Dram := σ; clear this) | (have : Cirrus := σ; clear this) | (have : Protection := σ; clear this) | (have : Sampler := σ; clear this) | (have : Faults := σ; clear this))
      | (extract_lets +onlyGivenNames σ; try clear_value σ)
      | split
      | refine KeptN.next ?_
      | refine State.done_kept ?_
      | refine State.standard_kept ?_ ?_
      | refine State.reply_kept ?_
      | refine State.setCci_kept ?_
      | fail_if_no_progress (refine State.Kept.same rfl rfl rfl rfl rfl rfl rfl rfl rfl ?_))

theorem execGetFwInfo_kept {q : List Instr} {o : List Output} {s x0} (h : State.Kept q o s) : KeptN q o (execGetFwInfo x0 s) := by
  unfold execGetFwInfo
  repeat' first
    | (with_reducible first
      | assumption
      | intro _
      | refine KeptN.next ?_
      | refine State.done_kept ?_
      | refine State.standard_kept ?_ ?_
      | refine State.reply_kept ?_
      | fail_if_no_progress (refine State.Kept.same rfl rfl rfl rfl rfl rfl rfl rfl rfl ?_))

theorem State.spoilSlot_kept {q : List Instr} {o : List Output} {s x1} (h : State.Kept q o s) : State.Kept q o (State.spoilSlot s x1) := by
  unfold State.spoilSlot
  repeat' first
    | (with_reducible first
      | assumption
      | (extract_lets +onlyGivenNames σ; first | (have : Nat := σ; clear this) | (have : Bool := σ; clear this) | (have : Option Nat := σ; clear this); clear_value σ)
      | (extract_lets +onlyGivenNames σ; refine (?_ : State.Kept q o σ.2 → _) ?_; (on_goal 1 => (intro hσ; clear_value σ)); (on_goal 2 => (dsimp only [σ]; try clear σ)))
      | (extract_lets +onlyGivenNames σ; first | (have : Dram := σ; clear this) | (have : Cirrus := σ; clear this) | (have : Protection := σ; clear this) | (have : Sampler := σ; clear this) | (have : Faults := σ; clear this))
      | (extract_lets +onlyGivenNames σ; try clear_value σ)
      | split
      | fail_if_no_progress (refine State.Kept.same rfl rfl rfl rfl rfl rfl rfl rfl rfl ?_))

theorem execTransferFw_kept {q : List Instr} {o : List Output} {s x0 x1 x2 x3} (h : State.Kept q o s) : KeptN q o (execTransferFw x0 x1 x2 x3 s) := by
  unfold execTransferFw
  repeat' first
    | (with_reducible first
      | assumption
      | intro _
      | (extract_lets +onlyGivenNames σ; refine (?_ : State.Kept q o σ → _) ?_; (on_goal 1 => (intro hσ; clear_value σ)); (on_goal 2 => (dsimp only [σ]; try clear σ)))
      | (extract_lets +onlyGivenNames σ; first | (have : Nat := σ; clear this) | (have : Bool := σ; clear this) | (have : Option Nat := σ; clear this); clear_value σ)
      | (extract_lets +onlyGivenNames σ; refine (?_ : State.Kept q o σ.2 → _) ?_; (on_goal 1 => (intro hσ; clear_value σ)); (on_goal 2 => (dsimp only [σ]; try clear σ)))
      | (extract_lets +onlyGivenNames σ; first | (have : Dram := σ; clear this) | (have : Cirrus := σ; clear this) | (have : Protection := σ; clear this) | (have : Sampler := σ; clear this) | (have : Faults := σ; clear this))
      | (extract_lets +onlyGivenNames σ; try clear_value σ)
      | split
      | refine KeptN.next ?_
      | refine State.done_kept ?_
      | refine State.standard_kept ?_ ?_
      | refine State.inBackground_kept ?_ ?_
      | refine State.reply_kept ?_
      | refine State.spoilSlot_kept ?_
      | refine State.startBackground_kept ?_
      | fail_if_no_progress (refine State.Kept.same rfl rfl rfl rfl rfl rfl rfl rfl rfl ?_))

theorem execActivateFw_kept {q : List Instr} {o : List Output} {s x0 x1 x2} (h : State.Kept q o s) : KeptN q o (execActivateFw x0 x1 x2 s) := by
  unfold execActivateFw
  repeat' first
    | (with_reducible first
      | assumption
      | intro _
      | split
      | refine KeptN.next ?_
      | refine State.done_kept ?_
      | refine State.standard_kept ?_ ?_
      | refine State.reply_kept ?_
      | fail_if_no_progress (refine State.Kept.same rfl rfl rfl rfl rfl rfl rfl rfl rfl ?_))

theorem execGetTimestamp_kept {q : List Instr} {o : List Output} {s x0} (h : State.Kept q o s) : KeptN q o (execGetTimestamp x0 s) := by
  unfold execGetTimestamp
  repeat' first
    | (with_reducible first
      | assumption
      | intro _
      | refine KeptN.next ?_
      | refine State.done_kept ?_
      | refine State.standard_kept ?_ ?_
      | refine State.reply_kept ?_
      | fail_if_no_progress (refine State.Kept.same rfl rfl rfl rfl rfl rfl rfl rfl rfl ?_))

theorem State.setStamp_kept {q : List Instr} {o : List Output} {s x1} (h : State.Kept q o s) : State.Kept q o (State.setStamp s x1) := by
  unfold State.setStamp
  repeat' first
    | (with_reducible first
      | assumption
      | fail_if_no_progress (refine State.Kept.same rfl rfl rfl rfl rfl rfl rfl rfl rfl ?_))

theorem execSetTimestamp_kept {q : List Instr} {o : List Output} {s x0 x1} (h : State.Kept q o s) : KeptN q o (execSetTimestamp x0 x1 s) := by
  unfold execSetTimestamp
  repeat' first
    | (with_reducible first
      | assumption
      | intro _
      | refine KeptN.next ?_
      | refine State.done_kept ?_
      | refine State.standard_kept ?_ ?_
      | refine State.reply_kept ?_
      | refine State.setStamp_kept ?_
      | fail_if_no_progress (refine State.Kept.same rfl rfl rfl rfl rfl rfl rfl rfl rfl ?_))

theorem execGetSupportedLogs_kept {q : List Instr} {o : List Output} {s x0} (h : State.Kept q o s) : KeptN q o (execGetSupportedLogs x0 s) := by
  unfold execGetSupportedLogs
  repeat' first
    | (with_reducible first
      | assumption
      | intro _
      | refine KeptN.next ?_
      | refine State.done_kept ?_
      | refine State.standard_kept ?_ ?_
      | refine State.replyFree_kept ?_
      | fail_if_no_progress (refine State.Kept.same rfl rfl rfl rfl rfl rfl rfl rfl rfl ?_))

theorem execGetLog_kept {q : List Instr} {o : List Output} {s x0 x1} (h : State.Kept q o s) : KeptN q o (execGetLog x0 x1 s) := by
  unfold execGetLog
  repeat' first
    | (with_reducible first
      | assumption
      | intro _
      | split
      | refine KeptN.next ?_
      | refine State.done_kept ?_
      | refine State.standard_kept ?_ ?_
      | refine State.replyFree_kept ?_
      | refine State.reply_kept ?_
      | fail_if_no_progress (refine State.Kept.same rfl rfl rfl rfl rfl rfl rfl rfl rfl ?_))

theorem execIdentifyMemoryDevice_kept {q : List Instr} {o : List Output} {s x0} (h : State.Kept q o s) : KeptN q o (execIdentifyMemoryDevice x0 s) := by
  unfold execIdentifyMemoryDevice
  repeat' first
    | (with_reducible first
      | assumption
      | intro _
      | refine KeptN.next ?_
      | refine State.done_kept ?_
      | refine State.standard_kept ?_ ?_
      | refine State.reply_kept ?_
      | fail_if_no_progress (refine State.Kept.same rfl rfl rfl rfl rfl rfl rfl rfl rfl ?_))

theorem execGetHealthInfo_kept {q : List Instr} {o : List Output} {s x0} (h : State.Kept q o s) : KeptN q o (execGetHealthInfo x0 s) := by
  unfold execGetHealthInfo
  repeat' first
    | (with_reducible first
      | assumption
      | intro _
      | refine KeptN.next ?_
      | refine State.done_kept ?_
      | refine State.standard_kept ?_ ?_
      | refine State.replyFree_kept ?_
      | fail_if_no_progress (refine State.Kept.same rfl rfl rfl rfl rfl rfl rfl rfl rfl ?_))

theorem execGetAlertConfiguration_kept {q : List Instr} {o : List Output} {s x0} (h : State.Kept q o s) : KeptN q o (execGetAlertConfiguration x0 s) := by
  unfold execGetAlertConfiguration
  repeat' first
    | (with_reducible first
      | assumption
      | intro _
      | (extract_lets +onlyGivenNames σ; first | (have : Nat := σ; clear this) | (have : Bool := σ; clear this) | (have : Option Nat := σ; clear this); clear_value σ)
      | (extract_lets +onlyGivenNames σ; refine (?_ : State.Kept q o σ.2 → _) ?_; (on_goal 1 => (intro hσ; clear_value σ)); (on_goal 2 => (dsimp only [σ]; try clear σ)))
      | (extract_lets +onlyGivenNames σ; first | (have : Dram := σ; clear this) | (have : Cirrus := σ; clear this) | (have : Protection := σ; clear this) | (have : Sampler := σ; clear this) | (have : Faults := σ; clear this))
      | (extract_lets +onlyGivenNames σ; try clear_value σ)
      | refine KeptN.next ?_
      | refine State.done_kept ?_
      | refine State.standard_kept ?_ ?_
      | refine State.reply_kept ?_
      | refine KeptO.getD ?_ ?_
      | fail_if_no_progress (refine State.Kept.same rfl rfl rfl rfl rfl rfl rfl rfl rfl ?_))

theorem execSetAlertConfiguration_kept {q : List Instr} {o : List Output} {s x0 x1 x2 x3 x4} (h : State.Kept q o s) : KeptN q o (execSetAlertConfiguration x0 x1 x2 x3 x4 s) := by
  unfold execSetAlertConfiguration
  repeat' first
    | (with_reducible first
      | assumption
      | intro _
      | (extract_lets +onlyGivenNames σ; first | (have : Nat := σ; clear this) | (have : Bool := σ; clear this) | (have : Option Nat := σ; clear this); clear_value σ)
      | (extract_lets +onlyGivenNames σ; refine (?_ : State.Kept q o σ.2 → _) ?_; (on_goal 1 => (intro hσ; clear_value σ)); (on_goal 2 => (dsimp only [σ]; try clear σ)))
      | (extract_lets +onlyGivenNames σ; first | (have : Dram := σ; clear this) | (have : Cirrus := σ; clear this) | (have : Protection := σ; clear this) | (have : Sampler := σ; clear this) | (have : Faults := σ; clear this))
      | (extract_lets +onlyGivenNames σ; try clear_value σ)
      | split
      | refine KeptN.next ?_
      | refine State.done_kept ?_
      | refine State.standard_kept ?_ ?_
      | refine State.reply_kept ?_
      | refine State.setCci_kept ?_
      | refine KeptO.getD ?_ ?_
      | fail_if_no_progress (refine State.Kept.same rfl rfl rfl rfl rfl rfl rfl rfl rfl ?_))

theorem execGetPoisonList_kept {q : List Instr} {o : List Output} {s x0 x1 x2} (h : State.Kept q o s) : KeptN q o (execGetPoisonList x0 x1 x2 s) := by
  unfold execGetPoisonList
  repeat' first
    | (with_reducible first
      | assumption
      | intro _
      | split
      | refine KeptN.next ?_
      | refine State.done_kept ?_
      | refine State.standard_kept ?_ ?_
      | refine State.reply_kept ?_
      | fail_if_no_progress (refine State.Kept.same rfl rfl rfl rfl rfl rfl rfl rfl rfl ?_))

theorem State.mailWrite_kept {q : List Instr} {o : List Output} {s x1 x2 x3 x4 x5 x6} (h : State.Kept q o s) : State.Kept q o (State.mailWrite s x1 x2 x3 x4 x5 x6) := by
  unfold State.mailWrite
  repeat' first
    | (with_reducible first
      | assumption
      | (extract_lets +onlyGivenNames σ; refine (?_ : State.Kept q o σ → _) ?_; (on_goal 1 => (intro hσ; clear_value σ)); (on_goal 2 => (dsimp only [σ]; try clear σ)))
      | (extract_lets +onlyGivenNames σ; first | (have : Nat := σ; clear this) | (have : Bool := σ; clear this) | (have : Option Nat := σ; clear this); clear_value σ)
      | (extract_lets +onlyGivenNames σ; refine (?_ : State.Kept q o σ.2 → _) ?_; (on_goal 1 => (intro hσ; clear_value σ)); (on_goal 2 => (dsimp only [σ]; try clear σ)))
      | (extract_lets +onlyGivenNames σ; first | (have : Dram := σ; clear this) | (have : Cirrus := σ; clear this) | (have : Protection := σ; clear this) | (have : Sampler := σ; clear this) | (have : Faults := σ; clear this))
      | (extract_lets +onlyGivenNames σ; try clear_value σ)
      | split
      | refine State.reply_kept ?_
      | refine State.inc_kept ?_
      | refine State.takeIn_kept ?_
      | fail_if_no_progress (refine State.Kept.same rfl rfl rfl rfl rfl rfl rfl rfl rfl ?_))

theorem State.lineCommand_kept {q : List Instr} {o : List Output} {s x1 x2 x3} (hx3 : ∀ a0 a1, State.Kept q o a1 → ((x3 a0 a1)).Kept q o) (h : State.Kept q o s) : State.Kept q o (State.lineCommand s x1 x2 x3) := by
  unfold State.lineCommand
  repeat' first
    | (with_reducible first
      | assumption
      | split
      | refine hx3 _ _ ?_
      | refine State.reply_kept ?_
      | fail_if_no_progress (refine State.Kept.same rfl rfl rfl rfl rfl rfl rfl rfl rfl ?_))

theorem execInjectPoison_kept {q : List Instr} {o : List Output} {s x0 x1 x2} (h : State.Kept q o s) : KeptN q o (execInjectPoison x0 x1 x2 s) := by
  unfold execInjectPoison
  repeat' first
    | (with_reducible first
      | assumption
      | intro _
      | split
      | refine KeptN.next ?_
      | refine State.done_kept ?_
      | refine State.standard_kept ?_ ?_
      | refine State.lineCommand_kept ?_ ?_
      | refine State.poisonData_kept ?_
      | refine State.mailWrite_kept ?_
      | refine State.Kept.snd ‹_› ?_
      | fail_if_no_progress (refine State.Kept.same rfl rfl rfl rfl rfl rfl rfl rfl rfl ?_))

theorem execClearPoison_kept {q : List Instr} {o : List Output} {s x0 x1 x2 x3} (h : State.Kept q o s) : KeptN q o (execClearPoison x0 x1 x2 x3 s) := by
  unfold execClearPoison
  repeat' first
    | (with_reducible first
      | assumption
      | intro _
      | split
      | refine KeptN.next ?_
      | refine State.done_kept ?_
      | refine State.standard_kept ?_ ?_
      | refine State.lineCommand_kept ?_ ?_
      | refine State.reply_kept ?_
      | refine State.mailWrite_kept ?_
      | fail_if_no_progress (refine State.Kept.same rfl rfl rfl rfl rfl rfl rfl rfl rfl ?_))

theorem execGetScanMediaCapabilities_kept {q : List Instr} {o : List Output} {s x0 x1 x2} (h : State.Kept q o s) : KeptN q o (execGetScanMediaCapabilities x0 x1 x2 s) := by
  unfold execGetScanMediaCapabilities
  repeat' first
    | (with_reducible first
      | assumption
      | intro _
      | refine KeptN.next ?_
      | refine State.done_kept ?_
      | refine State.standard_kept ?_ ?_
      | refine State.reply_kept ?_
      | fail_if_no_progress (refine State.Kept.same rfl rfl rfl rfl rfl rfl rfl rfl rfl ?_))

theorem execScanMedia_kept {q : List Instr} {o : List Output} {s x0 x1 x2} (h : State.Kept q o s) : KeptN q o (execScanMedia x0 x1 x2 s) := by
  unfold execScanMedia
  repeat' first
    | (with_reducible first
      | assumption
      | intro _
      | split
      | refine KeptN.next ?_
      | refine State.done_kept ?_
      | refine State.standard_kept ?_ ?_
      | refine State.inBackground_kept ?_ ?_
      | refine State.reply_kept ?_
      | refine State.startScrub_kept ?_
      | refine State.startBackground_kept ?_
      | fail_if_no_progress (refine State.Kept.same rfl rfl rfl rfl rfl rfl rfl rfl rfl ?_))

theorem execGetScanMediaResults_kept {q : List Instr} {o : List Output} {s x0} (h : State.Kept q o s) : KeptN q o (execGetScanMediaResults x0 s) := by
  unfold execGetScanMediaResults
  repeat' first
    | (with_reducible first
      | assumption
      | intro _
      | (extract_lets +onlyGivenNames σ; first | (have : Nat := σ; clear this) | (have : Bool := σ; clear this) | (have : Option Nat := σ; clear this); clear_value σ)
      | (extract_lets +onlyGivenNames σ; refine (?_ : State.Kept q o σ.2 → _) ?_; (on_goal 1 => (intro hσ; clear_value σ)); (on_goal 2 => (dsimp only [σ]; try clear σ)))
      | (extract_lets +onlyGivenNames σ; first | (have : Dram := σ; clear this) | (have : Cirrus := σ; clear this) | (have : Protection := σ; clear this) | (have : Sampler := σ; clear this) | (have : Faults := σ; clear this))
      | (extract_lets +onlyGivenNames σ; try clear_value σ)
      | refine KeptN.next ?_
      | refine State.done_kept ?_
      | refine State.standard_kept ?_ ?_
      | refine State.reply_kept ?_
      | fail_if_no_progress (refine State.Kept.same rfl rfl rfl rfl rfl rfl rfl rfl rfl ?_))

theorem State.restartInit_kept {q : List Instr} {o : List Output} {s} (h : State.Kept q o s) : State.Kept q o (State.restartInit s) := by
  unfold State.restartInit
  repeat' first
    | (with_reducible first
      | assumption
      | (extract_lets +onlyGivenNames σ; refine (?_ : State.Kept q o σ → _) ?_; (on_goal 1 => (intro hσ; clear_value σ)); (on_goal 2 => (dsimp only [σ]; try clear σ)))
      | (extract_lets +onlyGivenNames σ; first | (have : Nat := σ; clear this) | (have : Bool := σ; clear this) | (have : Option Nat := σ; clear this); clear_value σ)
      | (extract_lets +onlyGivenNames σ; refine (?_ : State.Kept q o σ.2 → _) ?_; (on_goal 1 => (intro hσ; clear_value σ)); (on_goal 2 => (dsimp only [σ]; try clear σ)))
      | (extract_lets +onlyGivenNames σ; first | (have : Dram := σ; clear this) | (have : Cirrus := σ; clear this) | (have : Protection := σ; clear this) | (have : Sampler := σ; clear this) | (have : Faults := σ; clear this))
      | (extract_lets +onlyGivenNames σ; try clear_value σ)
      | refine State.put_kept ?_
      | refine State.wr_kept ?_
      | fail_if_no_progress (refine State.Kept.same rfl rfl rfl rfl rfl rfl rfl rfl rfl ?_))

theorem State.startErase_kept {q : List Instr} {o : List Output} {s x1 x2} (h : State.Kept q o s) : State.Kept q o (State.startErase s x1 x2) := by
  unfold State.startErase
  repeat' first
    | (with_reducible first
      | assumption
      | intro _
      | split
      | refine State.inBackground_kept ?_ ?_
      | refine State.reply_kept ?_
      | refine State.startBackground_kept ?_
      | refine State.restartInit_kept ?_
      | refine State.drawVeil_kept ?_
      | fail_if_no_progress (refine State.Kept.same rfl rfl rfl rfl rfl rfl rfl rfl rfl ?_))

theorem execSanitize_kept {q : List Instr} {o : List Output} {s x0} (h : State.Kept q o s) : KeptN q o (execSanitize x0 s) := by
  unfold execSanitize
  repeat' first
    | (with_reducible first
      | assumption
      | intro _
      | refine KeptN.next ?_
      | refine State.done_kept ?_
      | refine State.standard_kept ?_ ?_
      | refine State.startErase_kept ?_
      | fail_if_no_progress (refine State.Kept.same rfl rfl rfl rfl rfl rfl rfl rfl rfl ?_))

theorem execSecureErase_kept {q : List Instr} {o : List Output} {s x0} (h : State.Kept q o s) : KeptN q o (execSecureErase x0 s) := by
  unfold execSecureErase
  repeat' first
    | (with_reducible first
      | assumption
      | intro _
      | refine KeptN.next ?_
      | refine State.done_kept ?_
      | refine State.standard_kept ?_ ?_
      | refine State.startErase_kept ?_
      | fail_if_no_progress (refine State.Kept.same rfl rfl rfl rfl rfl rfl rfl rfl rfl ?_))

theorem State.zeroMedia_kept {q : List Instr} {o : List Output} {s} (h : State.Kept q o s) : State.Kept q o (State.zeroMedia s) := by
  unfold State.zeroMedia
  extract_lets stays p r s1
  refine State.put_kept (State.wr_kept (State.poisonStatus_kept ?_))
  exact State.Kept.same (s := { s with dram := { s.dram with mem := s.dram.mem.filter fun x => stays (x.1 / 64) } })
    rfl rfl rfl rfl rfl rfl rfl rfl rfl (h.dram (Memory.wf_filter _ h.sound.memory))

theorem State.discardExtent_kept {q : List Instr} {o : List Output} {s x1} (h : State.Kept q o s) : State.Kept q o (State.discardExtent s x1) := by
  unfold State.discardExtent
  repeat' first
    | (with_reducible first
      | assumption
      | intro _
      | dsimp only
      | refine State.askUnback_kept ?_
      | refine State.bumpMove_kept ?_
      | refine State.Kept.foldl (fun _ _ _ => ?_) ?_
      | refine State.Kept.foldlP (fun _ _ _ => ?_) ?_
      | dsimp only
      | fail_if_no_progress (refine State.Kept.same rfl rfl rfl rfl rfl rfl rfl rfl rfl ?_))

theorem execGetDynamicCapacityConfiguration_kept {q : List Instr} {o : List Output} {s x0} (h : State.Kept q o s) : KeptN q o (execGetDynamicCapacityConfiguration x0 s) := by
  unfold execGetDynamicCapacityConfiguration
  repeat' first
    | (with_reducible first
      | assumption
      | intro _
      | refine KeptN.next ?_
      | refine State.done_kept ?_
      | refine State.standard_kept ?_ ?_
      | refine State.reply_kept ?_
      | fail_if_no_progress (refine State.Kept.same rfl rfl rfl rfl rfl rfl rfl rfl rfl ?_))

theorem execGetDcExtentList_kept {q : List Instr} {o : List Output} {s x0} (h : State.Kept q o s) : KeptN q o (execGetDcExtentList x0 s) := by
  unfold execGetDcExtentList
  repeat' first
    | (with_reducible first
      | assumption
      | intro _
      | refine KeptN.next ?_
      | refine State.done_kept ?_
      | refine State.standard_kept ?_ ?_
      | refine State.reply_kept ?_
      | fail_if_no_progress (refine State.Kept.same rfl rfl rfl rfl rfl rfl rfl rfl rfl ?_))

theorem State.takeExtents_kept {q : List Instr} {o : List Output} {s x1 x2} (h : State.Kept q o s) : State.Kept q o (State.takeExtents s x1 x2) := by
  unfold State.takeExtents
  repeat' first
    | (with_reducible first
      | assumption
      | (extract_lets +onlyGivenNames σ; first | (have : Nat := σ; clear this) | (have : Bool := σ; clear this) | (have : Option Nat := σ; clear this); clear_value σ)
      | (extract_lets +onlyGivenNames σ; refine (?_ : State.Kept q o σ.2 → _) ?_; (on_goal 1 => (intro hσ; clear_value σ)); (on_goal 2 => (dsimp only [σ]; try clear σ)))
      | (extract_lets +onlyGivenNames σ; first | (have : Dram := σ; clear this) | (have : Cirrus := σ; clear this) | (have : Protection := σ; clear this) | (have : Sampler := σ; clear this) | (have : Faults := σ; clear this))
      | (extract_lets +onlyGivenNames σ; try clear_value σ)
      | fail_if_no_progress (refine State.Kept.same rfl rfl rfl rfl rfl rfl rfl rfl rfl ?_))

theorem State.giveExtents_kept {q : List Instr} {o : List Output} {s x1 x2} (h : State.Kept q o s) : State.Kept q o (State.giveExtents s x1 x2) := by
  unfold State.giveExtents
  repeat' first
    | (with_reducible first
      | assumption
      | intro _
      | (extract_lets +onlyGivenNames σ; first | (have : Nat := σ; clear this) | (have : Bool := σ; clear this) | (have : Option Nat := σ; clear this); clear_value σ)
      | (extract_lets +onlyGivenNames σ; refine (?_ : State.Kept q o σ.2 → _) ?_; (on_goal 1 => (intro hσ; clear_value σ)); (on_goal 2 => (dsimp only [σ]; try clear σ)))
      | (extract_lets +onlyGivenNames σ; first | (have : Dram := σ; clear this) | (have : Cirrus := σ; clear this) | (have : Protection := σ; clear this) | (have : Sampler := σ; clear this) | (have : Faults := σ; clear this))
      | (extract_lets +onlyGivenNames σ; try clear_value σ)
      | dsimp only
      | refine State.discardExtent_kept ?_
      | refine State.Kept.foldl (fun _ _ _ => ?_) ?_
      | refine State.Kept.foldlP (fun _ _ _ => ?_) ?_
      | dsimp only
      | fail_if_no_progress (refine State.Kept.same rfl rfl rfl rfl rfl rfl rfl rfl rfl ?_))

theorem execAddDcResponse_kept {q : List Instr} {o : List Output} {s x0 x1} (h : State.Kept q o s) : KeptN q o (execAddDcResponse x0 x1 s) := by
  unfold execAddDcResponse
  repeat' first
    | (with_reducible first
      | assumption
      | intro _
      | split
      | refine KeptN.next ?_
      | refine State.done_kept ?_
      | refine State.standard_kept ?_ ?_
      | refine State.reply_kept ?_
      | refine State.takeExtents_kept ?_
      | fail_if_no_progress (refine State.Kept.same rfl rfl rfl rfl rfl rfl rfl rfl rfl ?_))

theorem execReleaseDynamicCapacity_kept {q : List Instr} {o : List Output} {s x0 x1} (h : State.Kept q o s) : KeptN q o (execReleaseDynamicCapacity x0 x1 s) := by
  unfold execReleaseDynamicCapacity
  repeat' first
    | (with_reducible first
      | assumption
      | intro _
      | split
      | refine KeptN.next ?_
      | refine State.done_kept ?_
      | refine State.standard_kept ?_ ?_
      | refine State.reply_kept ?_
      | refine State.giveExtents_kept ?_
      | fail_if_no_progress (refine State.Kept.same rfl rfl rfl rfl rfl rfl rfl rfl rfl ?_))

theorem execUnsupportedCommand_kept {q : List Instr} {o : List Output} {s x0} (h : State.Kept q o s) : KeptN q o (execUnsupportedCommand x0 s) := by
  unfold execUnsupportedCommand
  repeat' first
    | (with_reducible first
      | assumption
      | intro _
      | refine KeptN.next ?_
      | refine State.done_kept ?_
      | refine State.received_kept ?_ ?_
      | refine State.reply_kept ?_
      | fail_if_no_progress (refine State.Kept.same rfl rfl rfl rfl rfl rfl rfl rfl rfl ?_))

theorem State.stopWaiting_kept {q : List Instr} {o : List Output} {s} (h : State.Kept q o s) : State.Kept q o (State.stopWaiting s) := by
  unfold State.stopWaiting
  repeat' first
    | (with_reducible first
      | assumption
      | (extract_lets +onlyGivenNames σ; first | (have : Nat := σ; clear this) | (have : Bool := σ; clear this) | (have : Option Nat := σ; clear this); clear_value σ)
      | (extract_lets +onlyGivenNames σ; refine (?_ : State.Kept q o σ.2 → _) ?_; (on_goal 1 => (intro hσ; clear_value σ)); (on_goal 2 => (dsimp only [σ]; try clear σ)))
      | (extract_lets +onlyGivenNames σ; first | (have : Dram := σ; clear this) | (have : Cirrus := σ; clear this) | (have : Protection := σ; clear this) | (have : Sampler := σ; clear this) | (have : Faults := σ; clear this))
      | (extract_lets +onlyGivenNames σ; try clear_value σ)
      | fail_if_no_progress (refine State.Kept.same rfl rfl rfl rfl rfl rfl rfl rfl rfl ?_))

theorem execCommandTimeout_kept {q : List Instr} {o : List Output} {s x0} (h : State.Kept q o s) : KeptN q o (execCommandTimeout x0 s) := by
  unfold execCommandTimeout
  repeat' first
    | (with_reducible first
      | assumption
      | (extract_lets +onlyGivenNames σ; first | (have : Nat := σ; clear this) | (have : Bool := σ; clear this) | (have : Option Nat := σ; clear this); clear_value σ)
      | (extract_lets +onlyGivenNames σ; refine (?_ : State.Kept q o σ.2 → _) ?_; (on_goal 1 => (intro hσ; clear_value σ)); (on_goal 2 => (dsimp only [σ]; try clear σ)))
      | (extract_lets +onlyGivenNames σ; first | (have : Dram := σ; clear this) | (have : Cirrus := σ; clear this) | (have : Protection := σ; clear this) | (have : Sampler := σ; clear this) | (have : Faults := σ; clear this))
      | (extract_lets +onlyGivenNames σ; try clear_value σ)
      | split
      | refine KeptN.next ?_
      | refine State.done_kept ?_
      | refine State.reply_kept ?_
      | refine State.stopWaiting_kept ?_
      | refine State.draw_kept ?_
      | refine State.Kept.snd ‹_› ?_
      | fail_if_no_progress (refine State.Kept.same rfl rfl rfl rfl rfl rfl rfl rfl rfl ?_))

theorem State.storePackage_kept {q : List Instr} {o : List Output} {s x1 x2} (h : State.Kept q o s) : State.Kept q o (State.storePackage s x1 x2) := by
  unfold State.storePackage
  repeat' first
    | (with_reducible first
      | assumption
      | refine State.noteDrift_kept ?_
      | refine State.noteImage_kept ?_
      | fail_if_no_progress (refine State.Kept.same rfl rfl rfl rfl rfl rfl rfl rfl rfl ?_))

theorem execBackgroundOperationEnd_kept {q : List Instr} {o : List Output} {s x0 x1} (h : State.Kept q o s) : KeptN q o (execBackgroundOperationEnd x0 x1 s) := by
  unfold execBackgroundOperationEnd
  repeat' first
    | (with_reducible first
      | assumption
      | (extract_lets +onlyGivenNames σ; refine (?_ : State.Kept q o σ → _) ?_; (on_goal 1 => (intro hσ; clear_value σ)); (on_goal 2 => (dsimp only [σ]; try clear σ)))
      | (extract_lets +onlyGivenNames σ; first | (have : Nat := σ; clear this) | (have : Bool := σ; clear this) | (have : Option Nat := σ; clear this); clear_value σ)
      | (extract_lets +onlyGivenNames σ; refine (?_ : State.Kept q o σ.2 → _) ?_; (on_goal 1 => (intro hσ; clear_value σ)); (on_goal 2 => (dsimp only [σ]; try clear σ)))
      | (extract_lets +onlyGivenNames σ; first | (have : Dram := σ; clear this) | (have : Cirrus := σ; clear this) | (have : Protection := σ; clear this) | (have : Sampler := σ; clear this) | (have : Faults := σ; clear this))
      | (extract_lets +onlyGivenNames σ; try clear_value σ)
      | split
      | refine KeptN.next ?_
      | refine State.done_kept ?_
      | refine State.endBackground_kept ?_
      | refine State.zeroMedia_kept ?_
      | refine State.storePackage_kept ?_
      | refine State.spoilSlot_kept ?_
      | fail_if_no_progress (refine State.Kept.same rfl rfl rfl rfl rfl rfl rfl rfl rfl ?_))

end Sys2Proof.Machine
end

