-- ==== Sys2Proof/Laws/RegWrite.lean ====
section
/-! SUPPORT. What each operation of Machine/RegWrite keeps. -/

set_option linter.all false

namespace Sys2Proof.Machine

theorem State.badWrite_kept {q : List Instr} {o : List Output} {s x1 x2 x3} (h : State.Kept q o s) : State.Kept q o (State.badWrite s x1 x2 x3) := by
  unfold State.badWrite
  repeat' first
    | (with_reducible first
      | assumption
      | (extract_lets +onlyGivenNames σ; refine (?_ : State.Kept q o σ → _) ?_; (on_goal 1 => (intro hσ; clear_value σ)); (on_goal 2 => (dsimp only [σ]; try clear σ)))
      | (extract_lets +onlyGivenNames σ; first | (have : Nat := σ; clear this) | (have : Bool := σ; clear this) | (have : Option Nat := σ; clear this); clear_value σ)
      | (extract_lets +onlyGivenNames σ; refine (?_ : State.Kept q o σ.2 → _) ?_; (on_goal 1 => (intro hσ; clear_value σ)); (on_goal 2 => (dsimp only [σ]; try clear σ)))
      | (extract_lets +onlyGivenNames σ; first | (have : Dram := σ; clear this) | (have : Cirrus := σ; clear this) | (have : Protection := σ; clear this) | (have : Sampler := σ; clear this) | (have : Faults := σ; clear this))
      | (extract_lets +onlyGivenNames σ; try clear_value σ)
      | split
      | refine State.inc_kept ?_
      | refine State.put_kept ?_
      | refine State.wr_kept ?_
      | fail_if_no_progress (refine State.Kept.same rfl rfl rfl rfl rfl rfl rfl rfl rfl ?_))

theorem State.markLogged_kept {q : List Instr} {o : List Output} {s} (h : State.Kept q o s) : State.Kept q o (State.markLogged s) := by
  unfold State.markLogged
  repeat' first
    | (with_reducible first
      | assumption
      | intro _
      | (extract_lets +onlyGivenNames σ; first | (have : Nat := σ; clear this) | (have : Bool := σ; clear this) | (have : Option Nat := σ; clear this); clear_value σ)
      | (extract_lets +onlyGivenNames σ; refine (?_ : State.Kept q o σ.2 → _) ?_; (on_goal 1 => (intro hσ; clear_value σ)); (on_goal 2 => (dsimp only [σ]; try clear σ)))
      | (extract_lets +onlyGivenNames σ; first | (have : Dram := σ; clear this) | (have : Cirrus := σ; clear this) | (have : Protection := σ; clear this) | (have : Sampler := σ; clear this) | (have : Faults := σ; clear this))
      | (extract_lets +onlyGivenNames σ; try clear_value σ)
      | dsimp only
      | refine State.markDevice_kept ?_
      | refine State.Kept.foldl (fun _ _ _ => ?_) ?_
      | refine State.Kept.foldlP (fun _ _ _ => ?_) ?_
      | dsimp only
      | fail_if_no_progress (refine State.Kept.same rfl rfl rfl rfl rfl rfl rfl rfl rfl ?_))

theorem State.setMarks_kept {q : List Instr} {o : List Output} {s x1 x2} (h : State.Kept q o s) : State.Kept q o (State.setMarks s x1 x2) := by
  unfold State.setMarks
  repeat' first
    | (with_reducible first
      | assumption
      | split
      | refine State.wrAt_kept ?_
      | fail_if_no_progress (refine State.Kept.same rfl rfl rfl rfl rfl rfl rfl rfl rfl ?_))

theorem State.keepWake_kept {q : List Instr} {o : List Output} {s} (h : State.Kept q o s) : State.Kept q o (State.keepWake s) := by
  unfold State.keepWake
  repeat' first
    | (with_reducible first
      | assumption
      | split
      | refine State.put_kept ?_
      | fail_if_no_progress (refine State.Kept.same rfl rfl rfl rfl rfl rfl rfl rfl rfl ?_))

theorem State.keepEvent_kept {q : List Instr} {o : List Output} {s x1} (h : State.Kept q o s) : State.Kept q o (State.keepEvent s x1) := by
  unfold State.keepEvent
  repeat' first
    | (with_reducible first
      | assumption
      | split
      | refine State.wrAt_kept ?_
      | fail_if_no_progress (refine State.Kept.same rfl rfl rfl rfl rfl rfl rfl rfl rfl ?_))

theorem State.when_kept {q : List Instr} {o : List Output} {s x1 x2} (hx2 : ∀ a0, State.Kept q o a0 → ((x2 a0)).Kept q o) (h : State.Kept q o s) : State.Kept q o (State.when s x1 x2) := by
  unfold State.when
  repeat' first
    | (with_reducible first
      | assumption
      | split
      | refine hx2 _  ?_
      | fail_if_no_progress (refine State.Kept.same rfl rfl rfl rfl rfl rfl rfl rfl rfl ?_))

theorem systemWrites_kept {q : List Instr} {o : List Output} {s : State} {x0 x1 x2} (hx2 : ∀ a0, State.Kept q o a0 → ((x2 a0)).Kept q o) (h : State.Kept q o s) : ∀ e ∈ (systemWrites x0 x1 x2), (e.2 s).Kept q o := by
  intro e he
  simp only [systemWrites, List.mem_cons, List.not_mem_nil, or_false] at he
  repeat' (rcases he with rfl | he)
  all_goals dsimp only
  repeat' first
    | (with_reducible first
      | assumption
      | intro _
      | (extract_lets +onlyGivenNames σ; refine (?_ : State.Kept q o σ → _) ?_; (on_goal 1 => (intro hσ; clear_value σ)); (on_goal 2 => (dsimp only [σ]; try clear σ)))
      | (extract_lets +onlyGivenNames σ; first | (have : Nat := σ; clear this) | (have : Bool := σ; clear this) | (have : Option Nat := σ; clear this); clear_value σ)
      | (extract_lets +onlyGivenNames σ; refine (?_ : State.Kept q o σ.2 → _) ?_; (on_goal 1 => (intro hσ; clear_value σ)); (on_goal 2 => (dsimp only [σ]; try clear σ)))
      | (extract_lets +onlyGivenNames σ; first | (have : Dram := σ; clear this) | (have : Cirrus := σ; clear this) | (have : Protection := σ; clear this) | (have : Sampler := σ; clear this) | (have : Faults := σ; clear this))
      | (extract_lets +onlyGivenNames σ; try clear_value σ)
      | split
      | intro _
      | refine hx2 _  ?_
      | refine State.askDevEnable_kept ?_
      | refine State.askDevDisable_kept ?_
      | refine State.coldReset_kept ?_
      | refine State.when_kept ?_ ?_
      | refine State.askWarm_kept ?_
      | refine State.askBlockReset_kept ?_
      | refine State.askNight_kept ?_
      | refine State.askClear_kept ?_
      | refine State.keepWake_kept ?_
      | refine State.askNamedDomain_kept ?_
      | fail_if_no_progress (refine State.Kept.same rfl rfl rfl rfl rfl rfl rfl rfl rfl ?_))

theorem memoryWrites_kept {q : List Instr} {o : List Output} {s : State} {x0 x1 x2} (hx2 : ∀ a0, State.Kept q o a0 → ((x2 a0)).Kept q o) (h : State.Kept q o s) : ∀ e ∈ (memoryWrites x0 x1 x2), (e.2 s).Kept q o := by
  intro e he
  simp only [memoryWrites, List.mem_cons, List.not_mem_nil, or_false] at he
  repeat' (rcases he with rfl | he)
  all_goals dsimp only
  repeat' first
    | (with_reducible first
      | assumption
      | intro _
      | split
      | intro _
      | refine hx2 _  ?_
      | refine State.askCommit_kept ?_
      | refine State.askRelease_kept ?_
      | refine State.setGrants_kept ?_
      | refine State.when_kept ?_ ?_
      | refine State.put_kept ?_
      | refine State.startSweep_kept ?_
      | refine State.askApply_kept ?_
      | refine State.askArm_kept ?_
      | fail_if_no_progress (refine State.Kept.same rfl rfl rfl rfl rfl rfl rfl rfl rfl ?_))

theorem mediaWrites_kept {q : List Instr} {o : List Output} {s : State} {x0 x1 x2} (hx2 : ∀ a0, State.Kept q o a0 → ((x2 a0)).Kept q o) (h : State.Kept q o s) : ∀ e ∈ (mediaWrites x0 x1 x2), (e.2 s).Kept q o := by
  intro e he
  simp only [mediaWrites, List.mem_cons, List.not_mem_nil, or_false] at he
  repeat' (rcases he with rfl | he)
  all_goals dsimp only
  repeat' first
    | (with_reducible first
      | assumption
      | intro _
      | split
      | intro _
      | refine hx2 _  ?_
      | refine State.askChannels_kept ?_
      | refine State.uncommitChannels_kept ?_
      | refine State.when_kept ?_ ?_
      | refine State.askChannelRelease_kept ?_
      | refine State.askSpareRank_kept ?_
      | refine State.markLogged_kept ?_
      | refine State.setMarks_kept ?_
      | refine State.stopScrub_kept ?_
      | refine State.askScrub_kept ?_
      | refine State.startRepair_kept ?_
      | refine State.startRotation_kept ?_
      | refine State.askSeal_kept ?_
      | refine State.Kept.snd ‹_› ?_
      | fail_if_no_progress (refine State.Kept.same rfl rfl rfl rfl rfl rfl rfl rfl rfl ?_))

theorem hostWrites_kept {q : List Instr} {o : List Output} {s : State} {x0 x1 x2 x3 x4} (hx4 : ∀ a0, State.Kept q o a0 → ((x4 a0)).Kept q o) (h : State.Kept q o s) : ∀ e ∈ (hostWrites x0 x1 x2 x3 x4), (e.2 s).Kept q o := by
  intro e he
  simp only [hostWrites, List.mem_cons, List.not_mem_nil, or_false] at he
  repeat' (rcases he with rfl | he)
  all_goals dsimp only
  repeat' first
    | (with_reducible first
      | assumption
      | intro _
      | (extract_lets +onlyGivenNames σ; refine (?_ : State.Kept q o σ → _) ?_; (on_goal 1 => (intro hσ; clear_value σ)); (on_goal 2 => (dsimp only [σ]; try clear σ)))
      | (extract_lets +onlyGivenNames σ; first | (have : Nat := σ; clear this) | (have : Bool := σ; clear this) | (have : Option Nat := σ; clear this); clear_value σ)
      | (extract_lets +onlyGivenNames σ; refine (?_ : State.Kept q o σ.2 → _) ?_; (on_goal 1 => (intro hσ; clear_value σ)); (on_goal 2 => (dsimp only [σ]; try clear σ)))
      | (extract_lets +onlyGivenNames σ; first | (have : Dram := σ; clear this) | (have : Cirrus := σ; clear this) | (have : Protection := σ; clear this) | (have : Sampler := σ; clear this) | (have : Faults := σ; clear this))
      | (extract_lets +onlyGivenNames σ; try clear_value σ)
      | split
      | intro _
      | refine hx4 _  ?_
      | refine State.unfenceLinks_kept ?_
      | refine State.fenceLinks_kept ?_
      | refine State.when_kept ?_ ?_
      | refine State.clearPeaks_kept ?_
      | refine State.askQueue_kept ?_
      | refine State.disableQueue_kept ?_
      | refine State.askResize_kept ?_
      | refine State.askSlice_kept ?_
      | refine State.askRemove_kept ?_
      | refine State.askSliceReset_kept ?_
      | refine State.assignPage_kept ?_
      | refine State.freePage_kept ?_
      | refine State.askProfile_kept ?_
      | fail_if_no_progress (refine State.Kept.same rfl rfl rfl rfl rfl rfl rfl rfl rfl ?_))

theorem pairWrites_kept {q : List Instr} {o : List Output} {s : State} {x0 x1} (hx1 : ∀ a0, State.Kept q o a0 → ((x1 a0)).Kept q o) (h : State.Kept q o s) : ∀ e ∈ (pairWrites x0 x1), (e.2 s).Kept q o := by
  intro e he
  simp only [pairWrites, List.mem_cons, List.not_mem_nil, or_false] at he
  repeat' (rcases he with rfl | he)
  all_goals dsimp only
  repeat' first
    | (with_reducible first
      | assumption
      | intro _
      | (extract_lets +onlyGivenNames σ; refine (?_ : State.Kept q o σ → _) ?_; (on_goal 1 => (intro hσ; clear_value σ)); (on_goal 2 => (dsimp only [σ]; try clear σ)))
      | (extract_lets +onlyGivenNames σ; first | (have : Nat := σ; clear this) | (have : Bool := σ; clear this) | (have : Option Nat := σ; clear this); clear_value σ)
      | (extract_lets +onlyGivenNames σ; refine (?_ : State.Kept q o σ.2 → _) ?_; (on_goal 1 => (intro hσ; clear_value σ)); (on_goal 2 => (dsimp only [σ]; try clear σ)))
      | (extract_lets +onlyGivenNames σ; first | (have : Dram := σ; clear this) | (have : Cirrus := σ; clear this) | (have : Protection := σ; clear this) | (have : Sampler := σ; clear this) | (have : Faults := σ; clear this))
      | (extract_lets +onlyGivenNames σ; try clear_value σ)
      | split
      | intro _
      | refine hx1 _  ?_
      | refine State.askLinkOn_kept ?_
      | refine State.askLinkOff_kept ?_
      | refine State.askReadd_kept ?_
      | refine State.when_kept ?_ ?_
      | refine State.askRetrain_kept ?_
      | refine State.askLinkDown_kept ?_
      | refine State.askPair_kept ?_
      | refine State.leavePair_kept ?_
      | refine State.takeOver_kept ?_
      | refine State.giveBack_kept ?_
      | refine State.askFence_kept ?_
      | refine State.askDiscard_kept ?_
      | fail_if_no_progress (refine State.Kept.same rfl rfl rfl rfl rfl rfl rfl rfl rfl ?_))

theorem stewardWrites_kept {q : List Instr} {o : List Output} {s : State} {x0 x1 x2} (hx2 : ∀ a0, State.Kept q o a0 → ((x2 a0)).Kept q o) (h : State.Kept q o s) : ∀ e ∈ (stewardWrites x0 x1 x2), (e.2 s).Kept q o := by
  intro e he
  simp only [stewardWrites, List.mem_cons, List.not_mem_nil, or_false] at he
  repeat' (rcases he with rfl | he)
  all_goals dsimp only
  repeat' first
    | (with_reducible first
      | assumption
      | intro _
      | split
      | intro _
      | refine hx2 _  ?_
      | refine State.setHold_kept ?_
      | refine State.when_kept ?_ ?_
      | refine State.pet_kept ?_
      | refine State.startInvalidation_kept ?_
      | refine State.clearSticky_kept ?_
      | refine State.setReactions_kept ?_
      | refine State.setInterrupt_kept ?_
      | refine State.startSweepRead_kept ?_
      | refine State.clearCounters_kept ?_
      | refine State.keepEvent_kept ?_
      | refine State.loadCounter_kept ?_
      | refine State.freeSamples_kept ?_
      | fail_if_no_progress (refine State.Kept.same rfl rfl rfl rfl rfl rfl rfl rfl rfl ?_))

theorem State.writeRegister_kept {q : List Instr} {o : List Output} {s p r i lo n v bme msix} (h : State.Kept q o s) : State.Kept q o (State.writeRegister s p r i lo n v bme msix) := by
  unfold State.writeRegister
  extract_lets r'
  split
  · exact h
  · rename_i w store all _
    have hs : ∀ t : State, State.Kept q o t → State.Kept q o (store t) := fun t ht => State.storeBits_kept ht
    clear_value store
    split
    · rename_i e he
      refine State.Kept.act he fun e he => ?_
      simp only [all, List.mem_append] at he
      rcases he with ((((he | he) | he) | he) | he) | he
      · exact systemWrites_kept hs h e he
      · exact memoryWrites_kept hs h e he
      · exact mediaWrites_kept hs h e he
      · exact hostWrites_kept hs h e he
      · exact pairWrites_kept hs h e he
      · exact stewardWrites_kept hs h e he
    · exact hs s h

theorem State.writeOffset_kept {q : List Instr} {o : List Output} {s x1 x2 x3 x4 x5 x6} (h : State.Kept q o s) : State.Kept q o (State.writeOffset s x1 x2 x3 x4 x5 x6) := by
  unfold State.writeOffset
  repeat' first
    | (with_reducible first
      | assumption
      | (extract_lets +onlyGivenNames σ; first | (have : Nat := σ; clear this) | (have : Bool := σ; clear this) | (have : Option Nat := σ; clear this); clear_value σ)
      | (extract_lets +onlyGivenNames σ; refine (?_ : State.Kept q o σ.2 → _) ?_; (on_goal 1 => (intro hσ; clear_value σ)); (on_goal 2 => (dsimp only [σ]; try clear σ)))
      | (extract_lets +onlyGivenNames σ; first | (have : Dram := σ; clear this) | (have : Cirrus := σ; clear this) | (have : Protection := σ; clear this) | (have : Sampler := σ; clear this) | (have : Faults := σ; clear this))
      | (extract_lets +onlyGivenNames σ; try clear_value σ)
      | split
      | refine State.badWrite_kept ?_
      | refine State.writeRegister_kept ?_
      | fail_if_no_progress (refine State.Kept.same rfl rfl rfl rfl rfl rfl rfl rfl rfl ?_))

theorem execRegisterWrite_kept {q : List Instr} {o : List Output} {s x0 x1 x2 x3 x4 x5 x6} (h : State.Kept q o s) : KeptN q o (execRegisterWrite x0 x1 x2 x3 x4 x5 x6 s) := by
  unfold execRegisterWrite
  repeat' first
    | (with_reducible first
      | assumption
      | split
      | refine KeptN.next ?_
      | refine State.done_kept ?_
      | refine State.writeOffset_kept ?_
      | fail_if_no_progress (refine State.Kept.same rfl rfl rfl rfl rfl rfl rfl rfl rfl ?_))

theorem execJtagInstruction_kept {q : List Instr} {o : List Output} {s x0} (h : State.Kept q o s) : KeptN q o (execJtagInstruction x0 s) := by
  unfold execJtagInstruction
  repeat' first
    | (with_reducible first
      | assumption
      | (extract_lets +onlyGivenNames σ; refine (?_ : State.Kept q o σ → _) ?_; (on_goal 1 => (intro hσ; clear_value σ)); (on_goal 2 => (dsimp only [σ]; try clear σ)))
      | (extract_lets +onlyGivenNames σ; first | (have : Nat := σ; clear this) | (have : Bool := σ; clear this) | (have : Option Nat := σ; clear this); clear_value σ)
      | (extract_lets +onlyGivenNames σ; refine (?_ : State.Kept q o σ.2 → _) ?_; (on_goal 1 => (intro hσ; clear_value σ)); (on_goal 2 => (dsimp only [σ]; try clear σ)))
      | (extract_lets +onlyGivenNames σ; first | (have : Dram := σ; clear this) | (have : Cirrus := σ; clear this) | (have : Protection := σ; clear this) | (have : Sampler := σ; clear this) | (have : Faults := σ; clear this))
      | (extract_lets +onlyGivenNames σ; try clear_value σ)
      | split
      | refine KeptN.next ?_
      | refine State.done_kept ?_
      | refine State.send_kept ?_
      | fail_if_no_progress (refine State.Kept.same rfl rfl rfl rfl rfl rfl rfl rfl rfl ?_))

end Sys2Proof.Machine
end

