-- ==== Sys2Proof/Laws/State.lean ====
section
/-! SUPPORT. Reading back what the named updates of the state write: each field after each update, and register fields. -/

namespace Sys2Proof.Machine

/-! ### Tables -/

theorem Table.find_erase_self {α : Type} (t : Table α) (k : Nat) : Table.find (Table.erase t k) k = none := by
  induction t with
  | nil => rfl
  | cons e t ih =>
    unfold Table.erase at *
    by_cases h : e.1 = k <;> simp [List.filter_cons, h, Table.find, ih]

theorem Table.find_erase_ne {α : Type} (t : Table α) {k j : Nat} (h : k ≠ j) :
    Table.find (Table.erase t k) j = Table.find t j := by
  induction t with
  | nil => rfl
  | cons e t ih =>
    unfold Table.erase at *
    by_cases hk : e.1 = k
    · simp [List.filter_cons, hk, Table.find, ih, h]
    · simp [List.filter_cons, hk, Table.find, ih]

theorem Table.find_place_self {α : Type} (t : Table α) (k : Nat) (v : α) (h : Table.find t k = none) :
    Table.find (Table.place k v t) k = some v := by
  induction t with
  | nil => simp [Table.place, Table.find]
  | cons e t ih =>
    simp only [Table.find] at h
    by_cases he : e.1 = k
    · simp [he] at h
    · simp only [he, if_false] at h
      unfold Table.place
      split
      · simp [Table.find]
      · simp [Table.find, he, ih h]

theorem Table.find_place_ne {α : Type} (t : Table α) {k j : Nat} (v : α) (h : k ≠ j) :
    Table.find (Table.place k v t) j = Table.find t j := by
  induction t with
  | nil => simp [Table.place, Table.find, h]
  | cons e t ih =>
    unfold Table.place
    split
    · simp [Table.find, h]
    · simp [Table.find, ih]

@[simp] theorem Table.find_put_self {α : Type} (t : Table α) (k : Nat) (v : α) : Table.find (Table.put t k v) k = some v :=
  Table.find_place_self _ _ _ (Table.find_erase_self t k)

theorem Table.find_put_ne {α : Type} (t : Table α) {k j : Nat} (v : α) (h : k ≠ j) :
    Table.find (Table.put t k v) j = Table.find t j := by
  rw [Table.put, Table.find_place_ne _ _ h, Table.find_erase_ne _ h]

@[simp] theorem Table.get_set_self {α : Type} [DecidableEq α] (t : Table α) (d : α) (k : Nat) (v : α) :
    Table.get (Table.set t d k v) d k = v := by
  unfold Table.set Table.get
  split
  · simp [Table.find_erase_self, *]
  · simp

theorem Table.get_set_ne {α : Type} [DecidableEq α] (t : Table α) (d e : α) {k j : Nat} (v : α) (h : k ≠ j) :
    Table.get (Table.set t d k v) e j = Table.get t e j := by
  unfold Table.set Table.get
  split
  · rw [Table.find_erase_ne _ h]
  · rw [Table.find_put_ne _ _ h]

/-! ### Register fields -/

/-- A field reads as it was written, within its width. -/
@[simp] theorem State.rdAt_wrAt_self (s : State) (f : Fld) (i v : Nat) : (s.wrAt f i v).rdAt f i = v % 2 ^ f.width := by
  simp [State.wrAt, State.rdAt]

@[simp] theorem State.rd_wr_self (s : State) (f : Fld) (v : Nat) : (s.wr f v).rd f = v % 2 ^ f.width :=
  State.rdAt_wrAt_self s f 0 v

/-- A field with another key is unchanged. -/
theorem State.rdAt_wrAt_ne (s : State) {f g : Fld} {i j : Nat} (v : Nat) (h : f.key i ≠ g.key j) :
    (s.wrAt f i v).rdAt g j = s.rdAt g j :=
  Table.get_set_ne _ _ _ _ h

theorem State.rd_wr_ne (s : State) {f g : Fld} (v : Nat) (h : f.key 0 ≠ g.key 0) : (s.wr f v).rd g = s.rd g :=
  State.rdAt_wrAt_ne s v h

theorem State.rdAt_putAt_ne (s : State) {f g : Fld} {i j : Nat} (b : Bool) (h : f.key i ≠ g.key j) :
    (s.putAt f i b).rdAt g j = s.rdAt g j :=
  State.rdAt_wrAt_ne s _ h

theorem State.rd_put_ne (s : State) {f g : Fld} (b : Bool) (h : f.key 0 ≠ g.key 0) : (s.put f b).rd g = s.rd g :=
  State.rdAt_wrAt_ne s _ h

/-- A one-bit field reads as it was set. -/
@[simp] theorem State.onAt_putAt_self (s : State) (f : Fld) (i : Nat) (b : Bool) (h : 0 < f.width) :
    (s.putAt f i b).onAt f i = b := by
  have h2 : 1 < 2 ^ f.width := Nat.one_lt_two_pow (by omega)
  cases b <;> simp [State.putAt, State.onAt, flag, Nat.mod_eq_of_lt h2]

/-- What a message leaves: the register file. -/
@[simp] theorem State.rdAt_send (s : State) (o : Output) (f : Fld) (i : Nat) : (s.send o).rdAt f i = s.rdAt f i := rfl

@[simp] theorem State.rd_send (s : State) (o : Output) (f : Fld) : (s.send o).rd f = s.rd f := rfl

@[simp] theorem State.out_send (s : State) (o : Output) : (s.send o).out = o :: s.out := rfl

@[simp] theorem State.link_setLink_self (s : State) (n : Nat) (l : Link) : (s.setLink n l).link n = l := by
  simp [State.setLink, State.link]

theorem State.link_setLink_ne (s : State) {n m : Nat} (l : Link) (h : n ≠ m) : (s.setLink n l).link m = s.link m :=
  Table.get_set_ne _ _ _ _ h

/-! ### Fields after updates -/

@[simp] theorem State.wrAt_time (s : State) (f : Fld) (i v : Nat) : (s.wrAt f i v).time = s.time := rfl
@[simp] theorem State.wrAt_stampBase (s : State) (f : Fld) (i v : Nat) : (s.wrAt f i v).stampBase = s.stampBase := rfl
@[simp] theorem State.wrAt_links (s : State) (f : Fld) (i v : Nat) : (s.wrAt f i v).links = s.links := rfl
@[simp] theorem State.wrAt_lds (s : State) (f : Fld) (i v : Nat) : (s.wrAt f i v).lds = s.lds := rfl
@[simp] theorem State.wrAt_decoders (s : State) (f : Fld) (i v : Nat) : (s.wrAt f i v).decoders = s.decoders := rfl
@[simp] theorem State.wrAt_reqs (s : State) (f : Fld) (i v : Nat) : (s.wrAt f i v).reqs = s.reqs := rfl
@[simp] theorem State.wrAt_nextReq (s : State) (f : Fld) (i v : Nat) : (s.wrAt f i v).nextReq = s.nextReq := rfl
@[simp] theorem State.wrAt_map (s : State) (f : Fld) (i v : Nat) : (s.wrAt f i v).map = s.map := rfl
@[simp] theorem State.wrAt_cir (s : State) (f : Fld) (i v : Nat) : (s.wrAt f i v).cir = s.cir := rfl
@[simp] theorem State.wrAt_nmb (s : State) (f : Fld) (i v : Nat) : (s.wrAt f i v).nmb = s.nmb := rfl
@[simp] theorem State.wrAt_dram (s : State) (f : Fld) (i v : Nat) : (s.wrAt f i v).dram = s.dram := rfl
@[simp] theorem State.wrAt_med (s : State) (f : Fld) (i v : Nat) : (s.wrAt f i v).med = s.med := rfl
@[simp] theorem State.wrAt_flt (s : State) (f : Fld) (i v : Nat) : (s.wrAt f i v).flt = s.flt := rfl
@[simp] theorem State.wrAt_hal (s : State) (f : Fld) (i v : Nat) : (s.wrAt f i v).hal = s.hal := rfl
@[simp] theorem State.wrAt_con (s : State) (f : Fld) (i v : Nat) : (s.wrAt f i v).con = s.con := rfl
@[simp] theorem State.wrAt_pair (s : State) (f : Fld) (i v : Nat) : (s.wrAt f i v).pair = s.pair := rfl
@[simp] theorem State.wrAt_sec (s : State) (f : Fld) (i v : Nat) : (s.wrAt f i v).sec = s.sec := rfl
@[simp] theorem State.wrAt_snp (s : State) (f : Fld) (i v : Nat) : (s.wrAt f i v).snp = s.snp := rfl
@[simp] theorem State.wrAt_plc (s : State) (f : Fld) (i v : Nat) : (s.wrAt f i v).plc = s.plc := rfl
@[simp] theorem State.wrAt_que (s : State) (f : Fld) (i v : Nat) : (s.wrAt f i v).que = s.que := rfl
@[simp] theorem State.wrAt_qos (s : State) (f : Fld) (i v : Nat) : (s.wrAt f i v).qos = s.qos := rfl
@[simp] theorem State.wrAt_smp (s : State) (f : Fld) (i v : Nat) : (s.wrAt f i v).smp = s.smp := rfl
@[simp] theorem State.wrAt_tel (s : State) (f : Fld) (i v : Nat) : (s.wrAt f i v).tel = s.tel := rfl
@[simp] theorem State.wrAt_eng (s : State) (f : Fld) (i v : Nat) : (s.wrAt f i v).eng = s.eng := rfl
@[simp] theorem State.wrAt_pow (s : State) (f : Fld) (i v : Nat) : (s.wrAt f i v).pow = s.pow := rfl
@[simp] theorem State.wrAt_chip (s : State) (f : Fld) (i v : Nat) : (s.wrAt f i v).chip = s.chip := rfl
@[simp] theorem State.wrAt_mbx (s : State) (f : Fld) (i v : Nat) : (s.wrAt f i v).mbx = s.mbx := rfl
@[simp] theorem State.wrAt_free (s : State) (f : Fld) (i v : Nat) : (s.wrAt f i v).free = s.free := rfl
@[simp] theorem State.wrAt_out (s : State) (f : Fld) (i v : Nat) : (s.wrAt f i v).out = s.out := rfl
@[simp] theorem State.wrAt_pending (s : State) (f : Fld) (i v : Nat) : (s.wrAt f i v).pending = s.pending := rfl

@[simp] theorem State.wr_time (s : State) (f : Fld) (v : Nat) : (s.wr f v).time = s.time := rfl
@[simp] theorem State.wr_stampBase (s : State) (f : Fld) (v : Nat) : (s.wr f v).stampBase = s.stampBase := rfl
@[simp] theorem State.wr_links (s : State) (f : Fld) (v : Nat) : (s.wr f v).links = s.links := rfl
@[simp] theorem State.wr_lds (s : State) (f : Fld) (v : Nat) : (s.wr f v).lds = s.lds := rfl
@[simp] theorem State.wr_decoders (s : State) (f : Fld) (v : Nat) : (s.wr f v).decoders = s.decoders := rfl
@[simp] theorem State.wr_reqs (s : State) (f : Fld) (v : Nat) : (s.wr f v).reqs = s.reqs := rfl
@[simp] theorem State.wr_nextReq (s : State) (f : Fld) (v : Nat) : (s.wr f v).nextReq = s.nextReq := rfl
@[simp] theorem State.wr_map (s : State) (f : Fld) (v : Nat) : (s.wr f v).map = s.map := rfl
@[simp] theorem State.wr_cir (s : State) (f : Fld) (v : Nat) : (s.wr f v).cir = s.cir := rfl
@[simp] theorem State.wr_nmb (s : State) (f : Fld) (v : Nat) : (s.wr f v).nmb = s.nmb := rfl
@[simp] theorem State.wr_dram (s : State) (f : Fld) (v : Nat) : (s.wr f v).dram = s.dram := rfl
@[simp] theorem State.wr_med (s : State) (f : Fld) (v : Nat) : (s.wr f v).med = s.med := rfl
@[simp] theorem State.wr_flt (s : State) (f : Fld) (v : Nat) : (s.wr f v).flt = s.flt := rfl
@[simp] theorem State.wr_hal (s : State) (f : Fld) (v : Nat) : (s.wr f v).hal = s.hal := rfl
@[simp] theorem State.wr_con (s : State) (f : Fld) (v : Nat) : (s.wr f v).con = s.con := rfl
@[simp] theorem State.wr_pair (s : State) (f : Fld) (v : Nat) : (s.wr f v).pair = s.pair := rfl
@[simp] theorem State.wr_sec (s : State) (f : Fld) (v : Nat) : (s.wr f v).sec = s.sec := rfl
@[simp] theorem State.wr_snp (s : State) (f : Fld) (v : Nat) : (s.wr f v).snp = s.snp := rfl
@[simp] theorem State.wr_plc (s : State) (f : Fld) (v : Nat) : (s.wr f v).plc = s.plc := rfl
@[simp] theorem State.wr_que (s : State) (f : Fld) (v : Nat) : (s.wr f v).que = s.que := rfl
@[simp] theorem State.wr_qos (s : State) (f : Fld) (v : Nat) : (s.wr f v).qos = s.qos := rfl
@[simp] theorem State.wr_smp (s : State) (f : Fld) (v : Nat) : (s.wr f v).smp = s.smp := rfl
@[simp] theorem State.wr_tel (s : State) (f : Fld) (v : Nat) : (s.wr f v).tel = s.tel := rfl
@[simp] theorem State.wr_eng (s : State) (f : Fld) (v : Nat) : (s.wr f v).eng = s.eng := rfl
@[simp] theorem State.wr_pow (s : State) (f : Fld) (v : Nat) : (s.wr f v).pow = s.pow := rfl
@[simp] theorem State.wr_chip (s : State) (f : Fld) (v : Nat) : (s.wr f v).chip = s.chip := rfl
@[simp] theorem State.wr_mbx (s : State) (f : Fld) (v : Nat) : (s.wr f v).mbx = s.mbx := rfl
@[simp] theorem State.wr_free (s : State) (f : Fld) (v : Nat) : (s.wr f v).free = s.free := rfl
@[simp] theorem State.wr_out (s : State) (f : Fld) (v : Nat) : (s.wr f v).out = s.out := rfl
@[simp] theorem State.wr_pending (s : State) (f : Fld) (v : Nat) : (s.wr f v).pending = s.pending := rfl

@[simp] theorem State.putAt_time (s : State) (f : Fld) (i : Nat) (b : Bool) : (s.putAt f i b).time = s.time := rfl
@[simp] theorem State.putAt_stampBase (s : State) (f : Fld) (i : Nat) (b : Bool) : (s.putAt f i b).stampBase = s.stampBase := rfl
@[simp] theorem State.putAt_links (s : State) (f : Fld) (i : Nat) (b : Bool) : (s.putAt f i b).links = s.links := rfl
@[simp] theorem State.putAt_lds (s : State) (f : Fld) (i : Nat) (b : Bool) : (s.putAt f i b).lds = s.lds := rfl
@[simp] theorem State.putAt_decoders (s : State) (f : Fld) (i : Nat) (b : Bool) : (s.putAt f i b).decoders = s.decoders := rfl
@[simp] theorem State.putAt_reqs (s : State) (f : Fld) (i : Nat) (b : Bool) : (s.putAt f i b).reqs = s.reqs := rfl
@[simp] theorem State.putAt_nextReq (s : State) (f : Fld) (i : Nat) (b : Bool) : (s.putAt f i b).nextReq = s.nextReq := rfl
@[simp] theorem State.putAt_map (s : State) (f : Fld) (i : Nat) (b : Bool) : (s.putAt f i b).map = s.map := rfl
@[simp] theorem State.putAt_cir (s : State) (f : Fld) (i : Nat) (b : Bool) : (s.putAt f i b).cir = s.cir := rfl
@[simp] theorem State.putAt_nmb (s : State) (f : Fld) (i : Nat) (b : Bool) : (s.putAt f i b).nmb = s.nmb := rfl
@[simp] theorem State.putAt_dram (s : State) (f : Fld) (i : Nat) (b : Bool) : (s.putAt f i b).dram = s.dram := rfl
@[simp] theorem State.putAt_med (s : State) (f : Fld) (i : Nat) (b : Bool) : (s.putAt f i b).med = s.med := rfl
@[simp] theorem State.putAt_flt (s : State) (f : Fld) (i : Nat) (b : Bool) : (s.putAt f i b).flt = s.flt := rfl
@[simp] theorem State.putAt_hal (s : State) (f : Fld) (i : Nat) (b : Bool) : (s.putAt f i b).hal = s.hal := rfl
@[simp] theorem State.putAt_con (s : State) (f : Fld) (i : Nat) (b : Bool) : (s.putAt f i b).con = s.con := rfl
@[simp] theorem State.putAt_pair (s : State) (f : Fld) (i : Nat) (b : Bool) : (s.putAt f i b).pair = s.pair := rfl
@[simp] theorem State.putAt_sec (s : State) (f : Fld) (i : Nat) (b : Bool) : (s.putAt f i b).sec = s.sec := rfl
@[simp] theorem State.putAt_snp (s : State) (f : Fld) (i : Nat) (b : Bool) : (s.putAt f i b).snp = s.snp := rfl
@[simp] theorem State.putAt_plc (s : State) (f : Fld) (i : Nat) (b : Bool) : (s.putAt f i b).plc = s.plc := rfl
@[simp] theorem State.putAt_que (s : State) (f : Fld) (i : Nat) (b : Bool) : (s.putAt f i b).que = s.que := rfl
@[simp] theorem State.putAt_qos (s : State) (f : Fld) (i : Nat) (b : Bool) : (s.putAt f i b).qos = s.qos := rfl
@[simp] theorem State.putAt_smp (s : State) (f : Fld) (i : Nat) (b : Bool) : (s.putAt f i b).smp = s.smp := rfl
@[simp] theorem State.putAt_tel (s : State) (f : Fld) (i : Nat) (b : Bool) : (s.putAt f i b).tel = s.tel := rfl
@[simp] theorem State.putAt_eng (s : State) (f : Fld) (i : Nat) (b : Bool) : (s.putAt f i b).eng = s.eng := rfl
@[simp] theorem State.putAt_pow (s : State) (f : Fld) (i : Nat) (b : Bool) : (s.putAt f i b).pow = s.pow := rfl
@[simp] theorem State.putAt_chip (s : State) (f : Fld) (i : Nat) (b : Bool) : (s.putAt f i b).chip = s.chip := rfl
@[simp] theorem State.putAt_mbx (s : State) (f : Fld) (i : Nat) (b : Bool) : (s.putAt f i b).mbx = s.mbx := rfl
@[simp] theorem State.putAt_free (s : State) (f : Fld) (i : Nat) (b : Bool) : (s.putAt f i b).free = s.free := rfl
@[simp] theorem State.putAt_out (s : State) (f : Fld) (i : Nat) (b : Bool) : (s.putAt f i b).out = s.out := rfl
@[simp] theorem State.putAt_pending (s : State) (f : Fld) (i : Nat) (b : Bool) : (s.putAt f i b).pending = s.pending := rfl

@[simp] theorem State.put_time (s : State) (f : Fld) (b : Bool) : (s.put f b).time = s.time := rfl
@[simp] theorem State.put_stampBase (s : State) (f : Fld) (b : Bool) : (s.put f b).stampBase = s.stampBase := rfl
@[simp] theorem State.put_links (s : State) (f : Fld) (b : Bool) : (s.put f b).links = s.links := rfl
@[simp] theorem State.put_lds (s : State) (f : Fld) (b : Bool) : (s.put f b).lds = s.lds := rfl
@[simp] theorem State.put_decoders (s : State) (f : Fld) (b : Bool) : (s.put f b).decoders = s.decoders := rfl
@[simp] theorem State.put_reqs (s : State) (f : Fld) (b : Bool) : (s.put f b).reqs = s.reqs := rfl
@[simp] theorem State.put_nextReq (s : State) (f : Fld) (b : Bool) : (s.put f b).nextReq = s.nextReq := rfl
@[simp] theorem State.put_map (s : State) (f : Fld) (b : Bool) : (s.put f b).map = s.map := rfl
@[simp] theorem State.put_cir (s : State) (f : Fld) (b : Bool) : (s.put f b).cir = s.cir := rfl
@[simp] theorem State.put_nmb (s : State) (f : Fld) (b : Bool) : (s.put f b).nmb = s.nmb := rfl
@[simp] theorem State.put_dram (s : State) (f : Fld) (b : Bool) : (s.put f b).dram = s.dram := rfl
@[simp] theorem State.put_med (s : State) (f : Fld) (b : Bool) : (s.put f b).med = s.med := rfl
@[simp] theorem State.put_flt (s : State) (f : Fld) (b : Bool) : (s.put f b).flt = s.flt := rfl
@[simp] theorem State.put_hal (s : State) (f : Fld) (b : Bool) : (s.put f b).hal = s.hal := rfl
@[simp] theorem State.put_con (s : State) (f : Fld) (b : Bool) : (s.put f b).con = s.con := rfl
@[simp] theorem State.put_pair (s : State) (f : Fld) (b : Bool) : (s.put f b).pair = s.pair := rfl
@[simp] theorem State.put_sec (s : State) (f : Fld) (b : Bool) : (s.put f b).sec = s.sec := rfl
@[simp] theorem State.put_snp (s : State) (f : Fld) (b : Bool) : (s.put f b).snp = s.snp := rfl
@[simp] theorem State.put_plc (s : State) (f : Fld) (b : Bool) : (s.put f b).plc = s.plc := rfl
@[simp] theorem State.put_que (s : State) (f : Fld) (b : Bool) : (s.put f b).que = s.que := rfl
@[simp] theorem State.put_qos (s : State) (f : Fld) (b : Bool) : (s.put f b).qos = s.qos := rfl
@[simp] theorem State.put_smp (s : State) (f : Fld) (b : Bool) : (s.put f b).smp = s.smp := rfl
@[simp] theorem State.put_tel (s : State) (f : Fld) (b : Bool) : (s.put f b).tel = s.tel := rfl
@[simp] theorem State.put_eng (s : State) (f : Fld) (b : Bool) : (s.put f b).eng = s.eng := rfl
@[simp] theorem State.put_pow (s : State) (f : Fld) (b : Bool) : (s.put f b).pow = s.pow := rfl
@[simp] theorem State.put_chip (s : State) (f : Fld) (b : Bool) : (s.put f b).chip = s.chip := rfl
@[simp] theorem State.put_mbx (s : State) (f : Fld) (b : Bool) : (s.put f b).mbx = s.mbx := rfl
@[simp] theorem State.put_free (s : State) (f : Fld) (b : Bool) : (s.put f b).free = s.free := rfl
@[simp] theorem State.put_out (s : State) (f : Fld) (b : Bool) : (s.put f b).out = s.out := rfl
@[simp] theorem State.put_pending (s : State) (f : Fld) (b : Bool) : (s.put f b).pending = s.pending := rfl

@[simp] theorem State.addAt_time (s : State) (f : Fld) (i n : Nat) : (s.addAt f i n).time = s.time := rfl
@[simp] theorem State.addAt_stampBase (s : State) (f : Fld) (i n : Nat) : (s.addAt f i n).stampBase = s.stampBase := rfl
@[simp] theorem State.addAt_links (s : State) (f : Fld) (i n : Nat) : (s.addAt f i n).links = s.links := rfl
@[simp] theorem State.addAt_lds (s : State) (f : Fld) (i n : Nat) : (s.addAt f i n).lds = s.lds := rfl
@[simp] theorem State.addAt_decoders (s : State) (f : Fld) (i n : Nat) : (s.addAt f i n).decoders = s.decoders := rfl
@[simp] theorem State.addAt_reqs (s : State) (f : Fld) (i n : Nat) : (s.addAt f i n).reqs = s.reqs := rfl
@[simp] theorem State.addAt_nextReq (s : State) (f : Fld) (i n : Nat) : (s.addAt f i n).nextReq = s.nextReq := rfl
@[simp] theorem State.addAt_map (s : State) (f : Fld) (i n : Nat) : (s.addAt f i n).map = s.map := rfl
@[simp] theorem State.addAt_cir (s : State) (f : Fld) (i n : Nat) : (s.addAt f i n).cir = s.cir := rfl
@[simp] theorem State.addAt_nmb (s : State) (f : Fld) (i n : Nat) : (s.addAt f i n).nmb = s.nmb := rfl
@[simp] theorem State.addAt_dram (s : State) (f : Fld) (i n : Nat) : (s.addAt f i n).dram = s.dram := rfl
@[simp] theorem State.addAt_med (s : State) (f : Fld) (i n : Nat) : (s.addAt f i n).med = s.med := rfl
@[simp] theorem State.addAt_flt (s : State) (f : Fld) (i n : Nat) : (s.addAt f i n).flt = s.flt := rfl
@[simp] theorem State.addAt_hal (s : State) (f : Fld) (i n : Nat) : (s.addAt f i n).hal = s.hal := rfl
@[simp] theorem State.addAt_con (s : State) (f : Fld) (i n : Nat) : (s.addAt f i n).con = s.con := rfl
@[simp] theorem State.addAt_pair (s : State) (f : Fld) (i n : Nat) : (s.addAt f i n).pair = s.pair := rfl
@[simp] theorem State.addAt_sec (s : State) (f : Fld) (i n : Nat) : (s.addAt f i n).sec = s.sec := rfl
@[simp] theorem State.addAt_snp (s : State) (f : Fld) (i n : Nat) : (s.addAt f i n).snp = s.snp := rfl
@[simp] theorem State.addAt_plc (s : State) (f : Fld) (i n : Nat) : (s.addAt f i n).plc = s.plc := rfl
@[simp] theorem State.addAt_que (s : State) (f : Fld) (i n : Nat) : (s.addAt f i n).que = s.que := rfl
@[simp] theorem State.addAt_qos (s : State) (f : Fld) (i n : Nat) : (s.addAt f i n).qos = s.qos := rfl
@[simp] theorem State.addAt_smp (s : State) (f : Fld) (i n : Nat) : (s.addAt f i n).smp = s.smp := rfl
@[simp] theorem State.addAt_tel (s : State) (f : Fld) (i n : Nat) : (s.addAt f i n).tel = s.tel := rfl
@[simp] theorem State.addAt_eng (s : State) (f : Fld) (i n : Nat) : (s.addAt f i n).eng = s.eng := rfl
@[simp] theorem State.addAt_pow (s : State) (f : Fld) (i n : Nat) : (s.addAt f i n).pow = s.pow := rfl
@[simp] theorem State.addAt_chip (s : State) (f : Fld) (i n : Nat) : (s.addAt f i n).chip = s.chip := rfl
@[simp] theorem State.addAt_mbx (s : State) (f : Fld) (i n : Nat) : (s.addAt f i n).mbx = s.mbx := rfl
@[simp] theorem State.addAt_free (s : State) (f : Fld) (i n : Nat) : (s.addAt f i n).free = s.free := rfl
@[simp] theorem State.addAt_out (s : State) (f : Fld) (i n : Nat) : (s.addAt f i n).out = s.out := rfl
@[simp] theorem State.addAt_pending (s : State) (f : Fld) (i n : Nat) : (s.addAt f i n).pending = s.pending := rfl

@[simp] theorem State.incAt_time (s : State) (f : Fld) (i : Nat) : (s.incAt f i).time = s.time := rfl
@[simp] theorem State.incAt_stampBase (s : State) (f : Fld) (i : Nat) : (s.incAt f i).stampBase = s.stampBase := rfl
@[simp] theorem State.incAt_links (s : State) (f : Fld) (i : Nat) : (s.incAt f i).links = s.links := rfl
@[simp] theorem State.incAt_lds (s : State) (f : Fld) (i : Nat) : (s.incAt f i).lds = s.lds := rfl
@[simp] theorem State.incAt_decoders (s : State) (f : Fld) (i : Nat) : (s.incAt f i).decoders = s.decoders := rfl
@[simp] theorem State.incAt_reqs (s : State) (f : Fld) (i : Nat) : (s.incAt f i).reqs = s.reqs := rfl
@[simp] theorem State.incAt_nextReq (s : State) (f : Fld) (i : Nat) : (s.incAt f i).nextReq = s.nextReq := rfl
@[simp] theorem State.incAt_map (s : State) (f : Fld) (i : Nat) : (s.incAt f i).map = s.map := rfl
@[simp] theorem State.incAt_cir (s : State) (f : Fld) (i : Nat) : (s.incAt f i).cir = s.cir := rfl
@[simp] theorem State.incAt_nmb (s : State) (f : Fld) (i : Nat) : (s.incAt f i).nmb = s.nmb := rfl
@[simp] theorem State.incAt_dram (s : State) (f : Fld) (i : Nat) : (s.incAt f i).dram = s.dram := rfl
@[simp] theorem State.incAt_med (s : State) (f : Fld) (i : Nat) : (s.incAt f i).med = s.med := rfl
@[simp] theorem State.incAt_flt (s : State) (f : Fld) (i : Nat) : (s.incAt f i).flt = s.flt := rfl
@[simp] theorem State.incAt_hal (s : State) (f : Fld) (i : Nat) : (s.incAt f i).hal = s.hal := rfl
@[simp] theorem State.incAt_con (s : State) (f : Fld) (i : Nat) : (s.incAt f i).con = s.con := rfl
@[simp] theorem State.incAt_pair (s : State) (f : Fld) (i : Nat) : (s.incAt f i).pair = s.pair := rfl
@[simp] theorem State.incAt_sec (s : State) (f : Fld) (i : Nat) : (s.incAt f i).sec = s.sec := rfl
@[simp] theorem State.incAt_snp (s : State) (f : Fld) (i : Nat) : (s.incAt f i).snp = s.snp := rfl
@[simp] theorem State.incAt_plc (s : State) (f : Fld) (i : Nat) : (s.incAt f i).plc = s.plc := rfl
@[simp] theorem State.incAt_que (s : State) (f : Fld) (i : Nat) : (s.incAt f i).que = s.que := rfl
@[simp] theorem State.incAt_qos (s : State) (f : Fld) (i : Nat) : (s.incAt f i).qos = s.qos := rfl
@[simp] theorem State.incAt_smp (s : State) (f : Fld) (i : Nat) : (s.incAt f i).smp = s.smp := rfl
@[simp] theorem State.incAt_tel (s : State) (f : Fld) (i : Nat) : (s.incAt f i).tel = s.tel := rfl
@[simp] theorem State.incAt_eng (s : State) (f : Fld) (i : Nat) : (s.incAt f i).eng = s.eng := rfl
@[simp] theorem State.incAt_pow (s : State) (f : Fld) (i : Nat) : (s.incAt f i).pow = s.pow := rfl
@[simp] theorem State.incAt_chip (s : State) (f : Fld) (i : Nat) : (s.incAt f i).chip = s.chip := rfl
@[simp] theorem State.incAt_mbx (s : State) (f : Fld) (i : Nat) : (s.incAt f i).mbx = s.mbx := rfl
@[simp] theorem State.incAt_free (s : State) (f : Fld) (i : Nat) : (s.incAt f i).free = s.free := rfl
@[simp] theorem State.incAt_out (s : State) (f : Fld) (i : Nat) : (s.incAt f i).out = s.out := rfl
@[simp] theorem State.incAt_pending (s : State) (f : Fld) (i : Nat) : (s.incAt f i).pending = s.pending := rfl

@[simp] theorem State.inc_time (s : State) (f : Fld) : (s.inc f).time = s.time := rfl
@[simp] theorem State.inc_stampBase (s : State) (f : Fld) : (s.inc f).stampBase = s.stampBase := rfl
@[simp] theorem State.inc_links (s : State) (f : Fld) : (s.inc f).links = s.links := rfl
@[simp] theorem State.inc_lds (s : State) (f : Fld) : (s.inc f).lds = s.lds := rfl
@[simp] theorem State.inc_decoders (s : State) (f : Fld) : (s.inc f).decoders = s.decoders := rfl
@[simp] theorem State.inc_reqs (s : State) (f : Fld) : (s.inc f).reqs = s.reqs := rfl
@[simp] theorem State.inc_nextReq (s : State) (f : Fld) : (s.inc f).nextReq = s.nextReq := rfl
@[simp] theorem State.inc_map (s : State) (f : Fld) : (s.inc f).map = s.map := rfl
@[simp] theorem State.inc_cir (s : State) (f : Fld) : (s.inc f).cir = s.cir := rfl
@[simp] theorem State.inc_nmb (s : State) (f : Fld) : (s.inc f).nmb = s.nmb := rfl
@[simp] theorem State.inc_dram (s : State) (f : Fld) : (s.inc f).dram = s.dram := rfl
@[simp] theorem State.inc_med (s : State) (f : Fld) : (s.inc f).med = s.med := rfl
@[simp] theorem State.inc_flt (s : State) (f : Fld) : (s.inc f).flt = s.flt := rfl
@[simp] theorem State.inc_hal (s : State) (f : Fld) : (s.inc f).hal = s.hal := rfl
@[simp] theorem State.inc_con (s : State) (f : Fld) : (s.inc f).con = s.con := rfl
@[simp] theorem State.inc_pair (s : State) (f : Fld) : (s.inc f).pair = s.pair := rfl
@[simp] theorem State.inc_sec (s : State) (f : Fld) : (s.inc f).sec = s.sec := rfl
@[simp] theorem State.inc_snp (s : State) (f : Fld) : (s.inc f).snp = s.snp := rfl
@[simp] theorem State.inc_plc (s : State) (f : Fld) : (s.inc f).plc = s.plc := rfl
@[simp] theorem State.inc_que (s : State) (f : Fld) : (s.inc f).que = s.que := rfl
@[simp] theorem State.inc_qos (s : State) (f : Fld) : (s.inc f).qos = s.qos := rfl
@[simp] theorem State.inc_smp (s : State) (f : Fld) : (s.inc f).smp = s.smp := rfl
@[simp] theorem State.inc_tel (s : State) (f : Fld) : (s.inc f).tel = s.tel := rfl
@[simp] theorem State.inc_eng (s : State) (f : Fld) : (s.inc f).eng = s.eng := rfl
@[simp] theorem State.inc_pow (s : State) (f : Fld) : (s.inc f).pow = s.pow := rfl
@[simp] theorem State.inc_chip (s : State) (f : Fld) : (s.inc f).chip = s.chip := rfl
@[simp] theorem State.inc_mbx (s : State) (f : Fld) : (s.inc f).mbx = s.mbx := rfl
@[simp] theorem State.inc_free (s : State) (f : Fld) : (s.inc f).free = s.free := rfl
@[simp] theorem State.inc_out (s : State) (f : Fld) : (s.inc f).out = s.out := rfl
@[simp] theorem State.inc_pending (s : State) (f : Fld) : (s.inc f).pending = s.pending := rfl

@[simp] theorem State.subAt_time (s : State) (f : Fld) (i n : Nat) : (s.subAt f i n).time = s.time := rfl
@[simp] theorem State.subAt_stampBase (s : State) (f : Fld) (i n : Nat) : (s.subAt f i n).stampBase = s.stampBase := rfl
@[simp] theorem State.subAt_links (s : State) (f : Fld) (i n : Nat) : (s.subAt f i n).links = s.links := rfl
@[simp] theorem State.subAt_lds (s : State) (f : Fld) (i n : Nat) : (s.subAt f i n).lds = s.lds := rfl
@[simp] theorem State.subAt_decoders (s : State) (f : Fld) (i n : Nat) : (s.subAt f i n).decoders = s.decoders := rfl
@[simp] theorem State.subAt_reqs (s : State) (f : Fld) (i n : Nat) : (s.subAt f i n).reqs = s.reqs := rfl
@[simp] theorem State.subAt_nextReq (s : State) (f : Fld) (i n : Nat) : (s.subAt f i n).nextReq = s.nextReq := rfl
@[simp] theorem State.subAt_map (s : State) (f : Fld) (i n : Nat) : (s.subAt f i n).map = s.map := rfl
@[simp] theorem State.subAt_cir (s : State) (f : Fld) (i n : Nat) : (s.subAt f i n).cir = s.cir := rfl
@[simp] theorem State.subAt_nmb (s : State) (f : Fld) (i n : Nat) : (s.subAt f i n).nmb = s.nmb := rfl
@[simp] theorem State.subAt_dram (s : State) (f : Fld) (i n : Nat) : (s.subAt f i n).dram = s.dram := rfl
@[simp] theorem State.subAt_med (s : State) (f : Fld) (i n : Nat) : (s.subAt f i n).med = s.med := rfl
@[simp] theorem State.subAt_flt (s : State) (f : Fld) (i n : Nat) : (s.subAt f i n).flt = s.flt := rfl
@[simp] theorem State.subAt_hal (s : State) (f : Fld) (i n : Nat) : (s.subAt f i n).hal = s.hal := rfl
@[simp] theorem State.subAt_con (s : State) (f : Fld) (i n : Nat) : (s.subAt f i n).con = s.con := rfl
@[simp] theorem State.subAt_pair (s : State) (f : Fld) (i n : Nat) : (s.subAt f i n).pair = s.pair := rfl
@[simp] theorem State.subAt_sec (s : State) (f : Fld) (i n : Nat) : (s.subAt f i n).sec = s.sec := rfl
@[simp] theorem State.subAt_snp (s : State) (f : Fld) (i n : Nat) : (s.subAt f i n).snp = s.snp := rfl
@[simp] theorem State.subAt_plc (s : State) (f : Fld) (i n : Nat) : (s.subAt f i n).plc = s.plc := rfl
@[simp] theorem State.subAt_que (s : State) (f : Fld) (i n : Nat) : (s.subAt f i n).que = s.que := rfl
@[simp] theorem State.subAt_qos (s : State) (f : Fld) (i n : Nat) : (s.subAt f i n).qos = s.qos := rfl
@[simp] theorem State.subAt_smp (s : State) (f : Fld) (i n : Nat) : (s.subAt f i n).smp = s.smp := rfl
@[simp] theorem State.subAt_tel (s : State) (f : Fld) (i n : Nat) : (s.subAt f i n).tel = s.tel := rfl
@[simp] theorem State.subAt_eng (s : State) (f : Fld) (i n : Nat) : (s.subAt f i n).eng = s.eng := rfl
@[simp] theorem State.subAt_pow (s : State) (f : Fld) (i n : Nat) : (s.subAt f i n).pow = s.pow := rfl
@[simp] theorem State.subAt_chip (s : State) (f : Fld) (i n : Nat) : (s.subAt f i n).chip = s.chip := rfl
@[simp] theorem State.subAt_mbx (s : State) (f : Fld) (i n : Nat) : (s.subAt f i n).mbx = s.mbx := rfl
@[simp] theorem State.subAt_free (s : State) (f : Fld) (i n : Nat) : (s.subAt f i n).free = s.free := rfl
@[simp] theorem State.subAt_out (s : State) (f : Fld) (i n : Nat) : (s.subAt f i n).out = s.out := rfl
@[simp] theorem State.subAt_pending (s : State) (f : Fld) (i n : Nat) : (s.subAt f i n).pending = s.pending := rfl

@[simp] theorem State.resetWindow_time (s : State) (b n : Nat) (k : Nat → Bool) : (s.resetWindow b n k).time = s.time := rfl
@[simp] theorem State.resetWindow_stampBase (s : State) (b n : Nat) (k : Nat → Bool) : (s.resetWindow b n k).stampBase = s.stampBase := rfl
@[simp] theorem State.resetWindow_links (s : State) (b n : Nat) (k : Nat → Bool) : (s.resetWindow b n k).links = s.links := rfl
@[simp] theorem State.resetWindow_lds (s : State) (b n : Nat) (k : Nat → Bool) : (s.resetWindow b n k).lds = s.lds := rfl
@[simp] theorem State.resetWindow_decoders (s : State) (b n : Nat) (k : Nat → Bool) : (s.resetWindow b n k).decoders = s.decoders := rfl
@[simp] theorem State.resetWindow_reqs (s : State) (b n : Nat) (k : Nat → Bool) : (s.resetWindow b n k).reqs = s.reqs := rfl
@[simp] theorem State.resetWindow_nextReq (s : State) (b n : Nat) (k : Nat → Bool) : (s.resetWindow b n k).nextReq = s.nextReq := rfl
@[simp] theorem State.resetWindow_map (s : State) (b n : Nat) (k : Nat → Bool) : (s.resetWindow b n k).map = s.map := rfl
@[simp] theorem State.resetWindow_cir (s : State) (b n : Nat) (k : Nat → Bool) : (s.resetWindow b n k).cir = s.cir := rfl
@[simp] theorem State.resetWindow_nmb (s : State) (b n : Nat) (k : Nat → Bool) : (s.resetWindow b n k).nmb = s.nmb := rfl
@[simp] theorem State.resetWindow_dram (s : State) (b n : Nat) (k : Nat → Bool) : (s.resetWindow b n k).dram = s.dram := rfl
@[simp] theorem State.resetWindow_med (s : State) (b n : Nat) (k : Nat → Bool) : (s.resetWindow b n k).med = s.med := rfl
@[simp] theorem State.resetWindow_flt (s : State) (b n : Nat) (k : Nat → Bool) : (s.resetWindow b n k).flt = s.flt := rfl
@[simp] theorem State.resetWindow_hal (s : State) (b n : Nat) (k : Nat → Bool) : (s.resetWindow b n k).hal = s.hal := rfl
@[simp] theorem State.resetWindow_con (s : State) (b n : Nat) (k : Nat → Bool) : (s.resetWindow b n k).con = s.con := rfl
@[simp] theorem State.resetWindow_pair (s : State) (b n : Nat) (k : Nat → Bool) : (s.resetWindow b n k).pair = s.pair := rfl
@[simp] theorem State.resetWindow_sec (s : State) (b n : Nat) (k : Nat → Bool) : (s.resetWindow b n k).sec = s.sec := rfl
@[simp] theorem State.resetWindow_snp (s : State) (b n : Nat) (k : Nat → Bool) : (s.resetWindow b n k).snp = s.snp := rfl
@[simp] theorem State.resetWindow_plc (s : State) (b n : Nat) (k : Nat → Bool) : (s.resetWindow b n k).plc = s.plc := rfl
@[simp] theorem State.resetWindow_que (s : State) (b n : Nat) (k : Nat → Bool) : (s.resetWindow b n k).que = s.que := rfl
@[simp] theorem State.resetWindow_qos (s : State) (b n : Nat) (k : Nat → Bool) : (s.resetWindow b n k).qos = s.qos := rfl
@[simp] theorem State.resetWindow_smp (s : State) (b n : Nat) (k : Nat → Bool) : (s.resetWindow b n k).smp = s.smp := rfl
@[simp] theorem State.resetWindow_tel (s : State) (b n : Nat) (k : Nat → Bool) : (s.resetWindow b n k).tel = s.tel := rfl
@[simp] theorem State.resetWindow_eng (s : State) (b n : Nat) (k : Nat → Bool) : (s.resetWindow b n k).eng = s.eng := rfl
@[simp] theorem State.resetWindow_pow (s : State) (b n : Nat) (k : Nat → Bool) : (s.resetWindow b n k).pow = s.pow := rfl
@[simp] theorem State.resetWindow_chip (s : State) (b n : Nat) (k : Nat → Bool) : (s.resetWindow b n k).chip = s.chip := rfl
@[simp] theorem State.resetWindow_mbx (s : State) (b n : Nat) (k : Nat → Bool) : (s.resetWindow b n k).mbx = s.mbx := rfl
@[simp] theorem State.resetWindow_free (s : State) (b n : Nat) (k : Nat → Bool) : (s.resetWindow b n k).free = s.free := rfl
@[simp] theorem State.resetWindow_out (s : State) (b n : Nat) (k : Nat → Bool) : (s.resetWindow b n k).out = s.out := rfl
@[simp] theorem State.resetWindow_pending (s : State) (b n : Nat) (k : Nat → Bool) : (s.resetWindow b n k).pending = s.pending := rfl

@[simp] theorem State.send_regs (s : State) (o : Output) : (s.send o).regs = s.regs := rfl
@[simp] theorem State.send_time (s : State) (o : Output) : (s.send o).time = s.time := rfl
@[simp] theorem State.send_stampBase (s : State) (o : Output) : (s.send o).stampBase = s.stampBase := rfl
@[simp] theorem State.send_links (s : State) (o : Output) : (s.send o).links = s.links := rfl
@[simp] theorem State.send_lds (s : State) (o : Output) : (s.send o).lds = s.lds := rfl
@[simp] theorem State.send_decoders (s : State) (o : Output) : (s.send o).decoders = s.decoders := rfl
@[simp] theorem State.send_reqs (s : State) (o : Output) : (s.send o).reqs = s.reqs := rfl
@[simp] theorem State.send_nextReq (s : State) (o : Output) : (s.send o).nextReq = s.nextReq := rfl
@[simp] theorem State.send_map (s : State) (o : Output) : (s.send o).map = s.map := rfl
@[simp] theorem State.send_cir (s : State) (o : Output) : (s.send o).cir = s.cir := rfl
@[simp] theorem State.send_nmb (s : State) (o : Output) : (s.send o).nmb = s.nmb := rfl
@[simp] theorem State.send_dram (s : State) (o : Output) : (s.send o).dram = s.dram := rfl
@[simp] theorem State.send_med (s : State) (o : Output) : (s.send o).med = s.med := rfl
@[simp] theorem State.send_flt (s : State) (o : Output) : (s.send o).flt = s.flt := rfl
@[simp] theorem State.send_hal (s : State) (o : Output) : (s.send o).hal = s.hal := rfl
@[simp] theorem State.send_con (s : State) (o : Output) : (s.send o).con = s.con := rfl
@[simp] theorem State.send_pair (s : State) (o : Output) : (s.send o).pair = s.pair := rfl
@[simp] theorem State.send_sec (s : State) (o : Output) : (s.send o).sec = s.sec := rfl
@[simp] theorem State.send_snp (s : State) (o : Output) : (s.send o).snp = s.snp := rfl
@[simp] theorem State.send_plc (s : State) (o : Output) : (s.send o).plc = s.plc := rfl
@[simp] theorem State.send_que (s : State) (o : Output) : (s.send o).que = s.que := rfl
@[simp] theorem State.send_qos (s : State) (o : Output) : (s.send o).qos = s.qos := rfl
@[simp] theorem State.send_smp (s : State) (o : Output) : (s.send o).smp = s.smp := rfl
@[simp] theorem State.send_tel (s : State) (o : Output) : (s.send o).tel = s.tel := rfl
@[simp] theorem State.send_eng (s : State) (o : Output) : (s.send o).eng = s.eng := rfl
@[simp] theorem State.send_pow (s : State) (o : Output) : (s.send o).pow = s.pow := rfl
@[simp] theorem State.send_chip (s : State) (o : Output) : (s.send o).chip = s.chip := rfl
@[simp] theorem State.send_mbx (s : State) (o : Output) : (s.send o).mbx = s.mbx := rfl
@[simp] theorem State.send_free (s : State) (o : Output) : (s.send o).free = s.free := rfl
@[simp] theorem State.send_pending (s : State) (o : Output) : (s.send o).pending = s.pending := rfl

@[simp] theorem State.setLink_regs (s : State) (n : Nat) (l : Link) : (s.setLink n l).regs = s.regs := rfl
@[simp] theorem State.setLink_time (s : State) (n : Nat) (l : Link) : (s.setLink n l).time = s.time := rfl
@[simp] theorem State.setLink_stampBase (s : State) (n : Nat) (l : Link) : (s.setLink n l).stampBase = s.stampBase := rfl
@[simp] theorem State.setLink_lds (s : State) (n : Nat) (l : Link) : (s.setLink n l).lds = s.lds := rfl
@[simp] theorem State.setLink_decoders (s : State) (n : Nat) (l : Link) : (s.setLink n l).decoders = s.decoders := rfl
@[simp] theorem State.setLink_reqs (s : State) (n : Nat) (l : Link) : (s.setLink n l).reqs = s.reqs := rfl
@[simp] theorem State.setLink_nextReq (s : State) (n : Nat) (l : Link) : (s.setLink n l).nextReq = s.nextReq := rfl
@[simp] theorem State.setLink_map (s : State) (n : Nat) (l : Link) : (s.setLink n l).map = s.map := rfl
@[simp] theorem State.setLink_cir (s : State) (n : Nat) (l : Link) : (s.setLink n l).cir = s.cir := rfl
@[simp] theorem State.setLink_nmb (s : State) (n : Nat) (l : Link) : (s.setLink n l).nmb = s.nmb := rfl
@[simp] theorem State.setLink_dram (s : State) (n : Nat) (l : Link) : (s.setLink n l).dram = s.dram := rfl
@[simp] theorem State.setLink_med (s : State) (n : Nat) (l : Link) : (s.setLink n l).med = s.med := rfl
@[simp] theorem State.setLink_flt (s : State) (n : Nat) (l : Link) : (s.setLink n l).flt = s.flt := rfl
@[simp] theorem State.setLink_hal (s : State) (n : Nat) (l : Link) : (s.setLink n l).hal = s.hal := rfl
@[simp] theorem State.setLink_con (s : State) (n : Nat) (l : Link) : (s.setLink n l).con = s.con := rfl
@[simp] theorem State.setLink_pair (s : State) (n : Nat) (l : Link) : (s.setLink n l).pair = s.pair := rfl
@[simp] theorem State.setLink_sec (s : State) (n : Nat) (l : Link) : (s.setLink n l).sec = s.sec := rfl
@[simp] theorem State.setLink_snp (s : State) (n : Nat) (l : Link) : (s.setLink n l).snp = s.snp := rfl
@[simp] theorem State.setLink_plc (s : State) (n : Nat) (l : Link) : (s.setLink n l).plc = s.plc := rfl
@[simp] theorem State.setLink_que (s : State) (n : Nat) (l : Link) : (s.setLink n l).que = s.que := rfl
@[simp] theorem State.setLink_qos (s : State) (n : Nat) (l : Link) : (s.setLink n l).qos = s.qos := rfl
@[simp] theorem State.setLink_smp (s : State) (n : Nat) (l : Link) : (s.setLink n l).smp = s.smp := rfl
@[simp] theorem State.setLink_tel (s : State) (n : Nat) (l : Link) : (s.setLink n l).tel = s.tel := rfl
@[simp] theorem State.setLink_eng (s : State) (n : Nat) (l : Link) : (s.setLink n l).eng = s.eng := rfl
@[simp] theorem State.setLink_pow (s : State) (n : Nat) (l : Link) : (s.setLink n l).pow = s.pow := rfl
@[simp] theorem State.setLink_chip (s : State) (n : Nat) (l : Link) : (s.setLink n l).chip = s.chip := rfl
@[simp] theorem State.setLink_mbx (s : State) (n : Nat) (l : Link) : (s.setLink n l).mbx = s.mbx := rfl
@[simp] theorem State.setLink_free (s : State) (n : Nat) (l : Link) : (s.setLink n l).free = s.free := rfl
@[simp] theorem State.setLink_out (s : State) (n : Nat) (l : Link) : (s.setLink n l).out = s.out := rfl
@[simp] theorem State.setLink_pending (s : State) (n : Nat) (l : Link) : (s.setLink n l).pending = s.pending := rfl

@[simp] theorem State.setChan_regs (s : State) (c : Nat) (x : Channel) : (s.setChan c x).regs = s.regs := rfl
@[simp] theorem State.setChan_time (s : State) (c : Nat) (x : Channel) : (s.setChan c x).time = s.time := rfl
@[simp] theorem State.setChan_stampBase (s : State) (c : Nat) (x : Channel) : (s.setChan c x).stampBase = s.stampBase := rfl
@[simp] theorem State.setChan_links (s : State) (c : Nat) (x : Channel) : (s.setChan c x).links = s.links := rfl
@[simp] theorem State.setChan_lds (s : State) (c : Nat) (x : Channel) : (s.setChan c x).lds = s.lds := rfl
@[simp] theorem State.setChan_decoders (s : State) (c : Nat) (x : Channel) : (s.setChan c x).decoders = s.decoders := rfl
@[simp] theorem State.setChan_reqs (s : State) (c : Nat) (x : Channel) : (s.setChan c x).reqs = s.reqs := rfl
@[simp] theorem State.setChan_nextReq (s : State) (c : Nat) (x : Channel) : (s.setChan c x).nextReq = s.nextReq := rfl
@[simp] theorem State.setChan_map (s : State) (c : Nat) (x : Channel) : (s.setChan c x).map = s.map := rfl
@[simp] theorem State.setChan_cir (s : State) (c : Nat) (x : Channel) : (s.setChan c x).cir = s.cir := rfl
@[simp] theorem State.setChan_nmb (s : State) (c : Nat) (x : Channel) : (s.setChan c x).nmb = s.nmb := rfl
@[simp] theorem State.setChan_med (s : State) (c : Nat) (x : Channel) : (s.setChan c x).med = s.med := rfl
@[simp] theorem State.setChan_flt (s : State) (c : Nat) (x : Channel) : (s.setChan c x).flt = s.flt := rfl
@[simp] theorem State.setChan_hal (s : State) (c : Nat) (x : Channel) : (s.setChan c x).hal = s.hal := rfl
@[simp] theorem State.setChan_con (s : State) (c : Nat) (x : Channel) : (s.setChan c x).con = s.con := rfl
@[simp] theorem State.setChan_pair (s : State) (c : Nat) (x : Channel) : (s.setChan c x).pair = s.pair := rfl
@[simp] theorem State.setChan_sec (s : State) (c : Nat) (x : Channel) : (s.setChan c x).sec = s.sec := rfl
@[simp] theorem State.setChan_snp (s : State) (c : Nat) (x : Channel) : (s.setChan c x).snp = s.snp := rfl
@[simp] theorem State.setChan_plc (s : State) (c : Nat) (x : Channel) : (s.setChan c x).plc = s.plc := rfl
@[simp] theorem State.setChan_que (s : State) (c : Nat) (x : Channel) : (s.setChan c x).que = s.que := rfl
@[simp] theorem State.setChan_qos (s : State) (c : Nat) (x : Channel) : (s.setChan c x).qos = s.qos := rfl
@[simp] theorem State.setChan_smp (s : State) (c : Nat) (x : Channel) : (s.setChan c x).smp = s.smp := rfl
@[simp] theorem State.setChan_tel (s : State) (c : Nat) (x : Channel) : (s.setChan c x).tel = s.tel := rfl
@[simp] theorem State.setChan_eng (s : State) (c : Nat) (x : Channel) : (s.setChan c x).eng = s.eng := rfl
@[simp] theorem State.setChan_pow (s : State) (c : Nat) (x : Channel) : (s.setChan c x).pow = s.pow := rfl
@[simp] theorem State.setChan_chip (s : State) (c : Nat) (x : Channel) : (s.setChan c x).chip = s.chip := rfl
@[simp] theorem State.setChan_mbx (s : State) (c : Nat) (x : Channel) : (s.setChan c x).mbx = s.mbx := rfl
@[simp] theorem State.setChan_free (s : State) (c : Nat) (x : Channel) : (s.setChan c x).free = s.free := rfl
@[simp] theorem State.setChan_out (s : State) (c : Nat) (x : Channel) : (s.setChan c x).out = s.out := rfl
@[simp] theorem State.setChan_pending (s : State) (c : Nat) (x : Channel) : (s.setChan c x).pending = s.pending := rfl

@[simp] theorem State.setWay_regs (s : State) (k : Nat) (x : Way) : (s.setWay k x).regs = s.regs := rfl
@[simp] theorem State.setWay_time (s : State) (k : Nat) (x : Way) : (s.setWay k x).time = s.time := rfl
@[simp] theorem State.setWay_stampBase (s : State) (k : Nat) (x : Way) : (s.setWay k x).stampBase = s.stampBase := rfl
@[simp] theorem State.setWay_links (s : State) (k : Nat) (x : Way) : (s.setWay k x).links = s.links := rfl
@[simp] theorem State.setWay_lds (s : State) (k : Nat) (x : Way) : (s.setWay k x).lds = s.lds := rfl
@[simp] theorem State.setWay_decoders (s : State) (k : Nat) (x : Way) : (s.setWay k x).decoders = s.decoders := rfl
@[simp] theorem State.setWay_reqs (s : State) (k : Nat) (x : Way) : (s.setWay k x).reqs = s.reqs := rfl
@[simp] theorem State.setWay_nextReq (s : State) (k : Nat) (x : Way) : (s.setWay k x).nextReq = s.nextReq := rfl
@[simp] theorem State.setWay_map (s : State) (k : Nat) (x : Way) : (s.setWay k x).map = s.map := rfl
@[simp] theorem State.setWay_nmb (s : State) (k : Nat) (x : Way) : (s.setWay k x).nmb = s.nmb := rfl
@[simp] theorem State.setWay_dram (s : State) (k : Nat) (x : Way) : (s.setWay k x).dram = s.dram := rfl
@[simp] theorem State.setWay_med (s : State) (k : Nat) (x : Way) : (s.setWay k x).med = s.med := rfl
@[simp] theorem State.setWay_flt (s : State) (k : Nat) (x : Way) : (s.setWay k x).flt = s.flt := rfl
@[simp] theorem State.setWay_hal (s : State) (k : Nat) (x : Way) : (s.setWay k x).hal = s.hal := rfl
@[simp] theorem State.setWay_con (s : State) (k : Nat) (x : Way) : (s.setWay k x).con = s.con := rfl
@[simp] theorem State.setWay_pair (s : State) (k : Nat) (x : Way) : (s.setWay k x).pair = s.pair := rfl
@[simp] theorem State.setWay_sec (s : State) (k : Nat) (x : Way) : (s.setWay k x).sec = s.sec := rfl
@[simp] theorem State.setWay_snp (s : State) (k : Nat) (x : Way) : (s.setWay k x).snp = s.snp := rfl
@[simp] theorem State.setWay_plc (s : State) (k : Nat) (x : Way) : (s.setWay k x).plc = s.plc := rfl
@[simp] theorem State.setWay_que (s : State) (k : Nat) (x : Way) : (s.setWay k x).que = s.que := rfl
@[simp] theorem State.setWay_qos (s : State) (k : Nat) (x : Way) : (s.setWay k x).qos = s.qos := rfl
@[simp] theorem State.setWay_smp (s : State) (k : Nat) (x : Way) : (s.setWay k x).smp = s.smp := rfl
@[simp] theorem State.setWay_tel (s : State) (k : Nat) (x : Way) : (s.setWay k x).tel = s.tel := rfl
@[simp] theorem State.setWay_eng (s : State) (k : Nat) (x : Way) : (s.setWay k x).eng = s.eng := rfl
@[simp] theorem State.setWay_pow (s : State) (k : Nat) (x : Way) : (s.setWay k x).pow = s.pow := rfl
@[simp] theorem State.setWay_chip (s : State) (k : Nat) (x : Way) : (s.setWay k x).chip = s.chip := rfl
@[simp] theorem State.setWay_mbx (s : State) (k : Nat) (x : Way) : (s.setWay k x).mbx = s.mbx := rfl
@[simp] theorem State.setWay_free (s : State) (k : Nat) (x : Way) : (s.setWay k x).free = s.free := rfl
@[simp] theorem State.setWay_out (s : State) (k : Nat) (x : Way) : (s.setWay k x).out = s.out := rfl
@[simp] theorem State.setWay_pending (s : State) (k : Nat) (x : Way) : (s.setWay k x).pending = s.pending := rfl

@[simp] theorem State.setSlot_regs (s : State) (n : Nat) (x : Slot) : (s.setSlot n x).regs = s.regs := rfl
@[simp] theorem State.setSlot_time (s : State) (n : Nat) (x : Slot) : (s.setSlot n x).time = s.time := rfl
@[simp] theorem State.setSlot_stampBase (s : State) (n : Nat) (x : Slot) : (s.setSlot n x).stampBase = s.stampBase := rfl
@[simp] theorem State.setSlot_links (s : State) (n : Nat) (x : Slot) : (s.setSlot n x).links = s.links := rfl
@[simp] theorem State.setSlot_lds (s : State) (n : Nat) (x : Slot) : (s.setSlot n x).lds = s.lds := rfl
@[simp] theorem State.setSlot_decoders (s : State) (n : Nat) (x : Slot) : (s.setSlot n x).decoders = s.decoders := rfl
@[simp] theorem State.setSlot_reqs (s : State) (n : Nat) (x : Slot) : (s.setSlot n x).reqs = s.reqs := rfl
@[simp] theorem State.setSlot_nextReq (s : State) (n : Nat) (x : Slot) : (s.setSlot n x).nextReq = s.nextReq := rfl
@[simp] theorem State.setSlot_map (s : State) (n : Nat) (x : Slot) : (s.setSlot n x).map = s.map := rfl
@[simp] theorem State.setSlot_cir (s : State) (n : Nat) (x : Slot) : (s.setSlot n x).cir = s.cir := rfl
@[simp] theorem State.setSlot_nmb (s : State) (n : Nat) (x : Slot) : (s.setSlot n x).nmb = s.nmb := rfl
@[simp] theorem State.setSlot_dram (s : State) (n : Nat) (x : Slot) : (s.setSlot n x).dram = s.dram := rfl
@[simp] theorem State.setSlot_med (s : State) (n : Nat) (x : Slot) : (s.setSlot n x).med = s.med := rfl
@[simp] theorem State.setSlot_flt (s : State) (n : Nat) (x : Slot) : (s.setSlot n x).flt = s.flt := rfl
@[simp] theorem State.setSlot_hal (s : State) (n : Nat) (x : Slot) : (s.setSlot n x).hal = s.hal := rfl
@[simp] theorem State.setSlot_con (s : State) (n : Nat) (x : Slot) : (s.setSlot n x).con = s.con := rfl
@[simp] theorem State.setSlot_pair (s : State) (n : Nat) (x : Slot) : (s.setSlot n x).pair = s.pair := rfl
@[simp] theorem State.setSlot_sec (s : State) (n : Nat) (x : Slot) : (s.setSlot n x).sec = s.sec := rfl
@[simp] theorem State.setSlot_plc (s : State) (n : Nat) (x : Slot) : (s.setSlot n x).plc = s.plc := rfl
@[simp] theorem State.setSlot_que (s : State) (n : Nat) (x : Slot) : (s.setSlot n x).que = s.que := rfl
@[simp] theorem State.setSlot_qos (s : State) (n : Nat) (x : Slot) : (s.setSlot n x).qos = s.qos := rfl
@[simp] theorem State.setSlot_smp (s : State) (n : Nat) (x : Slot) : (s.setSlot n x).smp = s.smp := rfl
@[simp] theorem State.setSlot_tel (s : State) (n : Nat) (x : Slot) : (s.setSlot n x).tel = s.tel := rfl
@[simp] theorem State.setSlot_eng (s : State) (n : Nat) (x : Slot) : (s.setSlot n x).eng = s.eng := rfl
@[simp] theorem State.setSlot_pow (s : State) (n : Nat) (x : Slot) : (s.setSlot n x).pow = s.pow := rfl
@[simp] theorem State.setSlot_chip (s : State) (n : Nat) (x : Slot) : (s.setSlot n x).chip = s.chip := rfl
@[simp] theorem State.setSlot_mbx (s : State) (n : Nat) (x : Slot) : (s.setSlot n x).mbx = s.mbx := rfl
@[simp] theorem State.setSlot_free (s : State) (n : Nat) (x : Slot) : (s.setSlot n x).free = s.free := rfl
@[simp] theorem State.setSlot_out (s : State) (n : Nat) (x : Slot) : (s.setSlot n x).out = s.out := rfl
@[simp] theorem State.setSlot_pending (s : State) (n : Nat) (x : Slot) : (s.setSlot n x).pending = s.pending := rfl

@[simp] theorem State.setCore_regs (s : State) (n : Nat) (c : Core) : (s.setCore n c).regs = s.regs := rfl
@[simp] theorem State.setCore_time (s : State) (n : Nat) (c : Core) : (s.setCore n c).time = s.time := rfl
@[simp] theorem State.setCore_stampBase (s : State) (n : Nat) (c : Core) : (s.setCore n c).stampBase = s.stampBase := rfl
@[simp] theorem State.setCore_links (s : State) (n : Nat) (c : Core) : (s.setCore n c).links = s.links := rfl
@[simp] theorem State.setCore_lds (s : State) (n : Nat) (c : Core) : (s.setCore n c).lds = s.lds := rfl
@[simp] theorem State.setCore_decoders (s : State) (n : Nat) (c : Core) : (s.setCore n c).decoders = s.decoders := rfl
@[simp] theorem State.setCore_reqs (s : State) (n : Nat) (c : Core) : (s.setCore n c).reqs = s.reqs := rfl
@[simp] theorem State.setCore_nextReq (s : State) (n : Nat) (c : Core) : (s.setCore n c).nextReq = s.nextReq := rfl
@[simp] theorem State.setCore_map (s : State) (n : Nat) (c : Core) : (s.setCore n c).map = s.map := rfl
@[simp] theorem State.setCore_cir (s : State) (n : Nat) (c : Core) : (s.setCore n c).cir = s.cir := rfl
@[simp] theorem State.setCore_nmb (s : State) (n : Nat) (c : Core) : (s.setCore n c).nmb = s.nmb := rfl
@[simp] theorem State.setCore_dram (s : State) (n : Nat) (c : Core) : (s.setCore n c).dram = s.dram := rfl
@[simp] theorem State.setCore_med (s : State) (n : Nat) (c : Core) : (s.setCore n c).med = s.med := rfl
@[simp] theorem State.setCore_flt (s : State) (n : Nat) (c : Core) : (s.setCore n c).flt = s.flt := rfl
@[simp] theorem State.setCore_hal (s : State) (n : Nat) (c : Core) : (s.setCore n c).hal = s.hal := rfl
@[simp] theorem State.setCore_con (s : State) (n : Nat) (c : Core) : (s.setCore n c).con = s.con := rfl
@[simp] theorem State.setCore_pair (s : State) (n : Nat) (c : Core) : (s.setCore n c).pair = s.pair := rfl
@[simp] theorem State.setCore_sec (s : State) (n : Nat) (c : Core) : (s.setCore n c).sec = s.sec := rfl
@[simp] theorem State.setCore_snp (s : State) (n : Nat) (c : Core) : (s.setCore n c).snp = s.snp := rfl
@[simp] theorem State.setCore_plc (s : State) (n : Nat) (c : Core) : (s.setCore n c).plc = s.plc := rfl
@[simp] theorem State.setCore_que (s : State) (n : Nat) (c : Core) : (s.setCore n c).que = s.que := rfl
@[simp] theorem State.setCore_qos (s : State) (n : Nat) (c : Core) : (s.setCore n c).qos = s.qos := rfl
@[simp] theorem State.setCore_smp (s : State) (n : Nat) (c : Core) : (s.setCore n c).smp = s.smp := rfl
@[simp] theorem State.setCore_tel (s : State) (n : Nat) (c : Core) : (s.setCore n c).tel = s.tel := rfl
@[simp] theorem State.setCore_pow (s : State) (n : Nat) (c : Core) : (s.setCore n c).pow = s.pow := rfl
@[simp] theorem State.setCore_chip (s : State) (n : Nat) (c : Core) : (s.setCore n c).chip = s.chip := rfl
@[simp] theorem State.setCore_mbx (s : State) (n : Nat) (c : Core) : (s.setCore n c).mbx = s.mbx := rfl
@[simp] theorem State.setCore_free (s : State) (n : Nat) (c : Core) : (s.setCore n c).free = s.free := rfl
@[simp] theorem State.setCore_out (s : State) (n : Nat) (c : Core) : (s.setCore n c).out = s.out := rfl
@[simp] theorem State.setCore_pending (s : State) (n : Nat) (c : Core) : (s.setCore n c).pending = s.pending := rfl

@[simp] theorem State.setCci_regs (s : State) (k : Nat) (x : Cci) : (s.setCci k x).regs = s.regs := rfl
@[simp] theorem State.setCci_time (s : State) (k : Nat) (x : Cci) : (s.setCci k x).time = s.time := rfl
@[simp] theorem State.setCci_stampBase (s : State) (k : Nat) (x : Cci) : (s.setCci k x).stampBase = s.stampBase := rfl
@[simp] theorem State.setCci_links (s : State) (k : Nat) (x : Cci) : (s.setCci k x).links = s.links := rfl
@[simp] theorem State.setCci_lds (s : State) (k : Nat) (x : Cci) : (s.setCci k x).lds = s.lds := rfl
@[simp] theorem State.setCci_decoders (s : State) (k : Nat) (x : Cci) : (s.setCci k x).decoders = s.decoders := rfl
@[simp] theorem State.setCci_reqs (s : State) (k : Nat) (x : Cci) : (s.setCci k x).reqs = s.reqs := rfl
@[simp] theorem State.setCci_nextReq (s : State) (k : Nat) (x : Cci) : (s.setCci k x).nextReq = s.nextReq := rfl
@[simp] theorem State.setCci_map (s : State) (k : Nat) (x : Cci) : (s.setCci k x).map = s.map := rfl
@[simp] theorem State.setCci_cir (s : State) (k : Nat) (x : Cci) : (s.setCci k x).cir = s.cir := rfl
@[simp] theorem State.setCci_nmb (s : State) (k : Nat) (x : Cci) : (s.setCci k x).nmb = s.nmb := rfl
@[simp] theorem State.setCci_dram (s : State) (k : Nat) (x : Cci) : (s.setCci k x).dram = s.dram := rfl
@[simp] theorem State.setCci_med (s : State) (k : Nat) (x : Cci) : (s.setCci k x).med = s.med := rfl
@[simp] theorem State.setCci_flt (s : State) (k : Nat) (x : Cci) : (s.setCci k x).flt = s.flt := rfl
@[simp] theorem State.setCci_hal (s : State) (k : Nat) (x : Cci) : (s.setCci k x).hal = s.hal := rfl
@[simp] theorem State.setCci_con (s : State) (k : Nat) (x : Cci) : (s.setCci k x).con = s.con := rfl
@[simp] theorem State.setCci_pair (s : State) (k : Nat) (x : Cci) : (s.setCci k x).pair = s.pair := rfl
@[simp] theorem State.setCci_sec (s : State) (k : Nat) (x : Cci) : (s.setCci k x).sec = s.sec := rfl
@[simp] theorem State.setCci_snp (s : State) (k : Nat) (x : Cci) : (s.setCci k x).snp = s.snp := rfl
@[simp] theorem State.setCci_plc (s : State) (k : Nat) (x : Cci) : (s.setCci k x).plc = s.plc := rfl
@[simp] theorem State.setCci_que (s : State) (k : Nat) (x : Cci) : (s.setCci k x).que = s.que := rfl
@[simp] theorem State.setCci_qos (s : State) (k : Nat) (x : Cci) : (s.setCci k x).qos = s.qos := rfl
@[simp] theorem State.setCci_smp (s : State) (k : Nat) (x : Cci) : (s.setCci k x).smp = s.smp := rfl
@[simp] theorem State.setCci_tel (s : State) (k : Nat) (x : Cci) : (s.setCci k x).tel = s.tel := rfl
@[simp] theorem State.setCci_eng (s : State) (k : Nat) (x : Cci) : (s.setCci k x).eng = s.eng := rfl
@[simp] theorem State.setCci_pow (s : State) (k : Nat) (x : Cci) : (s.setCci k x).pow = s.pow := rfl
@[simp] theorem State.setCci_chip (s : State) (k : Nat) (x : Cci) : (s.setCci k x).chip = s.chip := rfl
@[simp] theorem State.setCci_free (s : State) (k : Nat) (x : Cci) : (s.setCci k x).free = s.free := rfl
@[simp] theorem State.setCci_out (s : State) (k : Nat) (x : Cci) : (s.setCci k x).out = s.out := rfl
@[simp] theorem State.setCci_pending (s : State) (k : Nat) (x : Cci) : (s.setCci k x).pending = s.pending := rfl

end Sys2Proof.Machine
end

