-- ==== Sys2Proof/Laws/Taken.lean ====
section
/-! SUPPORT. What a command interface does with a command that it takes up: the command's own work, and nothing before it. -/

namespace Sys2Proof.Machine

/-- A CCI that exists and is ready serves a command that it accepts. -/
theorem State.received_taken {s : State} {cci : Nat} {mgmt : Bool} (run : State → State) (he : s.cciExists cci = true)
    (hr : s.mailReady = true) (hm : (!mgmt || s.cciManages cci) = true) : s.received cci mgmt run = run s := by
  cases mgmt <;> simp_all [State.received]

/-- A CCI that takes a command up serves it. -/
theorem State.standard_taken {s : State} {cci : Nat} {mgmt : Bool} (run : State → State) (h : s.takesMail cci mgmt = true) :
    s.standard cci mgmt run = run s := by
  simp only [State.takesMail, Bool.and_eq_true, Bool.not_eq_true'] at h
  obtain ⟨⟨⟨he, hr⟩, hm⟩, hq⟩ := h
  rw [State.standard, State.received_taken _ he hr hm, hq]; rfl

/-- A background command is served when none runs on the CCI. -/
theorem State.inBackground_taken {s : State} {cci : Nat} (run : State → State) (h : s.mayRun cci = true) :
    s.inBackground cci run = run s := by
  simp only [State.mayRun, Option.isNone_iff_eq_none] at h
  rw [State.inBackground, h]; rfl

/-- Horizon serves a Kamcon command that it takes up. -/
theorem State.kamcon_taken {s : State} {cci len : Nat} {input : List Byte} {fields : List (Nat × Nat × Nat)} (i : Instr)
    (blen : Nat) (run : State → State) (h : s.takesKamcon cci input len fields = true) :
    s.kamcon cci i input len blen fields run = run s := by
  simp only [State.takesKamcon, State.takesMail, Bool.and_eq_true, Bool.not_eq_true', decide_eq_true_eq,
    Option.isNone_iff_eq_none] at h
  obtain ⟨⟨⟨⟨⟨⟨he, hr⟩, hm⟩, hq⟩, hw⟩, hl⟩, hs⟩ := h
  rw [State.kamcon, State.arrive, State.received_taken _ he hr hm, hw, hq]
  simp [State.framed, hl, hs]

/-- Zenith serves a request that it takes up. -/
theorem State.zenith_taken {s : State} {h : ZenithHead} {key : List Byte} {valid free : Bool} (code : Nat)
    (run : State → List Byte → State) (ht : s.takesZenith h key valid free = true) :
    s.zenith code h valid free run = run s key := by
  simp only [State.takesZenith, Bool.and_eq_true, beq_iff_eq, decide_eq_true_eq, Option.isNone_iff_eq_none] at ht
  obtain ⟨⟨⟨⟨⟨⟨hs, hk⟩, hv⟩, hr⟩, hl⟩, hb⟩, hw⟩ := ht
  have hl' : ¬ 4095 < h.slice := by omega
  rw [State.zenith, hs, hk]
  cases free <;> simp_all

end Sys2Proof.Machine
end

