-- ==== Sys2Proof/WellFormed.lean ====
section
/-! DEFINITION. Ranges of the operands of a command: what a sender of commands can form. The meanings are total and do not
rest on them. -/

namespace Sys2Proof

/-- A CCI: of a link's LD by 16 × link + number, of the FM-owned LD of a link from 64 on, or one of the two on MCTP (R527). -/
def okCci (cci : Nat) : Bool := decide (cci < 72) || cci == 256 || cci == 257

/-- A payload of a mailbox (R528). -/
def okPayload (b : List Byte) : Bool := decide (b.length ≤ 4096)

/-- A host link (R16). -/
def okLink (n : Nat) : Bool := decide (n < 8)

/-- The number of an LD on its link (R24). -/
def okNumber (n : Nat) : Bool := decide (n < 16)

/-- A CXL.mem tag. -/
def okTag (n : Nat) : Bool := decide (n < 2 ^ 16)

/-- The address of a CXL.mem request: a line. -/
def okHpa (a : Nat) : Bool := decide (a < 2 ^ 52) && a % 64 == 0

/-- A link rate as LNK_LSTAT.RATE codes it (R46). -/
def okRate (n : Nat) : Bool := decide (n < 4)

/-- A link width as LNK_LSTAT.WIDTH codes it (R46). -/
def okWidth (n : Nat) : Bool := decide (n < 8)

/-- A host port (R16). -/
def okPort (n : Nat) : Bool := decide (n < 4)

/-- An LD, by 16 × port + number (R53). -/
def okLd (n : Nat) : Bool := decide (n < 64)

/-- A decoder of an LD (R25). -/
def okDecoder (k : Nat) : Bool := decide (k < 32)

/-- A 64-bit word. -/
def okWord (v : Nat) : Bool := decide (v < 2 ^ 64)

/-- A four-bit code. -/
def okNibble (n : Nat) : Bool := decide (n < 16)

/-- A byte. -/
def okByte (n : Nat) : Bool := decide (n < 256)

/-- A claim (R50). -/
def okClaim (n : Nat) : Bool := decide (n < 8192)

/-- A device page number. -/
def okPage (n : Nat) : Bool := decide (n < 2 ^ 40)

/-- A device line number, or a count of lines. -/
def okDpaLine (n : Nat) : Bool := decide (n < 2 ^ 46)

/-- The device that a correction names is one of the 10 of a subchannel (R256). -/
def okEcc (e : Ecc) : Bool := match e with
  | .corrected d => decide (d < 10)
  | .clean => true
  | .uncorrectable => true

/-- What a media read finds. -/
def okMediaFind (f : MediaFind) : Bool := okEcc f.ecc

/-- What reads of stored lines find. -/
def okFinds (fs : Finds) : Bool := fs.all fun x => decide (x.1 < 2 ^ 38) && okMediaFind x.2

/-- A kind of decode fault (R162). -/
def okFault (x : Option Nat) : Bool := x.all fun k => decide (k < 8)

/-- A codec pipe (R15). -/
def okPipe (n : Nat) : Bool := decide (n < 12)

/-- A heap segment (R171). -/
def okSegment (n : Nat) : Bool := decide (n < 2 ^ 23)

/-- A snapshot slot (R187). -/
def okSlot (n : Nat) : Bool := decide (n < 256)

/-- A queue (R351). -/
def okQueue (n : Nat) : Bool := decide (n < 65536)

/-- A place in a submission queue (R351). -/
def okIndex (n : Nat) : Bool := decide (n < 65536)

/-- A DRAM channel (R220). -/
def okChannel (n : Nat) : Bool := decide (n < 16)

/-- A rank of a channel (R224). -/
def okRank (n : Nat) : Bool := decide (n < 4)

/-- A DRAM PLL (R500). -/
def okDramPll (k : Nat) : Bool := decide (k < 16)

/-- A scrub context (R268). -/
def okContext (n : Nat) : Bool := decide (n < 8)

/-- An item of a page (R292). -/
def okItem (n : Nat) : Bool := decide (n < 128)

/-- A KeyID (R305). -/
def okKeyId (k : Nat) : Bool := decide (k < 1024)

/-- A breach record (R310). -/
def okRecord (r : Option Nat) : Bool := r.all fun x => decide (x < 64)

/-- A set of the halo directory (R324). -/
def okHaloSet (n : Nat) : Bool := decide (n < 262144)

/-- A slice (R348). -/
def okSlice (n : Nat) : Bool := decide (n < 4096)

/-- A 32-bit number. -/
def okHalf (n : Nat) : Bool := decide (n < 2 ^ 32)

/-- A 32-bit number, where it is given. -/
def okHead32 (v : Option Nat) : Bool := v.all okHalf

/-- A descriptor of eight words, where its fetch succeeds (R357). -/
def okDescriptor (w : Option (List Nat)) : Bool := w.all fun l => l.length == 8 && l.all fun x => decide (x < 2 ^ 64)

/-- A stream header (R204). -/
def okStreamHeader (b : List Byte) : Bool := b.length == 64

/-- A mask of bundles. -/
def okBundles (m : Nat) : Bool := decide (m < 8)

/-- A Contrail bundle (R404). -/
def okBundle (n : Nat) : Bool := decide (n < 3)

/-- The bundle map of a codeword (R409). -/
def okCodeword (c : Codeword) : Bool := decide (c.bmap < 8)

/-- The head of a packet: its SEQ and KEYPHASE (R411). -/
def okHead (h : RxHead) : Bool := decide (h.seq < 4096) && decide (h.phase < 2)

/-- Lines of an MW or RSW packet (R414). -/
def okMirrorLines (l : List MirrorLine) : Bool := decide (l.length ≤ 15) && l.all fun x => okDpaLine x.line

/-- A lane. -/
def okLane (n : Nat) : Bool := decide (n < 16)

/-- An operation number of the pair (R460). -/
def okOp (n : Nat) : Bool := decide (n < 2 ^ 16)

/-- A 64 KiB stripe. -/
def okStripe (n : Nat) : Bool := decide (n < 2 ^ 36)

/-- A quarter of the slices (R460). -/
def okPiece (n : Nat) : Bool := decide (n < 4)

/-- Slices of a quarter (R460). -/
def okSliceMap (l : List Nat) : Bool := l.all fun x => decide (x < 1024)

/-- An AES-256 key. -/
def okKey (n : Nat) : Bool := decide (n < 2 ^ 256)

/-- One bit. -/
def okBit (n : Nat) : Bool := decide (n < 2)

/-- A core: the 46 service and drift engines and the steward (R468). -/
def okCore (n : Nat) : Bool := decide (n < 47)

/-- Stores of a core are 8-byte stores (R481). -/
def okWork (w : CoreWork) : Bool := w.stores.all fun x => x.1 % 8 == 0

/-- A mask of cores. -/
def okCores (m : Nat) : Bool := decide (m < 2 ^ 47)

/-- The straps (R646). -/
def okStraps (x : Straps) : Bool := decide (x.pairId < 2) && decide (x.sbaddr < 4)

/-- A supply rail (R503). -/
def okRail (n : Nat) : Bool := decide (n < 7)

/-- Handles of event records. -/
def okHandles (l : List Nat) : Bool := l.all fun x => decide (x < 65536)

/-- An event interrupt policy. -/
def okPolicy (l : List Nat) : Bool := decide (l.length ≤ 5) && l.all fun x => decide (x < 256)

/-- A device physical address. -/
def okDpa (n : Nat) : Bool := decide (n < 2 ^ 52)

/-- The head of a Zenith request (R543). -/
def okRequester (h : ZenithHead) : Bool := decide (h.reserved < 256) && decide (h.slice < 65536)

/-- A power domain (R555). -/
def okDomain (n : Nat) : Bool := decide (n < 33)

/-- A word of FLT_STICKY (R568, R584). -/
def okStickyWord (k : Nat) : Bool := decide (k < 2)

/-- Counter banks (R590). -/
def okBanks (l : List Nat) : Bool := l.all fun x => decide (x < 40)

/-- Readings of the sensors (R605). -/
def okReadings (l : List (Option Int)) : Bool := decide (l.length ≤ 20)

/-- A junction sensor (R605). -/
def okSensor (n : Nat) : Bool := decide (n < 20)

/-- Samples of the rails (R607). -/
def okSamples (l : List (Nat × Nat)) : Bool := decide (l.length ≤ 7)

/-- A function. -/
def okFn (n : Nat) : Bool := decide (n < 256)

/-- The operands lie in their ranges. -/
def Instr.wf (i : Instr) : Bool :=
  match i with
  | .identify x0 x1 => okCci x0 && okPayload x1
  | .regRead x0 x1 => okCci x0 && okPayload x1
  | .devEnable x0 x1 => okCci x0 && okPayload x1
  | .configRead x0 x1 => okCci x0 && okPayload x1
  | .configWrite x0 x1 => okCci x0 && okPayload x1
  | .reset x0 x1 => okCci x0 && okPayload x1
  | .decoderAlloc x0 x1 => okCci x0 && okPayload x1
  | .claimCommit x0 x1 => okCci x0 && okPayload x1
  | .claimRelease x0 x1 => okCci x0 && okPayload x1
  | .claimGrant x0 x1 => okCci x0 && okPayload x1
  | .sliceEnable x0 x1 => okCci x0 && okPayload x1
  | .sliceSet x0 x1 => okCci x0 && okPayload x1
  | .sliceReset x0 x1 => okCci x0 && okPayload x1
  | .sliceRemove x0 x1 => okCci x0 && okPayload x1
  | .doorbell x0 x1 => okCci x0 && okPayload x1
  | .plcPolicy x0 x1 => okCci x0 && okPayload x1
  | .plcClaimMode x0 x1 => okCci x0 && okPayload x1
  | .snapArm x0 x1 => okCci x0 && okPayload x1
  | .qosProfile x0 x1 => okCci x0 && okPayload x1
  | .dmcCommit x0 x1 => okCci x0 && okPayload x1
  | .channelRelease x0 x1 => okCci x0 && okPayload x1
  | .spareStart x0 x1 => okCci x0 && okPayload x1
  | .poisonList x0 x1 => okCci x0 && okPayload x1
  | .poisonClear x0 x1 => okCci x0 && okPayload x1
  | .kamconScrubRange x0 x1 => okCci x0 && okPayload x1
  | .scrubResult x0 x1 => okCci x0 && okPayload x1
  | .scrubPolicy x0 x1 => okCci x0 && okPayload x1
  | .repairList x0 x1 => okCci x0 && okPayload x1
  | .pprRun x0 x1 => okCci x0 && okPayload x1
  | .salvageRead x0 x1 => okCci x0 && okPayload x1
  | .salvageFree x0 x1 => okCci x0 && okPayload x1
  | .pairEnable x0 x1 => okCci x0 && okPayload x1
  | .pairTakeover x0 x1 => okCci x0 && okPayload x1
  | .pairGiveback x0 x1 => okCci x0 && okPayload x1
  | .pairFence x0 x1 => okCci x0 && okPayload x1
  | .pairDiscard x0 x1 => okCci x0 && okPayload x1
  | .linkCtl x0 x1 => okCci x0 && okPayload x1
  | .powerRequest x0 x1 => okCci x0 && okPayload x1
  | .wakeCfg x0 x1 => okCci x0 && okPayload x1
  | .domainRequest x0 x1 => okCci x0 && okPayload x1
  | .fwSlots x0 x1 => okCci x0 && okPayload x1
  | .svnCommit x0 x1 => okCci x0 && okPayload x1
  | .memRead x0 x1 x2 x3 _ _ => okLink x0 && okNumber x1 && okTag x2 && okHpa x3
  | .memWrite x0 x1 x2 x3 _ _ _ _ _ => okLink x0 && okNumber x1 && okTag x2 && okHpa x3
  | .memSpecRd x0 x1 x2 => okLink x0 && okNumber x1 && okHpa x2
  | .memClnEvct x0 x1 x2 x3 _ => okLink x0 && okNumber x1 && okTag x2 && okHpa x3
  | .deadlineExpiry _ => true
  | .linkUp x0 x1 x2 _ _ => okLink x0 && okRate x1 && okWidth x2
  | .linkRetrain x0 => okLink x0
  | .ideKm x0 _ _ => okLink x0
  | .ideIntegrityFailure x0 _ _ => okLink x0
  | .linkDown x0 _ => okLink x0
  | .perstAssert x0 _ _ => okPort x0
  | .perstDeassert x0 => okPort x0
  | .functionLevelReset x0 x1 => okLink x0 && okNumber x1
  | .creditOverflow x0 _ => okLink x0
  | .linkInternalParity x0 _ => okLink x0
  | .flitCrcError x0 _ => okLink x0
  | .malformedTlp x0 => okLink x0
  | .hdmDecoderCommit x0 x1 x2 x3 x4 x5 x6 _ _ => okLd x0 && okDecoder x1 && okWord x2 && okWord x3 && okWord x4 && okNibble x5 && okNibble x6
  | .fmSetLdAllocations x0 x1 x2 x3 => okCci x0 && okPort x1 && okByte x2 && okByte x3
  | .fmGetLdAllocations x0 x1 => okCci x0 && okPort x1
  | .fmLdInfo x0 => okCci x0
  | .fmMultiHeadedInfo x0 => okCci x0
  | .fmHeadInfo x0 x1 => okCci x0 && okLink x1
  | .fmDcdManagement x0 _ => okCci x0
  | .mapClaimCommit _ x1 => okWord x1
  | .mapClaimRelease _ x1 => okWord x1
  | .claimReleaseEnd x0 => okClaim x0
  | .mapClaimgrantWrite _ _ x2 => okWord x2
  | .physicalRoomWaitEnd => true
  | .mapWalk x0 _ => okPage x0
  | .auditSweep _ _ => true
  | .cirrusWriteback x0 x1 _ => okDpaLine x0 && okFinds x1
  | .writebackBufferFree => true
  | .cirFlushStart x0 => okWord x0
  | .flushEnd x0 => okFinds x0
  | .cirSweepStart => true
  | .excursionSweepEnd _ => true
  | .epochBoundary => true
  | .coldScan => true
  | .selectionComplete => true
  | .selectionWindowExpiry => true
  | .moveStart _ => true
  | .copyPassEnd x0 x1 _ => okPage x0 && okFinds x1
  | .switchEnd x0 x1 _ => okPage x0 && okFinds x1
  | .switchCancel x0 => okPage x0
  | .incompressibleFilterExpiry => true
  | .plcApply => true
  | .nimbusDecode _ x1 x2 => okFinds x1 && okFault x2
  | .decodeRetry _ x1 x2 => okFinds x1 && okFault x2
  | .nmbPipeFail _ x1 _ => okPipe x1
  | .heapDirectoryRebuild x0 _ => okSegment x0
  | .snpArmArm _ x1 => okWord x1
  | .armingComplete x0 => okSlot x0
  | .eagerCursorRead x0 x1 => okSlot x0 && okFinds x1
  | .captureTrackerFree => true
  | .captureEnd x0 x1 x2 => okSlot x0 && okPage x1 && okFinds x2
  | .captureTime x0 x1 => okSlot x0 && okPage x1
  | .exportDmaComplete x0 => okSlot x0
  | .exportDmaError x0 => okSlot x0
  | .exportLinkTimeout x0 => okSlot x0
  | .abortMarksCleared x0 => okSlot x0
  | .snapMarkClearEnd x0 => okClaim x0
  | .importRecord x0 x1 _ => okQueue x0 && okIndex x1
  | .channelCommit => true
  | .channelUncommit => true
  | .backgroundInitialization => true
  | .dramDataReturn _ x1 => okMediaFind x1
  | .panicWaitExpiry x0 _ => okChannel x0
  | .panicEnd x0 => okChannel x0
  | .refresh x0 => okChannel x0
  | .dimmTemperatureRead x0 x1 x2 => okChannel x0 && okByte x1 && okByte x2
  | .powerDownEntry x0 x1 => okChannel x0 && okRank x1
  | .dramPllLock x0 => okDramPll x0
  | .trainingStepEnd x0 _ => okChannel x0
  | .caParityError x0 _ => okChannel x0
  | .dmcFrzctlRelease x0 => okChannel x0
  | .channelReleaseEnd x0 x1 => okChannel x0 && okFinds x1
  | .dmcSparectlStart x0 x1 => okChannel x0 && okWord x1
  | .sparingCopy x0 x1 => okChannel x0 && okEcc x1
  | .medScrubctlStart x0 => okWord x0
  | .medScrubctlStop => true
  | .scrubRead x0 x1 _ => okContext x0 && okFinds x1
  | .scrubPolicyPass => true
  | .hpprRowEnd x0 _ => okChannel x0
  | .medPprctlStart x0 => okWord x0
  | .pprEnd _ _ _ => true
  | .secVeilcfgRotate x0 => okWord x0
  | .veilSweepPage => true
  | .rotationEnd x0 => okFinds x0
  | .rewriteTrackerItem x0 x1 x2 => okPage x0 && okItem x1 && okMediaFind x2
  | .counterFetch x0 _ _ _ => okPage x0
  | .secRegionctlEnable x0 => okWord x0
  | .rekeySweepPage x0 => okKeyId x0
  | .keyidRetirement x0 x1 => okKeyId x0 && okFinds x1
  | .breachRecoveryEnd x0 x1 => okKeyId x0 && okRecord x1
  | .secRngFail => true
  | .secPipePar x0 _ => okDpaLine x0
  | .birsp x0 x1 x2 _ => okLink x0 && okNumber x1 && okDpaLine x2
  | .biconflict x0 x1 x2 => okLink x0 && okNumber x1 && okDpaLine x2
  | .tBiExpiry x0 => okDpaLine x0
  | .grantHoldEnd x0 => okDpaLine x0
  | .revocationSweepEnd x0 => okClaim x0
  | .backgroundEviction x0 => okHaloSet x0
  | .halFence x0 => okByte x0
  | .halUnfence x0 => okByte x0
  | .fenceSweepEnd x0 => okLink x0
  | .halPeakClear => true
  | .slcEnable _ => true
  | .slcRemove _ => true
  | .sliceRemoveEnd x0 => okSlice x0
  | .slcReset _ => true
  | .sliceResetEnd x0 => okSlice x0
  | .dbAssign _ x1 => okWord x1
  | .dbFree _ x1 => okWord x1
  | .queCtlEnable _ _ _ => true
  | .queCtlDisable _ => true
  | .queueDisabled x0 => okQueue x0
  | .queCtlResize _ _ _ => true
  | .resizeSwitch x0 => okQueue x0
  | .sqTail x0 x1 x2 x3 => okLink x0 && okQueue x1 && okWord x2 && okHead32 x3
  | .cqHead x0 x1 x2 => okLink x0 && okQueue x1 && okWord x2
  | .descriptorFetch x0 x1 => okQueue x0 && okDescriptor x1
  | .descriptorCompletion x0 => okQueue x0
  | .nop x0 x1 => okQueue x0 && okIndex x1
  | .copy x0 x1 x2 => okQueue x0 && okIndex x1 && okFinds x2
  | .fill x0 x1 => okQueue x0 && okIndex x1
  | .zero x0 x1 => okQueue x0 && okIndex x1
  | .compare x0 x1 x2 => okQueue x0 && okIndex x1 && okFinds x2
  | .demoteRange x0 x1 => okQueue x0 && okIndex x1
  | .promoteRange x0 x1 => okQueue x0 && okIndex x1
  | .hintHot x0 x1 => okQueue x0 && okIndex x1
  | .hintCold x0 x1 => okQueue x0 && okIndex x1
  | .pin x0 x1 x2 => okQueue x0 && okIndex x1 && okFinds x2
  | .unpin x0 x1 => okQueue x0 && okIndex x1
  | .flush x0 x1 x2 => okQueue x0 && okIndex x1 && okFinds x2
  | .scrubRange x0 x1 => okQueue x0 && okIndex x1
  | .snapCut x0 x1 => okQueue x0 && okIndex x1
  | .snapExport x0 x1 => okQueue x0 && okIndex x1
  | .snapRelease x0 x1 => okQueue x0 && okIndex x1
  | .importStream x0 x1 x2 => okQueue x0 && okIndex x1 && okStreamHeader x2
  | .fence x0 x1 => okQueue x0 && okIndex x1
  | .tokenWindow => true
  | .priorityRecompute => true
  | .qosProfileEnable => true
  | .conCtlLinken => true
  | .conCtlLinkenOff => true
  | .conCtlRetrain => true
  | .conCtlDown => true
  | .conCtlReadd x0 => okBundles x0
  | .bundleReaddEnd x0 => okBundle x0
  | .trainingRetry => true
  | .contrailTrainingStep _ => true
  | .codeword x0 x1 => okBundle x0 && okCodeword x1
  | .mw x0 x1 x2 => okHead x0 && okHalf x1 && okMirrorLines x2
  | .rsw x0 x1 => okHead x0 && okMirrorLines x1
  | .stream x0 x1 x2 _ => okHead x0 && okSlot x1 && okHalf x2
  | .keyx x0 _ _ => okHead x0
  | .ack x0 => okHead x0
  | .hb x0 x1 x2 x3 => okHead x0 && okWord x1 && okWord x2 && okWord x3
  | .lane x0 x1 x2 _ => okHead x0 && okBundle x1 && okLane x2
  | .mirack x0 x1 => okHead x0 && okHalf x1
  | .params x0 _ => okHead x0
  | .claimdef x0 x1 x2 x3 x4 => okHead x0 && okClaim x1 && okWord x2 && okWord x3 && okWord x4
  | .claimrel x0 x1 => okHead x0 && okClaim x1
  | .result x0 x1 x2 => okHead x0 && okOp x1 && okByte x2
  | .stripeDone x0 x1 => okHead x0 && okStripe x1
  | .stripeAck x0 x1 => okHead x0 && okStripe x1
  | .unback x0 x1 x2 => okHead x0 && okPage x1 && okHalf x2
  | .fetch x0 x1 => okHead x0 && okDpaLine x1
  | .pstat x0 x1 x2 x3 => okHead x0 && okWord x1 && okHalf x2 && okWord x3
  | .giveback x0 x1 => okHead x0 && okWord x1
  | .slicemap x0 x1 _ x3 => okHead x0 && okPiece x1 && okSliceMap x3
  | .rxopen x0 x1 x2 x3 x4 x5 x6 => okHead x0 && okOp x1 && okSlot x2 && okSlice x3 && okWord x4 && okClaim x5 && okWord x6
  | .rxresult x0 x1 x2 x3 => okHead x0 && okOp x1 && okSlot x2 && okByte x3
  | .rxopenTimeout x0 => okSlot x0
  | .rxclose x0 x1 x2 x3 => okHead x0 && okOp x1 && okSlot x2 && okByte x3
  | .sealen x0 x1 x2 => okHead x0 && okOp x1 && okClaim x2
  | .sealres x0 x1 x2 => okHead x0 && okOp x1 && okByte x2
  | .refetch x0 x1 x2 x3 x4 => okHead x0 && okOp x1 && okClaim x2 && okByte x3 && okHalf x4
  | .refdone x0 x1 x2 => okHead x0 && okOp x1 && okDpaLine x2
  | .xkey x0 x1 x2 x3 => okHead x0 && okHalf x1 && okSlot x2 && okKey x3
  | .xkeyack x0 x1 x2 => okHead x0 && okHalf x1 && okByte x2
  | .keyrenew x0 x1 x2 => okHead x0 && okBit x1 && okBit x2
  | .keyrenewack x0 x1 x2 => okHead x0 && okBit x1 && okBit x2
  | .reservedCtrlMsg x0 x1 => okHead x0 && okHalf x1
  | .replayTimeout => true
  | .retrainTimeout => true
  | .keyingTimeout => true
  | .ackTimer => true
  | .mwPacketClose => true
  | .hbSend => true
  | .conHbLost => true
  | .laneSwapRequest x0 x1 _ => okBundle x0 && okLane x1
  | .laneLockLoss x0 x1 _ => okBundle x0 && okLane x1
  | .swapRequestRepeat x0 => okBundle x0
  | .bundleDropRequest x0 => okBundle x0
  | .parCtlEnable => true
  | .parCtlLeave => true
  | .paramsTimeout => true
  | .parCtlTakeover _ => true
  | .parCtlGiveback => true
  | .parCtlFence => true
  | .parCtlDiscard => true
  | .discardEnd => true
  | .ptimeoutExpiry => true
  | .mirackStallTimeout => true
  | .resyncStripe x0 => okFinds x0
  | .pstatSend => true
  | .engineDpaAccess x0 x1 _ x3 => okCore x0 && okDpaLine x1 && okFinds x3
  | .stage1Walk x0 x1 x2 _ _ _ x6 => okCore x0 && okWork x1 && okWord x2 && okFinds x6
  | .spdmMsg x0 x1 x2 => okCore x0 && okWork x1 && okHalf x2
  | .veilRotateCall x0 x1 => okCore x0 && okWork x1
  | .fwCheck x0 x1 _ x3 => okCore x0 && okWork x1 && okByte x3
  | .svnCommitCall x0 x1 x2 => okCore x0 && okWork x1 && okByte x2
  | .coreRestart x0 x1 x2 => okCore x0 && okWork x1 && okByte x2
  | .worldReturn x0 => okCore x0
  | .asyncEntry x0 x1 _ => okCore x0 && okWork x1
  | .mupGo x0 x1 => okCore x0 && okWork x1
  | .coreInval x0 x1 x2 => okCore x0 && okWork x1 && okWord x2
  | .engTlbinv x0 => okCores x0
  | .tlbInvalidationEnd x0 => okCore x0
  | .engWdogPet => true
  | .engZwdog => true
  | .engLockstep => true
  | .engHoldWrite x0 => okWord x0
  | .engMemUe x0 => okCore x0
  | .powerGood x0 _ => okStraps x0
  | .powerGoodLoss x0 _ => okRail x0
  | .refclkLoss => true
  | .pllUnlock _ _ _ => true
  | .rootPllLock => true
  | .selfTestEnd _ => true
  | .zenithVerifyEnd _ _ => true
  | .horizonVerifyEnd _ _ _ => true
  | .devEnableCheck => true
  | .devDisable => true
  | .rstCtlCold => true
  | .rstCtlWarm => true
  | .warmResetStep x0 _ => okFinds x0
  | .rstCtlGo _ => true
  | .blockResetEnd _ x1 _ => okByte x1
  | .thermtrip => true
  | .cciIdentify x0 => okCci x0
  | .backgroundOperationStatus x0 => okCci x0
  | .getResponseMessageLimit x0 => okCci x0
  | .setResponseMessageLimit x0 x1 => okCci x0 && okByte x1
  | .requestAbortBackgroundOperation x0 => okCci x0
  | .getEventRecords x0 x1 => okCci x0 && okByte x1
  | .clearEventRecords x0 x1 _ x3 => okCci x0 && okByte x1 && okHandles x3
  | .getEventInterruptPolicy x0 => okCci x0
  | .setEventInterruptPolicy x0 x1 => okCci x0 && okPolicy x1
  | .getFwInfo x0 => okCci x0
  | .transferFw x0 x1 x2 _ => okCci x0 && okByte x1 && okByte x2
  | .activateFw x0 x1 x2 => okCci x0 && okByte x1 && okByte x2
  | .getTimestamp x0 => okCci x0
  | .setTimestamp x0 x1 => okCci x0 && okWord x1
  | .getSupportedLogs x0 => okCci x0
  | .getLog x0 _ => okCci x0
  | .identifyMemoryDevice x0 => okCci x0
  | .getHealthInfo x0 => okCci x0
  | .getAlertConfiguration x0 => okCci x0
  | .setAlertConfiguration x0 _ _ _ _ => okCci x0
  | .getPoisonList x0 x1 x2 => okCci x0 && okDpa x1 && okDpaLine x2
  | .injectPoison x0 x1 _ => okCci x0 && okDpa x1
  | .clearPoison x0 x1 _ _ => okCci x0 && okDpa x1
  | .getScanMediaCapabilities x0 x1 x2 => okCci x0 && okDpa x1 && okDpaLine x2
  | .scanMedia x0 x1 x2 => okCci x0 && okDpa x1 && okDpaLine x2
  | .getScanMediaResults x0 => okCci x0
  | .sanitize x0 => okCci x0
  | .secureErase x0 => okCci x0
  | .getDynamicCapacityConfiguration x0 => okCci x0
  | .getDcExtentList x0 => okCci x0
  | .addDcResponse x0 _ => okCci x0
  | .releaseDynamicCapacity x0 _ => okCci x0
  | .unsupportedCommand x0 => okCci x0
  | .commandTimeout x0 => okCci x0
  | .backgroundOperationEnd x0 _ => okCci x0
  | .bindSlice x0 x1 => okRequester x0 && okPayload x1
  | .getBinding x0 x1 => okRequester x0 && okPayload x1
  | .sealEnable x0 x1 => okRequester x0 && okPayload x1
  | .sealRecovery x0 x1 => okRequester x0 && okPayload x1
  | .breachList x0 x1 => okRequester x0 && okPayload x1
  | .zrSalvageRead x0 x1 => okRequester x0 && okPayload x1
  | .exportKeyCreate x0 x1 => okRequester x0 && okPayload x1
  | .exportKeyGet x0 x1 => okRequester x0 && okPayload x1
  | .exportKeyLoad x0 x1 => okRequester x0 && okPayload x1
  | .exportKeyDrop x0 x1 => okRequester x0 && okPayload x1
  | .zrVeilRotate x0 x1 => okRequester x0 && okPayload x1
  | .hazeEntry => true
  | .hazeExit _ => true
  | .overcastEntry => true
  | .overcastWake _ => true
  | .pwrCtlNight => true
  | .pwrCtlClear => true
  | .nightEntry => true
  | .nightEntryStep x0 => okFinds x0
  | .nightWake _ => true
  | .nightExitStep _ => true
  | .domainWake x0 => okDomain x0
  | .domainWakeEnd x0 _ => okDomain x0
  | .pwrDomctlGo _ => true
  | .domainGateEffect x0 => okDomain x0
  | .supplyWarning x0 => okRail x0
  | .guardLift => true
  | .fltStickyClear x0 x1 => okStickyWord x0 && okWord x1
  | .chiprst => true
  | .fltFifoRead _ => true
  | .hbeatToggle => true
  | .eventRecord _ => true
  | .telCtlStart => true
  | .sweepPeriod => true
  | .sweepEnd _ x1 => okBanks x1
  | .telCtlClrall => true
  | .telCntvalWrite _ x1 => okWord x1
  | .telSmprdWrite x0 => okWord x0
  | .junctionSensorRead x0 => okReadings x0
  | .thermSensor x0 => okSensor x0
  | .throttleRelease => true
  | .railSample x0 => okSamples x0
  | .eyeEstimate _ x1 x2 x3 x4 _ => okByte x1 && okLane x2 && okHalf x3 && okHalf x4
  | .registerWrite _ x1 x2 x3 x4 _ _ => okFn x1 && okHalf x2 && okHalf x3 && okWord x4
  | .jtagInstruction _ => true
  | .linkLowPowerEntry x0 _ => okLink x0
  | .serdesPllLock _ x1 => okByte x1
  | .hostReceiverCalibration => true
  | .doeRequest x0 x1 _ => okLink x0 && okNumber x1
  | .keyRenewal => true
  | .queParity x0 => okQueue x0
  | .cmplDma x0 => okQueue x0
  | .fltSrccfgWrite _ x1 => okWord x1
  | .fltIntcfgWrite x0 => okWord x0
  | .occupancySample => true

end Sys2Proof
end

