-- ==== Sys2Proof/Tests/Slice0.lean ====
section
/-! SUPPORT. Tests: a term that each check of WellFormed refuses, the worked examples of the spec, and for every statement with hypotheses a
state and operands that meet them. -/

open Sys2Proof Sys2Proof.Machine

namespace Sys2Proof.Tests

set_option maxRecDepth 4000
set_option Elab.async false
set_option linter.unusedVariables false

/-! ### States for the tests -/

/-- The head of a firmware image of a type without a body. -/
def imageHead (type : Nat) : List Byte :=
  [0x1E, 0x0F, 0x60, 0x71, BitVec.ofNat 8 type] ++ List.replicate 59 0
/-- An image that verifies: its digest is right, its key and signature are zeros. -/
def goodImage (type : Nat) : Image :=
  ⟨imageHead type ++ sha384 (imageHead type) ++ List.replicate 272 0, [], true, true⟩
def badImage : Image := ⟨[], [], false, false⟩
/-- A device with one DIMM of 128 GiB in each of channels 0 and 1, trained, committed and not yet enabled. -/
def trained : State :=
  ((((((((State.reset.setChan 0 { dimms := [⟨some 4, 1⟩] }).setChan 1 { dimms := [⟨some 4, 2⟩] }).putAt DMC_CHSTAT.POP 0
    true).putAt DMC_CHSTAT.POP 1 true).put DMC_COMMIT.COMMIT true).put CLK_STAT.ROOT true).wr CLK_STAT.DRAM 255).put ENG_STAT.HORIZON_UP true).wr MAP_DPACAP.CAP 4
/-- The same device, enabled. -/
def enabled : State := trained.createLds.askDevEnable
/-- With claim 0 of 256 MiB committed for slice 0 and granted to LD 0 of link 0. -/
def claimed : State :=
  ((((enabled.wrAt MAP_CLAIMSIZE.SIZE 0 1).wrAt MAP_CLAIMATTR.FLOOR 0 8).putAt MAP_CLAIMATTR.TYPE 0 true).wrAt MAP_CLAIMGRANT0.GRANTS 0
    2).askCommit 0 false
/-- The leaf that a walk of VA 0x5008 finds in the tables of `walking`. -/
def walkLeaf : Nat := 1 + 9 * 4096 + 3 * 2 ^ 56
/-- Core 0 runs, its window 0 maps 16 MiB of engine SRAM, and its tables there map page 5 to page 9. -/
def walking : State :=
  { ((((State.reset.wr ENG_STAT.CORES 1).wr ENG_S2SIZE.PAGES 4096).wr ENG_S2MAP.EPA 0x10200).put ENG_S2MAP.EN true).put ENG_S2MAP.R
      true with
    eng := { sram := [(0x2040000, 0x2001), (0x2040400, 0x4001), (0x2040805, walkLeaf)] } }
/-- A back-invalidate of line 5 that waits for LD 0 of link 1. -/
def sampleBi : BackInv := { line := 5, inv := true, why := .background, reqLink := 0, start := 0, waits := [(1, 0)] }
/-- A read of line 5 by LD 0 of link 1, past its home. -/
def sampleReq : OpenReq :=
  { id := 0, link := 1, ld := 0, tag := 0, op := .rdS, dpaLine := 5, claim := 0, data := 0, mask := 0, poison := false, hdmDb := true
    ts := 0, answered := false, applied := false, stage := .halo, granted := 0, homed := true, urgency := 0, missed := false
    biWait := false, stalled := false, sampled := false }
/-- Contrail is up with its three bundles. -/
def linkOn : State :=
  { (((State.reset.wr CON_STAT.STATE conUp).wr CON_STAT.BUNDLES 7).wr CON_STAT.TXSPARE 0xFFF).wr CON_STAT.RXSPARE 0xFFF with
    con := { State.reset.con with rxMap := 7 } }
/-- The same, with receive slot 0 waiting for a stream. -/
def receiving : State := (linkOn.wrAt SNP_STATUS.STATE 0 slotDraining).setSlot 0 { receive := true }
/-- A directory set whose way 0 is used, where all 16 ways are to be free. -/
def usedSet : State :=
  { claimed.wr HAL_TIMING.FREEWAYS 4 with
    hal := { State.reset.hal with
      dir := (List.range 13).map fun k => (k, { line := 256 * k, exclusive := false, holders := [0] }) } }
/-- The link is up, and claim 0 is sealed and not yet enabled. -/
def sealable : State := ((claimed.putAt MAP_CLAIMATTR.SEALED 0 true).putAt DMC_CHCFG.MODE 0 true).wr CON_STAT.STATE conUp
/-- The link is up between enabled members, and the partner's parameters have arrived. -/
def pairable : State :=
  let s := linkOn.put SYS_CTL.DEV_ENABLE true
  { s with pair := { s.pair with peer := some s.ownParams, mapsSeen := List.range 8 } }
/-- A journal entry. -/
def sampleEntry : JournalEntry := ⟨0, 5, false, 0, none⟩
/-- A descriptor of queue 0 at index 0, of slice 0, over the first bytes of claim 0. -/
def descOf (op len : Nat) : Desc :=
  { queue := 0, index := 0, seq := 0, slice := 0, gen := 0, sqHead := 1, op := op, flags := 0, cid := 0, addr0 := 0
    addr1 := if op = 1 ∨ op = 4 then 4096 else 0, len := len, arg0 := 0, arg1 := 0, arg2 := 0, start := 0 }
/-- The descriptor runs. -/
def running (op len : Nat) : State := { claimed with que := { claimed.que with descs := [descOf op len] } }
/-- Queue 0 of slice 7 is enabled and its SQ has an entry. -/
def fetching : State :=
  let s := ((((enabled.putAt SLC_CTL.ENABLE 7 true).putAt SLC_DBOWN.OWNED 0 true).wrAt SLC_DBOWN.OWNER 0 7).wrAt QUE_CFG.DEPTHLOG 0
    4).wrAt QUE_STAT.STATE 0 1
  { s with que := { s.que with sqTail := [(0, 1)] } }
/-- A heap segment of channel 0 with 64 granules in use. -/
def sampleSeg : Segment := { channel := 0, region := 0, fill := 64, live := 64, state := .moves }
/-- Page 0 is a raw run of 64 granules of segment 0, and job 0 decodes its block 0. -/
def decoding : State :=
  let s := claimed.replaceEntry 0 { (claimed.entry 0) with state := .nimbus, claim := 0, loc := .run 0 16 16 16 16 }
  { s with nmb := { s.nmb with jobs := [(0, ⟨0, 0, none, none⟩)], segments := [(0, sampleSeg)] } }
/-- Page 0 is chosen for a promotion. -/
def choosing : State := { decoding with plc := { decoding.plc with chosen := [{ dpn := 0, kind := .promote, epoch := 0 }] } }
/-- A promotion of page 0. -/
def sampleMove : Move := { dpn := 0, kind := .promote, epoch := 0, explicit := none, src := .run 0 16 16 16 16, dest := .frame 5 }
/-- Slot 0 can be armed for claim 0, for a stream to the host. -/
def armable : State := (claimed.putAt MAP_CLAIMATTR.SNAPSHOT_ALLOWED 0 true).wrAt SNP_RESERVE.SIZE 0 128
/-- The device of `trained` before its channels are committed: both in SPARE mode with two ranks. -/
def committable : State :=
  ((((trained.put DMC_COMMIT.COMMIT false).wrAt DMC_CHSTAT.RANKS 0 2).wrAt DMC_CHSTAT.RANKS 1 2).putAt DMC_CHSTAT.TRAINED 0 true).putAt
    DMC_CHSTAT.TRAINED 1 true |>.setChan 0 { dimms := [⟨some 4, 1⟩], trainedSpeed := 8800 } |>.setChan 1 { dimms := [⟨some 4, 2⟩], trainedSpeed := 8800 }
def sampleSalvage : Salvage :=
  { data := 0, mask := 0, ts := 0, dpaLine := 5, claim := 0, slice := 0, cause := 0, sealed := false, keyid := 0 }
/-- The link is up, and no parameters of the partner have arrived. -/
def joinable : State := ((linkOn.put SYS_CTL.DEV_ENABLE true).put ENG_STAT.HORIZON_UP true)
/-- The device may enter NIGHT. -/
def nightable : State := trained.put SYS_CTL.DEV_ENABLE true
/-- Zenith is up, and slice 0 is bound to the key of a session. -/
def zen : State :=
  let s := trained.put ENG_STAT.ZENITH_UP true
  { s with mbx := { s.mbx with bindings := [(0, [1])] } }
/-- The same with claim 0 sealed and not yet enabled. -/
def sealZen : State :=
  let s := sealable.put ENG_STAT.ZENITH_UP true
  { s with mbx := { s.mbx with bindings := [(0, [1])] } }
def sampleKey : ExportKey := { slot := 2, slice := 0, key := 5 }
/-- The same with a created key. -/
def keyZen : State := { sealZen with sec := { sealZen.sec with created := [(9, sampleKey)] } }
def sampleEvent : EventRec := { handle := 1, kind := .dram, ts := 0 }
/-- A whole line of page 0 waits in the writeback buffer, and the page lies in frame 5. -/
def sampleBack : Writeback := ⟨3, 7, ByteMask.full, false, false, false⟩
def buffered : State :=
  let s := claimed.replaceEntry 0 { (claimed.entry 0) with state := .stratus, claim := 0, loc := .frame 5 }
  { s with cir := { s.cir with buffer := [sampleBack] } }
/-- A read of line 5 waits for the data of its channel. -/
def returning : State := { buffered with reqs := [{ sampleReq with stage := .dram }] }
/-- The same between mirrored partners, with the link up. -/
def mirrored : State :=
  (((((armable.wr PAR_STAT.STATE pairMirrored).wr CON_STAT.STATE conUp).wr CON_STAT.BUNDLES 7).wr CON_STAT.TXSPARE 0xFFF).wr CON_STAT.RXSPARE
    0xFFF)
/-- The placement engine runs its program. -/
def settled : State := { enabled with plc := { enabled.plc with drift := true } }
/-- Slot 0 preserves claim 0 into its shadow. -/
def cursing : State := (State.reset.wrAt SNP_STATUS.STATE 0 slotPreserving).wrAt SNP_ARM.TARGET 0 targetShadow
def samplePage : PageCopy := {}
def sampleBuf : ExportBuffer := { queue := 0, index := 0, addr := 0, len := 4096, mask := 1 }
/-- Slot 0 streams to a buffer of the host. -/
def exporting : State :=
  ((State.reset.wrAt SNP_STATUS.STATE 0 slotPreserving).wrAt SNP_ARM.TARGET 0 targetHost).setSlot 0
    { stream := [7], buffers := [sampleBuf] }
def sampleJob : ImportJob :=
  { queue := 0, index := 0, claim := 0, offset := 0, src := none, len := 0, pages := 0, sealedStream := false, keyRef := 0
    streamId := 0, crc := 0, bytes := 64 }
/-- Claim 0 can be committed. -/
def claimable : State := enabled.wrAt MAP_CLAIMSIZE.SIZE 0 1
def sampleScrub : Scrub :=
  { owner := .registers, logical := false, verify := false, channel := 0, start := 0, stop := 1, cursor := 0, startTs := 0 }
def sampleRow : RepairRow := ⟨2, 0, 0, 0, 0, 5, 9⟩
/-- Channel 0 is frozen for an uncorrectable error, with its contents kept. -/
def repairable : State :=
  ((claimed.putAt DMC_CHSTAT.FROZEN 0 true).putAt DMC_CHSTAT.KEPT 0 true).wrAt DMC_CHSTAT.FRZCAUSE 0 causeUE
def sampleTracker : RewriteTracker :=
  { dpn := 0, why := .rotation, oldGen := 0, oldKey := 0, oldLeaf := {}, newGen := 1, newKey := 0 }
/-- Page 0 is under key 3 of the sealed claim 0. -/
def underKey : State :=
  let s := ((sealable.setKey 3 keyActive 0).putAt SEC_KEYSTAT.REKEY 3 true).setKey 4 keyActive 0
  let e : MapEntry := { s.entry 0 with state := .nimbus, claim := 0, keyid := 3, sealed := true, loc := .run 0 16 16 16 16 }
  { s.replaceEntry 0 e with nmb := { s.nmb with segments := [(0, sampleSeg)] } }
/-- Its pages are rewritten under key 4. -/
def rekeying : State := { underKey with sec := { underKey.sec with rekeyTo := [(3, 4)] } }

/-! ### WellFormed refuses what is out of range -/

theorem test_refuses_cci : ∀ a1, (Instr.identify 300 a1).wf = false := by
  simp [Instr.wf, okCci]
theorem test_refuses_payload : ∀ a0, (Instr.identify a0 (List.replicate 4097 0)).wf = false := by
  intro a0
  simp only [Instr.wf, okPayload, List.length_replicate]
  cases okCci a0 <;> decide
theorem test_refuses_link : ∀ a1 a2 a3 a4 a5, (Instr.memRead 8 a1 a2 a3 a4 a5).wf = false := by
  simp [Instr.wf, okLink]
theorem test_refuses_number : ∀ a0 a2 a3 a4 a5, (Instr.memRead a0 16 a2 a3 a4 a5).wf = false := by
  simp [Instr.wf, okNumber]
theorem test_refuses_tag : ∀ a0 a1 a3 a4 a5, (Instr.memRead a0 a1 65536 a3 a4 a5).wf = false := by
  simp [Instr.wf, okTag]
theorem test_refuses_hpa : ∀ a0 a1 a2 a4 a5, (Instr.memRead a0 a1 a2 32 a4 a5).wf = false := by
  simp [Instr.wf, okHpa]
theorem test_refuses_rate : ∀ a0 a2 a3 a4, (Instr.linkUp a0 4 a2 a3 a4).wf = false := by
  simp [Instr.wf, okRate]
theorem test_refuses_width : ∀ a0 a1 a3 a4, (Instr.linkUp a0 a1 8 a3 a4).wf = false := by
  simp [Instr.wf, okWidth]
theorem test_refuses_port : ∀ a1 a2, (Instr.perstAssert 4 a1 a2).wf = false := by
  simp [Instr.wf, okPort]
theorem test_refuses_ld : ∀ a1 a2 a3 a4 a5 a6 a7 a8, (Instr.hdmDecoderCommit 64 a1 a2 a3 a4 a5 a6 a7 a8).wf = false := by
  simp [Instr.wf, okLd]
theorem test_refuses_decoder : ∀ a0 a2 a3 a4 a5 a6 a7 a8, (Instr.hdmDecoderCommit a0 32 a2 a3 a4 a5 a6 a7 a8).wf = false := by
  simp [Instr.wf, okDecoder]
theorem test_refuses_word : ∀ a0 a1 a3 a4 a5 a6 a7 a8, (Instr.hdmDecoderCommit a0 a1 (2 ^ 64) a3 a4 a5 a6 a7 a8).wf = false := by
  simp [Instr.wf, okWord]
theorem test_refuses_nibble : ∀ a0 a1 a2 a3 a4 a6 a7 a8, (Instr.hdmDecoderCommit a0 a1 a2 a3 a4 16 a6 a7 a8).wf = false := by
  simp [Instr.wf, okNibble]
theorem test_refuses_byte : ∀ a0 a1 a3, (Instr.fmSetLdAllocations a0 a1 256 a3).wf = false := by
  simp [Instr.wf, okByte]
theorem test_refuses_claim : (Instr.claimReleaseEnd 8192).wf = false := by
  simp [Instr.wf, okClaim]
theorem test_refuses_page : ∀ a1, (Instr.mapWalk (2 ^ 40) a1).wf = false := by
  simp [Instr.wf, okPage]
theorem test_refuses_dpaLine : ∀ a1 a2, (Instr.cirrusWriteback (2 ^ 46) a1 a2).wf = false := by
  simp [Instr.wf, okDpaLine]
theorem test_refuses_ecc : ∀ a0, (Instr.sparingCopy a0 (Ecc.corrected 10)).wf = false := by
  simp [Instr.wf, okEcc]
theorem test_refuses_mediaFind : ∀ a0, (Instr.dramDataReturn a0 { ecc := .corrected 10 }).wf = false := by
  simp [Instr.wf, okMediaFind, okEcc]
theorem test_refuses_finds : ∀ a0 a2, (Instr.cirrusWriteback a0 [(2 ^ 38, {})] a2).wf = false := by
  simp [Instr.wf, okFinds]
theorem test_refuses_fault : ∀ a0 a1, (Instr.nimbusDecode a0 a1 (some 8)).wf = false := by
  simp [Instr.wf, okFault]
theorem test_refuses_pipe : ∀ a0 a2, (Instr.nmbPipeFail a0 12 a2).wf = false := by
  simp [Instr.wf, okPipe]
theorem test_refuses_segment : ∀ a1, (Instr.heapDirectoryRebuild (2 ^ 23) a1).wf = false := by
  simp [Instr.wf, okSegment]
theorem test_refuses_slot : (Instr.armingComplete 256).wf = false := by
  simp [Instr.wf, okSlot]
theorem test_refuses_queue : ∀ a1 a2, (Instr.importRecord 65536 a1 a2).wf = false := by
  simp [Instr.wf, okQueue]
theorem test_refuses_index : ∀ a0 a2, (Instr.importRecord a0 65536 a2).wf = false := by
  simp [Instr.wf, okIndex]
theorem test_refuses_channel : ∀ a1, (Instr.panicWaitExpiry 16 a1).wf = false := by
  simp [Instr.wf, okChannel]
theorem test_refuses_rank : ∀ a0, (Instr.powerDownEntry a0 4).wf = false := by
  simp [Instr.wf, okRank]
theorem test_refuses_dramPll : (Instr.dramPllLock 16).wf = false := by
  simp [Instr.wf, okDramPll]
theorem test_refuses_context : ∀ a1 a2, (Instr.scrubRead 8 a1 a2).wf = false := by
  simp [Instr.wf, okContext]
theorem test_refuses_item : ∀ a0 a2, (Instr.rewriteTrackerItem a0 128 a2).wf = false := by
  simp [Instr.wf, okItem]
theorem test_refuses_keyId : (Instr.rekeySweepPage 1024).wf = false := by
  simp [Instr.wf, okKeyId]
theorem test_refuses_record : ∀ a0, (Instr.breachRecoveryEnd a0 (some 64)).wf = false := by
  simp [Instr.wf, okRecord]
theorem test_refuses_haloSet : (Instr.backgroundEviction 262144).wf = false := by
  simp [Instr.wf, okHaloSet]
theorem test_refuses_slice : (Instr.sliceRemoveEnd 4096).wf = false := by
  simp [Instr.wf, okSlice]
theorem test_refuses_half : ∀ a0 a2, (Instr.mw a0 (2 ^ 32) a2).wf = false := by
  simp [Instr.wf, okHalf]
theorem test_refuses_head32 : ∀ a0 a1 a2, (Instr.sqTail a0 a1 a2 (some (2 ^ 32))).wf = false := by
  simp [Instr.wf, okHead32, okHalf]
theorem test_refuses_descriptor : ∀ a0, (Instr.descriptorFetch a0 (some [0])).wf = false := by
  simp [Instr.wf, okDescriptor]
theorem test_refuses_streamHeader : ∀ a0 a1, (Instr.importStream a0 a1 []).wf = false := by
  simp [Instr.wf, okStreamHeader]
theorem test_refuses_bundles : (Instr.conCtlReadd 8).wf = false := by
  simp [Instr.wf, okBundles]
theorem test_refuses_bundle : (Instr.bundleReaddEnd 3).wf = false := by
  simp [Instr.wf, okBundle]
theorem test_refuses_codeword : ∀ a0, (Instr.codeword a0 { bmap := 8 }).wf = false := by
  simp [Instr.wf, okCodeword]
theorem test_refuses_head : ∀ a1 a2, (Instr.mw { seq := 4096 } a1 a2).wf = false := by
  simp [Instr.wf, okHead]
theorem test_refuses_mirrorLines : ∀ a0 a1, (Instr.mw a0 a1 (List.replicate 16 ⟨0, 0, 0, false⟩)).wf = false := by
  simp [Instr.wf, okMirrorLines]
theorem test_refuses_lane : ∀ a0 a1 a3, (Instr.lane a0 a1 16 a3).wf = false := by
  simp [Instr.wf, okLane]
theorem test_refuses_op : ∀ a0 a2, (Instr.result a0 65536 a2).wf = false := by
  simp [Instr.wf, okOp]
theorem test_refuses_stripe : ∀ a0, (Instr.stripeDone a0 (2 ^ 36)).wf = false := by
  simp [Instr.wf, okStripe]
theorem test_refuses_piece : ∀ a0 a2 a3, (Instr.slicemap a0 4 a2 a3).wf = false := by
  simp [Instr.wf, okPiece]
theorem test_refuses_sliceMap : ∀ a0 a1 a2, (Instr.slicemap a0 a1 a2 [1024]).wf = false := by
  simp [Instr.wf, okSliceMap]
theorem test_refuses_key : ∀ a0 a1 a2, (Instr.xkey a0 a1 a2 (2 ^ 256)).wf = false := by
  simp [Instr.wf, okKey]
theorem test_refuses_bit : ∀ a0 a2, (Instr.keyrenew a0 2 a2).wf = false := by
  simp [Instr.wf, okBit]
theorem test_refuses_core : ∀ a1 a2 a3, (Instr.engineDpaAccess 47 a1 a2 a3).wf = false := by
  simp [Instr.wf, okCore]
theorem test_refuses_work : ∀ a0 a2 a3 a4 a5 a6, (Instr.stage1Walk a0 { stores := [(1, 0)] } a2 a3 a4 a5 a6).wf = false := by
  simp [Instr.wf, okWork]
theorem test_refuses_cores : (Instr.engTlbinv (2 ^ 47)).wf = false := by
  simp [Instr.wf, okCores]
theorem test_refuses_straps : ∀ a1, (Instr.powerGood { pairId := 2 } a1).wf = false := by
  simp [Instr.wf, okStraps]
theorem test_refuses_rail : ∀ a1, (Instr.powerGoodLoss 7 a1).wf = false := by
  simp [Instr.wf, okRail]
theorem test_refuses_handles : ∀ a0 a1 a2, (Instr.clearEventRecords a0 a1 a2 [65536]).wf = false := by
  simp [Instr.wf, okHandles]
theorem test_refuses_policy : ∀ a0, (Instr.setEventInterruptPolicy a0 [256]).wf = false := by
  simp [Instr.wf, okPolicy]
theorem test_refuses_dpa : ∀ a0 a2, (Instr.getPoisonList a0 (2 ^ 52) a2).wf = false := by
  simp [Instr.wf, okDpa]
theorem test_refuses_requester : ∀ a1, (Instr.bindSlice ⟨none, 256, 0⟩ a1).wf = false := by
  simp [Instr.wf, okRequester]
theorem test_refuses_domain : (Instr.domainWake 33).wf = false := by
  simp [Instr.wf, okDomain]
theorem test_refuses_stickyWord : ∀ a1, (Instr.fltStickyClear 2 a1).wf = false := by
  simp [Instr.wf, okStickyWord]
theorem test_refuses_banks : ∀ a0, (Instr.sweepEnd a0 [40]).wf = false := by
  simp [Instr.wf, okBanks]
theorem test_refuses_readings : (Instr.junctionSensorRead (List.replicate 21 none)).wf = false := by
  simp [Instr.wf, okReadings]
theorem test_refuses_sensor : (Instr.thermSensor 20).wf = false := by
  simp [Instr.wf, okSensor]
theorem test_refuses_samples : (Instr.railSample (List.replicate 8 (0, 0))).wf = false := by
  simp [Instr.wf, okSamples]
theorem test_refuses_fn : ∀ a0 a2 a3 a4 a5 a6, (Instr.registerWrite a0 256 a2 a3 a4 a5 a6).wf = false := by
  simp [Instr.wf, okFn]

/-! ### Worked examples of the spec -/

/-- R90: DPA 0x0002_0000_8040 lies in set 37,377, bank 1, with tag 0x1000. -/
theorem test_cirrus_index : cirSet (0x000200008040 / 64) = 37377 ∧ cirBank (0x000200008040 / 64) = 1 ∧
    cirTag (0x000200008040 / 64) = 0x1000 := by decide

/-- R227: CLA 0x23_4567_89C0 of a channel with two 512 GiB RDIMMs under SPREAD. -/
theorem test_media_address :
    (Geometry.decode { dimm := ⟨false, 512, false, 4, 18, 7, 8000, 6400⟩, dimms := 2, ranks := 8, spare := false, order := 1 }
      (0x23456789C0 / 64)) = { col := 122, sub := 1, bg := 3, bank := 0, rank := 4, row := 0x8D15 } := by decide +kernel

/-- R160: the check value of CRC-32C. -/
theorem test_crc32c : crc32c [0x31, 0x32, 0x33, 0x34, 0x35, 0x36, 0x37, 0x38, 0x39] = 0xE3069283 := by decide +kernel

/-- R162: the tokens of the worked image. -/
def workedTokens : List Byte :=
  [0x7F, 0x7F, 0x7F, 0x7F, 0x07, 0x11, 0x22, 0x33, 0x44, 0x55, 0x66, 0x77, 0x88, 0xFC, 0x08, 0xFF, 0xFC, 0x08, 0xFF, 0xFC, 0x08, 0x91]

/-- R162: the block of the worked image. -/
def workedBlock : List Byte :=
  List.replicate 256 0 ++ (List.replicate 96 [0x11, 0x22, 0x33, 0x44, 0x55, 0x66, 0x77, 0x88]).flatten

/-- R162: the tokens of the worked image give its block. -/
theorem test_worked_tokens : expand workedTokens = .ok workedBlock := by decide +kernel

/-- R158, R162: the header of the worked image is stored as 01 16 00 00. -/
theorem test_worked_header : (imageOf false workedTokens workedBlock 64).take 4 = [0x01, 0x16, 0x00, 0x00] := by decide +kernel

/-- R162: the worked image decodes from its one granule. -/
theorem test_worked_image : decodeImage (imageOf false workedTokens workedBlock 64) true = .ok workedBlock := by decide +kernel

/-- R206: the lengths of the worked record's images are 32 and 24 bytes. -/
theorem test_record_lengths : (imageOf false workedTokens workedBlock (ceilDiv (8 + 22) 8 * 8)).length = 32 ∧
    ceilDiv (8 + 16) 8 * 8 = 24 := by decide +kernel

/-- R125: heat halves at each boundary, is 0 after eight, and the difference of epochs wraps. -/
theorem test_heat : ({ heat := 200, hstamp := 254 } : MapEntry).effHeat 257 = 25 ∧
    ({ heat := 200, hstamp := 0 } : MapEntry).effHeat 8 = 0 := by decide

/-- R125: heat saturates at 255. -/
theorem test_heat_update : (({ heat := 250, hstamp := 3 } : MapEntry).heated 3 16).heat = 255 := by decide

/-- R127: an epoch with no fetch reports 1.0, and one whose extra lines were not used 16. -/
theorem test_amplification : amplification 0 5 = 0x0100 ∧ amplification 7 0 = 0x1000 := by decide

/-- R414: a packet of 16 full lines has 1,140 bytes, and one of a lone full line 108. -/
theorem test_mw_bytes :
    (Packet.mw 0 (List.replicate 16 ⟨0, 0, ByteMask.full, false⟩)).bytes = 1140 ∧
      (Packet.mw 0 [⟨0, 0, ByteMask.full, false⟩]).bytes = 108 := by decide +kernel

/-- R512: a post-cursor offset of +3 on a factory value of 30 sums to 33. -/
theorem test_calibration_sum : calSum { State.reset.chip.fuses with cal := [0, 0, 0, 0, 0, 0, 30, 0] } [0, 0, 0, 0, 0, 0, 3, 0] 6 = 33 := by
  decide

/-- R632: the addresses of the examples. -/
theorem test_register_addresses :
    (DMC_CHSTAT.POP.addr + DMC_CHSTAT.POP.step * 5 = 0x000C0248) ∧ sampleBase + 32 * 100 = 0x00840C80 := by decide

/-- R530: a timestamp of 5 ticks is 12 ns. -/
theorem test_ns : toNs 5 = 12 := by decide

/-- R68: the layout of a map entry's word, with its check byte 0 only where the entry is all zeros. -/
theorem test_map_entry : ({ state := .stratus, claim := 3, loc := .frame 5 } : MapEntry).encode % 2 ^ 56 = 1 + 3 * 2 ^ 17 ∧
    ({ state := .stratus, claim := 3, loc := .frame 5 } : MapEntry).encode / 2 ^ 64 = 5 ∧ ({} : MapEntry).encode = 0 := by
  decide +kernel

/-- R251: a DMC_SCHED write with WQ_LOW at WQ_HIGH is ignored. -/
theorem test_sched_refused :
    (match exec (.registerWrite .steward 0 0xC0018 8 (90 + 90 * 2 ^ 8 + 100 * 2 ^ 16) false false) State.reset with
      | .next t => t.rd DMC_SCHED.WQ_LOW
      | _ => 0) = 32 := by decide +kernel

/-- R251: a good one is stored, with PANIC_WAIT clamped to 10. -/
theorem test_sched_stored :
    (match exec (.registerWrite .steward 0 0xC0018 8 (10 + 90 * 2 ^ 8 + 100 * 2 ^ 16 + 3 * 2 ^ 32) false false) State.reset with
      | .next t => (t.rd DMC_SCHED.WQ_LOW, t.rd DMC_SCHED.PANIC_WAIT)
      | _ => (0, 0)) = (10, 10) := by decide +kernel

/-- R573: the fixed NMI reaction of source 26 stays set when 0 is written. -/
theorem test_fixed_reaction : (State.reset.setReactions 26 0).onAt FLT_SRCCFG.NMI 26 = true := by decide +kernel

/-- R596: the overflow bit of counter 65 is bit 1 of TEL_OVF1. -/
theorem test_overflow :
    ((State.reset.wrAt TEL_CNTVAL.VALUE 65 (2 ^ 48 - 1)).addCounter 65 1 8).rdAt TEL_OVF.BITS 1 = 2 := by decide +kernel

/-- A step without a command in the state after reset changes nothing but what R501 counts: no clock runs. -/
theorem test_idle : (match step State.reset with
    | .next t => t == State.reset
    | _ => false) = true := by decide +kernel

/-! ### The hypotheses of the statements are met -/

theorem witness_StepRunsFront : ({ State.reset with pending := [.hbeatToggle] } : State).pending = .hbeatToggle :: [] := rfl
theorem witness_IdleStep : State.reset.pending = [] := rfl
theorem witness_EveryCommandCompletes : State.reset.Sound :=
  ⟨by decide, by decide, by decide, by decide, by decide, by decide, by decide⟩
theorem witness_EveryStepKeepsSound : claimed.Sound :=
  ⟨by decide +kernel, by decide +kernel, by decide +kernel, by decide +kernel, by decide +kernel, by decide +kernel, by decide +kernel⟩
theorem witness_CalmSettles : claimed.calm = true := by decide +kernel
theorem witness_MapEntryRoundTrip :
    ({ state := .inFlight, snap := true, keygen := 1, keyid := 1023, claim := 8191, heat := 255, version := 255, hstamp := 255, hint := 3,
       loc := .run (2 ^ 38 - 1) 31 31 31 31 } : MapEntry).fits = true := by decide
theorem witness_BlockRoundTrip : (List.replicate 1024 (0 : Byte)).length = 1024 := by decide +kernel
theorem witness_BlockRoundTrip_raw : ∃ c, (rawBlock []).count ≤ c ∧ c ≤ 16 := ⟨16, by decide⟩
theorem witness_MediaAddressesDiffer : ∃ (g : Geometry) (l1 l2 : Nat), l1 < 2 ^ g.bits.length ∧ l2 < 2 ^ g.bits.length ∧
    g.decode l1 = g.decode l2 :=
  ⟨{ dimm := ⟨false, 512, false, 4, 18, 7, 8000, 6400⟩, dimms := 2, ranks := 8, spare := false, order := 3 }, 2 ^ 34 - 1, 2 ^ 34 - 1,
    by decide +kernel, by decide +kernel, rfl⟩
theorem witness_LockedFieldsKeep : ∃ (s : State) (r : Register) (f : Fld), r ∈ registerMap ∧ f ∈ r.fields ∧ f.acc = .rwl ∧
    s.locked f.lock 0 = true :=
  ⟨State.reset.put SYS_CTL.DEV_ENABLE true, (registerMap.find? fun r => r.addr == MAP_STORMCFG.PCT.addr).getD ⟨"", 0, 0, 0, 0, .strided, []⟩,
    MAP_STORMCFG.PCT, by decide +kernel⟩
theorem witness_ReadOnlyFieldsKeep : (∃ (r : Register) (f : Fld), r ∈ registerMap ∧ f ∈ r.fields ∧ f.acc = .ro) ∧
    ∃ (s : State) (r : Register) (f : Fld), r ∈ registerMap ∧ f ∈ r.fields ∧ f.acc = .rw1c ∧ s.rdAt f 0 < 2 ^ f.width :=
  ⟨⟨(registerMap.find? fun r => r.addr == SYS_ACCERR.VALID.addr).getD ⟨"", 0, 0, 0, 0, .strided, []⟩, SYS_ACCERR.OFFSET, by decide +kernel⟩,
    State.reset, (registerMap.find? fun r => r.addr == SYS_ACCERR.VALID.addr).getD ⟨"", 0, 0, 0, 0, .strided, []⟩, SYS_ACCERR.VALID, by decide +kernel⟩
theorem witness_UnsupportedWrites : (∃ (s : State) (p : Path) (fn offset bytes : Nat), (p ≠ .bar2 ∨ s.bar2Shown fn = true) ∧
      ((bytes ≠ 4 ∧ bytes ≠ 8) ∨ offset % bytes ≠ 0)) ∧
    (∃ s : State, s.on SYS_ACCERR.VALID = true) ∧ ∃ (s : State) (offset kind : Nat), s.on SYS_ACCERR.VALID = false ∧
      offset < 2 ^ 28 ∧ kind < 2 :=
  ⟨⟨State.reset, .engine, 0, 2, 4, by decide⟩, ⟨State.reset.put SYS_ACCERR.VALID true, by decide⟩, State.reset, 2 ^ 28 - 1, 1, by decide⟩
theorem witness_FaultCapture : ∃ (s : State) (src : Nat), src < 116 ∧ s.flt.fifo.length = 1024 ∧ s.on FLT_FIRST.VALID = false :=
  ⟨{ State.reset with flt := { State.reset.flt with fifo := List.replicate 1024 (0, 0) } }, 115, by decide +kernel⟩
theorem witness_FaultCapture_room : ∃ (s : State) (src : Nat), src < 116 ∧ s.flt.fifo.length < 1024 ∧ s.on FLT_FIRST.VALID = true :=
  ⟨State.reset.put FLT_FIRST.VALID true, 0, by decide⟩
theorem witness_FixedReactions : ∃ (src k : Nat) (f : Fld), src < 128 ∧ k < 128 ∧ k ≠ src ∧
    f ∈ [FLT_SRCCFG.INT, FLT_SRCCFG.NMI, FLT_SRCCFG.BLKRST, FLT_SRCCFG.CHIPRST, FLT_SRCCFG.ERRN] :=
  ⟨127, 0, FLT_SRCCFG.ERRN, by decide⟩
theorem witness_SchedulerWatermarks : (∃ v, ¬ (bits v 0 7 < bits v 8 7 ∧ bits v 8 7 < bits v 16 7)) ∧
    ∃ v, bits v 0 7 < bits v 8 7 ∧ bits v 8 7 < bits v 16 7 := ⟨⟨0, by decide⟩, 2 ^ 8 + 127 * 2 ^ 16, by decide⟩
theorem witness_CounterSaturates : (∃ (s : State) (c : Nat), c < 320 ∧ (s.onAt TEL_CNTCFG.CHAIN c = false ∨ c % 8 = 7) ∧
      2 ^ 48 - 1 < s.rdAt TEL_CNTVAL.VALUE c + 1) ∧
    ∃ (s : State) (c n : Nat), c < 320 ∧ c % 8 ≠ 7 ∧ s.onAt TEL_CNTCFG.CHAIN c = true ∧ s.onAt TEL_CNTCFG.CHAIN (c + 1) = false ∧
      2 ^ 48 ≤ s.rdAt TEL_CNTVAL.VALUE c + n ∧ s.rdAt TEL_CNTVAL.VALUE (c + 1) < 2 ^ 48 - 1 :=
  ⟨⟨State.reset.wrAt TEL_CNTVAL.VALUE 319 (2 ^ 48 - 1), 319, by decide +kernel⟩,
    (State.reset.wrAt TEL_CNTVAL.VALUE 0 (2 ^ 48 - 1)).putAt TEL_CNTCFG.CHAIN 0 true, 0, 1, by decide +kernel⟩
theorem witness_HeldDomainsRefused : ∃ (s : State) (who : Asker) (d action : Nat), who ≠ .zenith ∧ d ≤ 32 ∧ action ≤ 2 ∧ action ≠ actOn ∧
    s.held d = true := ⟨State.reset.wr ENG_HOLD.DOMAINS (2 ^ 32), .bar2, 32, 2, by decide +kernel⟩
theorem witness_TimestampCounts : (∃ s : State, s.clockRuns = true) ∧ ∃ s : State, s.clockRuns = false :=
  ⟨⟨State.reset.put CLK_STAT.ROOT true, by decide +kernel⟩, State.reset, by decide +kernel⟩
/-- A decoder of LD 0 over the first GiB. -/
def decoded : State :=
  { claimed with decoders := [(decoderKey 0 0, { base := 0, size := 2 ^ 30, hdmDb := true, committed := true })] }
theorem witness_OnlyGrantedAccessesAreServed : decoded.route 0 0 0x1000 true = .served 0x1000 0 true := by decide +kernel
theorem witness_ClaimsDoNotOverlap : claimable.claimCheck 0 false = 0 ∧ State.reset.claimCheck 0 false ≠ 0 := by decide +kernel
theorem witness_ClaimsDoNotOverlap_other : ∃ (s : State) (c d : Nat), s.claimCheck c false = 0 ∧ d ≠ c ∧
    s.onAt MAP_CLAIMATTR.COMMIT d = true :=
  ⟨((claimed.wrAt MAP_CLAIMBASE.BASE 1 1).wrAt MAP_CLAIMSIZE.SIZE 1 1).wrAt MAP_CLAIMATTR.FLOOR 1 8 |>.putAt MAP_CLAIMATTR.TYPE 1 true,
    1, 0, by decide +kernel⟩
theorem witness_CounterValuesRise : ∃ (s : State) (k : Nat), k < 1024 ∧ (s.nextCounter k).isSome = true :=
  ⟨State.reset.wrAt SEC_KEYALLOC.NEXT 1023 1, 1023, by decide +kernel⟩
theorem witness_ColdResetRestores : (15 < 16) ∧ (7 < 8) ∧ (127 < 128) := by decide
theorem witness_BoundaryScan : (∃ s : State, takesBalls s.jtagActs = true) ∧
    (∃ s : State, takesBalls s.chip.jtag = true ∧ s.chip.perstOff = [] ∧ s.on SYS_CTL.DEV_ENABLE = false ∧
      s.on CON_CTL.LINKEN = false ∧ ∀ c, c < 16 → (s.chan c).dimms = []) ∧
    ∃ s : State, takesBalls s.chip.jtag = true ∧ takesBalls s.jtagActs = false :=
  ⟨⟨{ State.reset with chip := { State.reset.chip with jtag := .extest } }, by decide +kernel⟩,
    ⟨{ State.reset with chip := { State.reset.chip with jtag := .extest } }, by decide +kernel⟩,
    { trained with chip := { trained.chip with jtag := .highz } }, by decide +kernel⟩

theorem witness_HostPortEvents :
    (∃ (s : State) (n rate width : Nat) (flit256 lopt : Bool), (s.link n).state ≠ .l0 ∧ s.mayTrain n ∧ s.rd PWR_STAT.STATE ≠ pwrNight) ∧
    (∃ (s : State) (n rate width : Nat) (flit256 lopt : Bool), (s.link n).state ≠ .l0 ∧ s.mayTrain n ∧ s.rd PWR_STAT.STATE = pwrNight) ∧
    (∃ (s : State) (n : Nat), (s.link n).state = .l0) ∧
    (∃ (s : State) (n dropped : Nat), s.isUp n) ∧
    (∃ (s : State) (n dropped : Nat), s.isUp n) ∧
    (∃ (s : State) (n dropped : Nat), s.isUp n) ∧
    (∃ (s : State) (n dropped : Nat) (k : IdeSel), s.isUp n) ∧
    (∃ (s : State) (port d0 d1 : Nat), s.chip.perstOff.has port) ∧
    (∃ (s : State) (port : Nat), port < 4) :=
  ⟨⟨{ State.reset.wr SYS_BOOT.STAGE 2 with chip := { State.reset.chip with perstOff := [0], hostPll := [0] } }, 0, 3, 16, true, false, by decide +kernel⟩,
   ⟨{ (State.reset.wr SYS_BOOT.STAGE 2).wr PWR_STAT.STATE 3 with chip := { State.reset.chip with perstOff := [0], hostPll := [0] } }, 0, 3, 16, true, false, by decide +kernel⟩,
   ⟨State.reset.setLink 2 { state := .l0 }, 2, by decide +kernel⟩,
   ⟨State.reset.putAt LNK_LSTAT.UP 2 true, 2, 0, by decide +kernel⟩,
   ⟨State.reset.putAt LNK_LSTAT.UP 2 true, 2, 0, by decide +kernel⟩,
   ⟨State.reset.putAt LNK_LSTAT.UP 2 true, 2, 0, by decide +kernel⟩,
   ⟨State.reset.putAt LNK_LSTAT.UP 2 true, 2, 0, .mem, by decide +kernel⟩,
   ⟨{ State.reset with chip := { State.reset.chip with perstOff := [1] } }, 1, 0, 0, by decide +kernel⟩,
   ⟨State.reset, 3, by decide +kernel⟩⟩


theorem witness_HostRequests :
    (∃ (s : State) (id : Nat) (r : OpenReq), s.req id = some r ∧ r.answered = false) ∧
    (∃ (s : State) (ld k base size dpaBase ways gran : Nat) (hdmDb : Bool) (x : Ld) (d : Decoder), s.lds.find ld = some x ∧ k < x.alloc ∧ k < 32 ∧ d = { committed := true, base := base, size := size, dpaBase := dpaBase, ways := ways, gran := gran, hdmDb := hdmDb } ∧ s.decoderOk ld k d) ∧
    (∃ (s : State) (ld k base size dpaBase ways gran : Nat) (hdmDb : Bool) (x : Ld) (d : Decoder), s.lds.find ld = some x ∧ k < x.alloc ∧ k < 32 ∧ d = { committed := true, base := base, size := size, dpaBase := dpaBase, ways := ways, gran := gran, hdmDb := hdmDb } ∧ s.decoderOk ld k d = false) :=
  ⟨⟨{ State.reset with reqs := [sampleReq] }, 0, sampleReq, by decide +kernel⟩,
   ⟨enabled, 0, 0, 0, 268435456, 0, 1, 256, false, { link := 0, number := 0, alloc := 8 }, { committed := true, size := 268435456 }, by decide +kernel⟩,
   ⟨enabled, 0, 0, 0, 268435456, 0, 5, 256, false, { link := 0, number := 0, alloc := 8 }, { committed := true, size := 268435456, ways := 5 }, by decide +kernel⟩⟩


theorem witness_ClaimCommands :
    (∃ (s u : State) (p : Path) (v c : Nat), s.rdAt MAP_CLAIMSEL.CLAIM (pathCopy p) = c ∧ u = s.storeFields claimAttr c v ∧ u.onAt MAP_CLAIMATTR.COMMIT c = false ∧ u.claimsShut = false ∧ u.claimCheck c false = 0 ∧ u.forwards = false) ∧
    (∃ (s u : State) (p : Path) (v c : Nat), s.rdAt MAP_CLAIMSEL.CLAIM (pathCopy p) = c ∧ u = s.storeFields claimAttr c v ∧ u.onAt MAP_CLAIMATTR.COMMIT c ∧ u.claimsShut = false ∧ u.slotsOf c = [] ∧ u.forwards = false) ∧
    (∃ (s : State) (c : Nat), s.onAt MAP_CLAIMSTAT.RELEASING c ∧ s.releaseBi c = false) ∧
    (∃ (s : State) (p : Path) (v c : Nat), s.rdAt MAP_CLAIMSEL.CLAIM (pathCopy p) = c) ∧
    (∃ (s : State) (p : Path) (v c : Nat), s.rdAt MAP_CLAIMSEL.CLAIM (pathCopy p) = c) ∧
    (∃ (s : State) (dpn c : Nat) (f : WalkFind), s.claimOf (dpn * 4096) = some c ∧ s.cached dpn = none) :=
  ⟨⟨claimable, claimable.storeFields claimAttr 0 (1 + 2 ^ MAP_CLAIMATTR.TYPE.lo + 8 * 2 ^ MAP_CLAIMATTR.FLOOR.lo), .bar2, 1 + 2 ^ MAP_CLAIMATTR.TYPE.lo + 8 * 2 ^ MAP_CLAIMATTR.FLOOR.lo, 0, by decide +kernel⟩,
   ⟨claimed, claimed.storeFields claimAttr 0 0, .bar2, 0, 0, by decide +kernel⟩,
   ⟨State.reset.putAt MAP_CLAIMSTAT.RELEASING 3 true, 3, by decide +kernel⟩,
   ⟨State.reset, .bar2, 2, 0, by decide +kernel⟩,
   ⟨State.reset, .bar2, 2, 0, by decide +kernel⟩,
   ⟨claimed, 0, 0, {}, by decide +kernel⟩⟩


theorem witness_CirrusCommands :
    (∃ (s t u : State) (dpaLine mfn : Nat) (fs : Finds) (mismatch : Bool) (w : Writeback) (l : Line) (poison : Bool), (s.cir.buffer.find? (fun w => w.dpaLine == dpaLine) = some w) ∧ s.refetching (dpaLine / 64) = false ∧ s.targetAway (dpaLine / 64) = false ∧ (s.entry (dpaLine / 64)).loc = .frame mfn ∧ s.writeStratus w mfn (fs.line (mfn * 64 + dpaLine % 64)) = some (l, poison, t) ∧ u = t.claimEvent Ev.writebacks 0 (s.entry (dpaLine / 64)).claim) ∧
    (∃ (s : State) (v : Nat), s.on CIR_FLUSH.START = false) ∧
    (∃ (s t : State) (fs : Finds) (left : Nat), s.on CIR_FLUSH.START ∧ s.flush s.flushScope (s.on CIR_FLUSH.INVAL) fs = (left, t)) ∧
    (∃ (s : State), s.on CIR_SWEEP.START = false) ∧
    (∃ (s : State) (x : Sweep) (finds : List (Nat × CirrusFind)), s.cir.sweep = some x) :=
  ⟨⟨buffered, ((buffered.writeStratus sampleBack 5 {}).getD (0, false, buffered)).2.2, ((buffered.writeStratus sampleBack 5 {}).getD (0, false, buffered)).2.2.claimEvent Ev.writebacks 0 0, 3, 5, {}, false, sampleBack, 7, false, by decide +kernel⟩,
   ⟨State.reset, 1, by decide +kernel⟩,
   ⟨State.reset.put CIR_FLUSH.START true, State.reset.put CIR_FLUSH.START true, {}, 0, by decide +kernel⟩,
   ⟨State.reset, by decide +kernel⟩,
   ⟨{ State.reset with cir := { State.reset.cir with sweep := some { byGuard := true } } }, { byGuard := true }, [], by decide +kernel⟩⟩


theorem witness_PlacementCommands :
    (∃ (s : State), s.policyCheck = 0) ∧
    (∃ (s : State), s.clearState) ∧
    (∃ (s : State) (p : Nat), s.on PLC_STATUS.SCANNING ∧ s.on PLC_STATUS.PAUSED = false ∧ s.clearState ∧ s.nextPage s.plc.scanAt = some p) ∧
    (∃ (s : State), s.on PLC_STATUS.SCANNING ∧ s.on PLC_STATUS.PAUSED = false ∧ s.clearState ∧ s.nextPage s.plc.scanAt = none) ∧
    (∃ (s : State), s.plc.selecting) ∧
    (∃ (s : State), s.plc.selecting ∧ s.plc.missed = 0) ∧
    (∃ (s : State), s.plc.selecting ∧ s.plc.missed ≠ 0) ∧
    (∃ (s t : State) (m : Chosen), s.on PLC_STATUS.PAUSED = false ∧ s.plc.moves.length < trackerCount ∧ (s.plc.chosen.find? (fun x => x.explicit.isSome == false && s.startable x) = some m) ∧ s.rangePageStatus m.dpn m.kind = none ∧ (s.locationChannel (s.entry m.dpn).loc).any s.frozen = false ∧ s.beginMove m = some t) ∧
    (∃ (s : State) (dpn : Nat) (fs : Finds) (bad : List Nat) (m : Move), s.move dpn = some m ∧ m.switching = false ∧ s.on PLC_STATUS.PAUSED = false ∧ s.moveNeedsPipe m = false ∧ (m.kind = .demote → s.canCompress = true) ∧ (([m.src, m.dest].any fun l => (s.locationChannel l).any fun c => s.panicHolds masterDrift c) = false)) ∧
    (∃ (s : State) (dpn : Nat) (fs : Finds) (bad : List Nat) (m : Move), s.move dpn = some m ∧ m.switching) ∧
    (∃ (s : State) (dpn : Nat) (m : Move), s.move dpn = some m ∧ m.switching) :=
  ⟨⟨{ ((State.reset.wr PLC_THRESH.DEMOTE_T 1).wr PLC_THRESH.PROMOTE_T 2).wr PLC_THRESH.PIN_T 3 with plc := { State.reset.plc with drift := true } }, by decide +kernel⟩,
   ⟨State.reset, by decide +kernel⟩,
   ⟨decoding.put PLC_STATUS.SCANNING true, 0, by decide +kernel⟩,
   ⟨State.reset.put PLC_STATUS.SCANNING true, by decide +kernel⟩,
   ⟨{ State.reset with plc := { State.reset.plc with selecting := true } }, by decide +kernel⟩,
   ⟨{ State.reset with plc := { State.reset.plc with selecting := true } }, by decide +kernel⟩,
   ⟨{ State.reset with plc := { State.reset.plc with selecting := true, missed := 1 } }, by decide +kernel⟩,
   ⟨choosing, (choosing.beginMove { dpn := 0, kind := .promote, epoch := 0 }).getD State.reset, { dpn := 0, kind := .promote, epoch := 0 }, by decide +kernel⟩,
   ⟨{ State.reset with plc := { State.reset.plc with moves := [sampleMove] } }, 0, {}, [], sampleMove, by decide +kernel⟩,
   ⟨{ State.reset with plc := { State.reset.plc with moves := [{ sampleMove with switching := true }] } }, 0, {}, [], { sampleMove with switching := true }, by decide +kernel⟩,
   ⟨{ State.reset with plc := { State.reset.plc with moves := [{ sampleMove with switching := true }] } }, 0, { sampleMove with switching := true }, by decide +kernel⟩⟩


theorem witness_CodecCommands :
    (∃ (s t : State) (job : Nat) (fs : Finds) (j : DecodeJob) (lines : List Line), s.nmb.jobs.find job = some j ∧ s.blockReadable j.dpn ∧ j.failed = none ∧ s.pipeReady j.dpn j.block ∧ s.decodeBlock j.dpn j.block fs none = (.ok lines, t)) ∧
    (∃ (s t : State) (job k : Nat) (fs : Finds) (fault : Option Nat) (j : DecodeJob), s.nmb.jobs.find job = some j ∧ s.blockReadable j.dpn ∧ j.failed = none ∧ s.pipeReady j.dpn j.block ∧ s.decodeBlock j.dpn j.block fs fault = (.error k, t) ∧ k ≠ DecodeFault.media.code) ∧
    (∃ (s t : State) (job first : Nat) (fs : Finds) (j : DecodeJob) (lines : List Line), s.nmb.jobs.find job = some j ∧ j.failed = some first ∧ s.blockReadable j.dpn ∧ s.pipeReady j.dpn j.block ∧ s.decodeBlock j.dpn j.block fs none = (.ok lines, t)) ∧
    (∃ (s t : State) (job first k : Nat) (fs : Finds) (fault : Option Nat) (j : DecodeJob), s.nmb.jobs.find job = some j ∧ j.failed = some first ∧ s.blockReadable j.dpn ∧ s.pipeReady j.dpn j.block ∧ s.decodeBlock j.dpn j.block fs fault = (.error k, t)) ∧
    (∃ (s : State) (k : Nat) (g : Segment), s.nmb.segments.find k = some g) ∧
    (∃ (s : State) (k : Nat) (g : Segment), s.nmb.segments.find k = some g ∧ g.rebuilding) :=
  ⟨⟨decoding, (decoding.decodeBlock 0 0 {} none).2, 0, {}, ⟨0, 0, none, none⟩, List.replicate 16 0, by decide +kernel⟩,
   ⟨decoding, (decoding.decodeBlock 0 0 {} (some 9)).2, 0, 9, {}, some 9, ⟨0, 0, none, none⟩, by decide +kernel⟩,
   ⟨{ decoding with nmb := { decoding.nmb with jobs := [(0, ⟨0, 0, some 9, none⟩)] } }, (({ decoding with nmb := { decoding.nmb with jobs := [(0, ⟨0, 0, some 9, none⟩)] } } : State).decodeBlock 0 0 {} none).2, 0, 9, {}, ⟨0, 0, some 9, none⟩, List.replicate 16 0, by decide +kernel⟩,
   ⟨{ decoding with nmb := { decoding.nmb with jobs := [(0, ⟨0, 0, some 9, none⟩)] } }, (({ decoding with nmb := { decoding.nmb with jobs := [(0, ⟨0, 0, some 9, none⟩)] } } : State).decodeBlock 0 0 {} (some 9)).2, 0, 9, 9, {}, some 9, ⟨0, 0, some 9, none⟩, by decide +kernel⟩,
   ⟨{ State.reset with nmb := { State.reset.nmb with segments := [(3, sampleSeg)] } }, 3, sampleSeg, by decide +kernel⟩,
   ⟨{ State.reset with nmb := { State.reset.nmb with segments := [(3, { sampleSeg with rebuilding := true })] } }, 3, { sampleSeg with rebuilding := true }, by decide +kernel⟩⟩


theorem witness_SnapshotCommands :
    (∃ (s u : State) (p : Path) (v n : Nat), s.rdAt SNP_SLOTSEL.SLOT (pathCopy p) = n ∧ u = s.storeFields [SNP_ARM.TARGET, SNP_ARM.CLAIM] n v ∧ SNP_ARM.ARM.set v ∧ u.armCheck n false = 0) ∧
    (∃ (s : State) (n : Nat), s.slotState n = slotArming) ∧
    (∃ (s : State) (n : Nat) (fs : Finds), s.cursorRuns n ∧ s.cursorPages n = []) ∧
    (∃ (s : State) (n p : Nat) (fs : Finds) (ps : List Nat), s.cursorRuns n ∧ s.cursorPages n = p :: ps) ∧
    (∃ (s : State) (n dpn : Nat) (fs : Finds), (n, dpn) ∈ s.snp.tracking ∧ s.slotState n = slotPreserving) ∧
    (∃ (s : State) (n dpn : Nat), s.capturing n dpn ∧ s.slotState n = slotPreserving) ∧
    (∃ (s : State) (n : Nat) (bs : List Byte) (last : Bool) (b : ExportBuffer) (rest : List ExportBuffer), s.nextChunk n = some (bs, last) ∧ (s.slot n).buffers = b :: rest ∧ s.maskUp b.mask ≠ []) ∧
    (∃ (s : State) (n : Nat) (x : List Byte × Bool), s.nextChunk n = some x) ∧
    (∃ (s : State) (n : Nat) (x : List Byte × Bool) (b : ExportBuffer) (rest : List ExportBuffer), s.nextChunk n = some x ∧ (s.slot n).buffers = b :: rest ∧ s.maskUp b.mask = []) ∧
    (∃ (s : State) (n : Nat), s.slotState n = slotAborting) ∧
    (∃ (s : State) (c : Nat), s.on RST_CTL.WARM = false ∧ s.snp.clearing.has c) ∧
    (∃ (s : State) (q i : Nat) (bytes : List Byte) (j : ImportJob), s.importOf q i = some j ∧ s.onAt MAP_CLAIMATTR.COMMIT j.claim ∧ s.onAt MAP_CLAIMSTAT.RELEASING j.claim = false) :=
  ⟨⟨armable, armable.storeFields [SNP_ARM.TARGET, SNP_ARM.CLAIM] 0 1, .bar2, 1, 0, by decide +kernel⟩,
   ⟨State.reset.wrAt SNP_STATUS.STATE 0 slotArming, 0, by decide +kernel⟩,
   ⟨cursing, 0, {}, by decide +kernel⟩,
   ⟨{ cursing with snp := { cursing.snp with slots := [(0, { captures := [(3, samplePage)] })] } }, 0, 3, {}, [], by decide +kernel⟩,
   ⟨{ (State.reset.wrAt SNP_STATUS.STATE 0 slotPreserving) with snp := { State.reset.snp with tracking := [(0, 5)] } }, 0, 5, {}, by decide +kernel⟩,
   ⟨{ (State.reset.wrAt SNP_STATUS.STATE 0 slotPreserving) with snp := { State.reset.snp with tracking := [(0, 5)] } }, 0, 5, by decide +kernel⟩,
   ⟨exporting.putAt LNK_LSTAT.UP 0 true, 0, [7], false, sampleBuf, [], by decide +kernel⟩,
   ⟨exporting, 0, ([7], false), by decide +kernel⟩,
   ⟨exporting, 0, ([7], false), sampleBuf, [], by decide +kernel⟩,
   ⟨State.reset.wrAt SNP_STATUS.STATE 0 slotAborting, 0, by decide +kernel⟩,
   ⟨{ State.reset with snp := { State.reset.snp with clearing := [4] } }, 4, by decide +kernel⟩,
   ⟨{ claimed with snp := { claimed.snp with imports := [sampleJob] } }, 0, 0, [], sampleJob, by decide +kernel⟩⟩


theorem witness_ChannelCommands :
    (∃ (s : State), s.on DMC_COMMIT.COMMIT = false ∧ s.channelCheck = 0) ∧
    (∃ (s : State), s.on SYS_CTL.DEV_ENABLE = false ∧ s.on DMC_COMMIT.COMMIT) ∧
    (∃ (s : State), s.dram.init.running ∧ s.panicHolds masterService (s.regionAt s.dram.init.next).1 = false) ∧
    (∃ (s t : State) (id mfn : Nat) (f : MediaFind) (r : OpenReq), s.req id = some r ∧ r.stage = .dram ∧ isRead r.op ∧ t = { s with dram := { s.dram with master := r.link } } ∧ t.cirLine r.dpaLine = none ∧ t.buffered r.dpaLine = none ∧ (t.entry (r.dpaLine / 64)).loc = .frame mfn ∧ t.listed r.dpaLine = false) ∧
    (∃ (s : State) (c : Nat), (s.chan c).panic = false) ∧
    (∃ (s : State) (c : Nat), (s.chan c).panic = false) ∧
    (∃ (s : State) (c : Nat), (s.chan c).selfRefresh = false ∧ s.populated c ∧ (s.chan c).panic ∧ (s.chan c).refreshDebt < 4) ∧
    (∃ (s : State) (c : Nat), (s.chan c).selfRefresh = false ∧ s.populated c ∧ (s.chan c).panic = false ∧ s.rdAt DMC_CHCFG.REFMODE c ≠ 2) ∧
    (∃ (s : State) (c rank : Nat), s.rd DMC_PWR.PDTIMER ≠ 0 ∧ (s.chan c).selfRefresh = false ∧ (s.chan c).poweredDown.has rank = false ∧ rank < s.rdAt DMC_CHSTAT.RANKS c) ∧
    (∃ (s t : State) (c : Nat) (dimms : List Dimm) (g : Geometry), bit (s.rd CLK_STAT.DRAM) (c / 2) ∧ s.onAt DMC_CHSTAT.TRAINED c = false ∧ s.onAt DMC_TRAIN.FAIL c = false ∧ s.rdAt DMC_TRAIN.PHASE c = 0 ∧ dimms ≠ [] ∧ bit (s.rd DMC_CFG.EXCLUDE) c = false ∧ t = s.setChan c { s.chan c with dimms := dimms } ∧ t.geometry c = some g) ∧
    (∃ (s : State) (c retries : Nat), 3 ≤ retries) ∧
    (∃ (s : State) (c retries : Nat), retries < 3) ∧
    (∃ (s : State) (c : Nat), s.frozen c ∧ s.onAt DMC_CHSTAT.RELEASING c = false ∧ s.onAt DMC_CHSTAT.KEPT c ∧ (s.putAt DMC_FRZCTL.RELEASE c true).repairBusy c = false ∧ ((s.putAt DMC_FRZCTL.RELEASE c true).chan c).selfRefresh = false) ∧
    (∃ (s : State) (c : Nat) (fs : Finds), s.onAt DMC_CHSTAT.RELEASING c) ∧
    (∃ (s u : State) (c v : Nat), u = s.storeFields [DMC_SPARECTL.RANK] c v ∧ u.rdAt DMC_CHSTAT.SPARESTAT c = spareReady ∧ u.rdAt DMC_SPARECTL.RANK c < u.spareRank c) ∧
    (∃ (s : State) (c : Nat) (f : Ecc) (g : Geometry), s.geometry c = some g ∧ s.rdAt DMC_CHSTAT.SPARESTAT c = spareCopying ∧ s.frozen c = false ∧ s.panicHolds masterService c = false) :=
  ⟨⟨committable.stageChannels ([0, 0, 0, 0, 0, 1, 0, 0, 1, 1] ++ List.replicate 14 0), by decide +kernel⟩,
   ⟨trained, by decide +kernel⟩,
   ⟨{ trained with dram := { trained.dram with init := { running := true, next := 0 } } }, by decide +kernel⟩,
   ⟨returning, { returning with dram := { returning.dram with master := 1 } }, 0, 5, {}, { sampleReq with stage := .dram }, by decide +kernel⟩,
   ⟨State.reset, 15, by decide +kernel⟩,
   ⟨State.reset, 15, by decide +kernel⟩,
   ⟨trained.setChan 1 { panicRead := true }, 1, by decide +kernel⟩,
   ⟨trained.wrAt DMC_CHCFG.REFMODE 1 0, 1, by decide +kernel⟩,
   ⟨(trained.wr DMC_PWR.PDTIMER 5).wrAt DMC_CHSTAT.RANKS 1 2, 1, 1, by decide +kernel⟩,
   ⟨State.reset.wr CLK_STAT.DRAM 255, (State.reset.wr CLK_STAT.DRAM 255).setChan 2 { dimms := [⟨some 4, 1⟩] }, 2, [⟨some 4, 1⟩], (((State.reset.wr CLK_STAT.DRAM 255).setChan 2 { dimms := [⟨some 4, 1⟩] }).geometry 2).get (by decide +kernel), by decide +kernel⟩,
   ⟨State.reset, 4, 3, by decide +kernel⟩,
   ⟨State.reset, 4, 2, by decide +kernel⟩,
   ⟨repairable, 0, by decide +kernel⟩,
   ⟨repairable.putAt DMC_CHSTAT.RELEASING 0 true, 0, {}, by decide +kernel⟩,
   ⟨(trained.wrAt DMC_CHSTAT.SPARESTAT 1 spareReady).wrAt DMC_CHSTAT.RANKS 1 2, ((trained.wrAt DMC_CHSTAT.SPARESTAT 1 spareReady).wrAt DMC_CHSTAT.RANKS 1 2).storeFields [DMC_SPARECTL.RANK] 1 1, 1, 1, by decide +kernel⟩,
   ⟨trained.wrAt DMC_CHSTAT.SPARESTAT 1 spareCopying, 1, .clean, (trained.geometry 1).get (by decide +kernel), by decide +kernel⟩⟩


theorem witness_MediaCommands :
    (∃ (s : State) (v : Nat), s.on MED_SCRUBCTL.START = false) ∧
    (∃ (s : State), s.on MED_SCRUBCTL.START) ∧
    (∃ (s : State) (k ues : Nat) (fs : Finds) (x : Scrub), s.med.scrubs.find k = some x ∧ x.logical = false ∧ s.panicHolds masterScrub x.channel = false) ∧
    (∃ (s : State), s.med.policyOn ∧ s.on ENG_STAT.HORIZON_UP ∧ s.on MED_SCRUBCTL.START = false) ∧
    (∃ (s : State) (c : Nat) (ok : Bool) (r : RepairRow) (rs : List RepairRow), s.chip.repairing.has c ∧ s.repairRows c = r :: rs) ∧
    (∃ (s u : State) (v : Nat), s.on MED_PPRSTAT.BUSY = false ∧ u = s.storeFields [MED_PPRCTL.CHANNEL, MED_PPRCTL.SUBCH, MED_PPRCTL.RANK, MED_PPRCTL.BG, MED_PPRCTL.BANK, MED_PPRCTL.ROW] 0 v ∧ u.repairReady u.namedRow.channel ∧ u.rowOk u.namedRow) ∧
    (∃ (s : State) (r : RepairRow) (bad : Bool) (ues mis : List Nat), s.med.pprRow = some r) :=
  ⟨⟨State.reset, 1, by decide +kernel⟩,
   ⟨State.reset.put MED_SCRUBCTL.START true, by decide +kernel⟩,
   ⟨{ State.reset with med := { State.reset.med with scrubs := [(0, sampleScrub)] } }, 0, 0, {}, sampleScrub, by decide +kernel⟩,
   ⟨{ State.reset.put ENG_STAT.HORIZON_UP true with med := { State.reset.med with policyOn := true } }, by decide +kernel⟩,
   ⟨{ State.reset with med := { State.reset.med with repairList := [sampleRow] }, chip := { State.reset.chip with repairing := [2] } }, 2, true, sampleRow, [], by decide +kernel⟩,
   ⟨repairable, repairable.storeFields [MED_PPRCTL.CHANNEL, MED_PPRCTL.SUBCH, MED_PPRCTL.RANK, MED_PPRCTL.BG, MED_PPRCTL.BANK, MED_PPRCTL.ROW] 0 0, 0, by decide +kernel⟩,
   ⟨{ State.reset with med := { State.reset.med with pprRow := some sampleRow } }, sampleRow, false, [], [], by decide +kernel⟩⟩


theorem witness_ProtectionCommands :
    (∃ (s : State) (v : Nat), SEC_VEILCFG.ROTATE.set v) ∧
    (∃ (s : State) (p : Nat), s.on SEC_VEILSTAT.ROTATING ∧ (s.committedPages.find? (fun p => decide (s.sec.sweepAt ≤ p) && s.underOldKey p) = some p)) ∧
    (∃ (s : State), s.on SEC_VEILSTAT.ROTATING ∧ (s.committedPages.find? (fun p => decide (s.sec.sweepAt ≤ p) && s.underOldKey p) = none) ∧ (s.sec.comeBack.find? (fun p => s.underOldKey p && (s.entry p).state != .inFlight && !s.tracked p) = none)) ∧
    (∃ (s : State) (fs : Finds), s.on SEC_VEILSTAT.ROTATING ∧ s.sec.swept ∧ s.committedPages.any s.underOldKey = false) ∧
    (∃ (s : State) (dpn item : Nat) (f : MediaFind) (t : RewriteTracker) (c : Nat), (s.sec.trackers.find? (fun t => t.dpn == dpn) = some t) ∧ s.locationChannel (s.entry dpn).loc = some c ∧ s.serving c ∧ s.panicHolds masterService c = false ∧ t.done.has item = false ∧ (pageItems (s.entry dpn).loc).contains item) ∧
    (∃ (s u : State) (dpn : Nat) (finds : List (Nat × EntryFind)) (evicts spoilt : List (Nat × Nat × Nat)), u = (s.spoilNodes spoilt).evictNodes evicts ∧ (u.entry dpn).keyid ≠ 0 ∧ u.treeUnreachable dpn = false) ∧
    (∃ (s : State) (v : Nat) (c : Nat), SEC_REGIONCTL.ENABLE.set v ∧ SEC_REGIONCTL.CLAIM.of v = c ∧ (s.storeFields [SEC_REGIONCTL.CLAIM] 0 v).sealCheck c = 0 ∧ (s.storeFields [SEC_REGIONCTL.CLAIM] 0 v).pairState ≠ pairMirrored) ∧
    (∃ (s : State) (k : Nat), s.onAt SEC_KEYSTAT.REKEY k ∧ s.rdAt SEC_KEYSTAT.STATE k = keyActive ∧ s.sec.rekeyTo.find k = none) ∧
    (∃ (s t : State) (k new p : Nat) (l : SealLeaf) (ps : List Nat), s.onAt SEC_KEYSTAT.REKEY k ∧ s.rdAt SEC_KEYSTAT.STATE k = keyActive ∧ s.sec.rekeyTo.find k = some new ∧ s.rekeyQueue k = p :: ps ∧ s.freshLeaf new = some (l, t)) ∧
    (∃ (s : State) (k new : Nat), s.onAt SEC_KEYSTAT.REKEY k ∧ s.rdAt SEC_KEYSTAT.STATE k = keyActive ∧ s.sec.rekeyTo.find k = some new ∧ s.keyPages k = [] ∧ s.rekeyQueue k = []) ∧
    (∃ (s : State) (k : Nat) (fs : Finds), s.keyFree k) ∧
    (∃ (s : State) (k r : Nat), s.onAt SEC_BREACH.VALID r ∧ s.rdAt SEC_BREACH.PROGRESS r = recoverReinit) :=
  ⟨⟨State.reset, 2 ^ SEC_VEILCFG.ROTATE.lo, by decide +kernel⟩,
   ⟨(decoding.put SEC_VEILSTAT.ROTATING true).wr SEC_VEILSTAT.GEN 1, 0, by decide +kernel⟩,
   ⟨State.reset.put SEC_VEILSTAT.ROTATING true, by decide +kernel⟩,
   ⟨{ State.reset.put SEC_VEILSTAT.ROTATING true with sec := { State.reset.sec with swept := true } }, {}, by decide +kernel⟩,
   ⟨{ decoding with sec := { decoding.sec with trackers := [sampleTracker] } }, 0, 0, {}, sampleTracker, 0, by decide +kernel⟩,
   ⟨underKey, underKey, 0, [], [], [], by decide +kernel⟩,
   ⟨sealable, 2 ^ SEC_REGIONCTL.ENABLE.lo, 0, by decide +kernel⟩,
   ⟨(State.reset.putAt SEC_KEYSTAT.REKEY 3 true).wrAt SEC_KEYSTAT.STATE 3 keyActive, 3, by decide +kernel⟩,
   ⟨rekeying, ((rekeying.freshLeaf 4).map Prod.snd).getD State.reset, 3, 4, 0, ((rekeying.freshLeaf 4).map Prod.fst).getD {}, [], by decide +kernel⟩,
   ⟨{ ((State.reset.putAt SEC_KEYSTAT.REKEY 3 true).wrAt SEC_KEYSTAT.STATE 3 keyActive) with sec := { State.reset.sec with rekeyTo := [(3, 4)] } }, 3, 4, by decide +kernel⟩,
   ⟨State.reset.wrAt SEC_KEYSTAT.STATE 3 keyRetiring, 3, {}, by decide +kernel⟩,
   ⟨(State.reset.putAt SEC_BREACH.VALID 2 true).wrAt SEC_BREACH.PROGRESS 2 recoverReinit, 0, 2, by decide +kernel⟩⟩


theorem witness_HaloCommands :
    (∃ (s : State) (link ld line : Nat) (shared : Bool) (t : BackInv), s.awaited link ld line = some t) ∧
    (∃ (s : State) (link ld line : Nat) (t : BackInv), s.awaited link ld line = some t ∧ ((s.event Ev.biConflicts link).reqs.find? (fun r => r.link == link && r.ld == ld && r.dpaLine == line && r.homed && !r.answered) = none)) ∧
    (∃ (s : State) (link ld line : Nat) (t : BackInv) (r : OpenReq), s.awaited link ld line = some t ∧ ((s.event Ev.biConflicts link).reqs.find? (fun r => r.link == link && r.ld == ld && r.dpaLine == line && r.homed && !r.answered) = some r)) ∧
    (∃ (s : State) (line : Nat) (t : BackInv), (s.hal.trackers.find? (fun t => t.line == line) = some t)) ∧
    (∃ (s t : State) (set k : Nat) (e : DirEntry), (s.freeDirWays set).length < s.rd HAL_TIMING.FREEWAYS ∧ s.trackerFree ∧ s.dirVictim set = some k ∧ s.hal.dir.find k = some e ∧ s.waitsFor e.line = [] ∧ s.evictDir k .background 0 = some t) ∧
    (∃ (s : State) (n : Nat), bit (s.rd HAL_HOSTSTAT.SWEEP) n) :=
  ⟨⟨{ State.reset with hal := { State.reset.hal with trackers := [sampleBi] } }, 1, 0, 5, false, sampleBi, by decide +kernel⟩,
   ⟨{ State.reset with hal := { State.reset.hal with trackers := [sampleBi] } }, 1, 0, 5, sampleBi, by decide +kernel⟩,
   ⟨{ State.reset with reqs := [sampleReq], hal := { State.reset.hal with trackers := [sampleBi] } }, 1, 0, 5, sampleBi, sampleReq, by decide +kernel⟩,
   ⟨{ State.reset with hal := { State.reset.hal with trackers := [sampleBi] } }, 5, sampleBi, by decide +kernel⟩,
   ⟨usedSet, (usedSet.evictDir 0 .background 0).getD State.reset, 0, 0, { line := 0, exclusive := false, holders := [0] }, by decide +kernel⟩,
   ⟨State.reset.wr HAL_HOSTSTAT.SWEEP 4, 2, by decide +kernel⟩⟩


theorem witness_SlicesAndQueues :
    (∃ (s : State) (p : Path) (n : Nat), s.rdAt SLC_SEL.SLICE (pathCopy p) = n ∧ s.onAt SLC_CTL.ENABLE n = false ∧ s.sliceCheck n = 0) ∧
    (∃ (s : State) (p : Path) (n : Nat), s.rdAt SLC_SEL.SLICE (pathCopy p) = n ∧ s.onAt SLC_CTL.ENABLE n ∧ s.onAt SLC_STAT.RESETTING n = false) ∧
    (∃ (s : State) (n : Nat), s.onAt SLC_CTL.RESET n ∧ s.que.removing.has n = false) ∧
    (∃ (s : State) (p : Path) (n : Nat), s.rdAt SLC_SEL.SLICE (pathCopy p) = n ∧ n ≠ 0 ∧ s.onAt SLC_CTL.ENABLE n ∧ s.sliceInUse n = false) ∧
    (∃ (s : State) (n : Nat), s.que.removing.has n) ∧
    (∃ (s u : State) (p : Path) (v page : Nat), s.rdAt SLC_DBSEL.PAGE (pathCopy p) = page ∧ u = s.storeFields [SLC_DBOWN.SLICE] page v ∧ u.assignCheck page = 0) ∧
    (∃ (s u : State) (p : Path) (v page : Nat), s.rdAt SLC_DBSEL.PAGE (pathCopy p) = page ∧ u = s.storeFields [SLC_DBOWN.SLICE] page v ∧ u.pageBusy page = false) ∧
    (∃ (s : State) (p : Path) (q : Nat) (bme msix : Bool), s.rdAt QUE_SEL.QID (pathCopy p) = q ∧ s.onAt QUE_CTL.ENABLE q = false ∧ s.rdAt QUE_STAT.STATE q = queDisabled ∧ s.enableCheck q bme msix = 0) ∧
    (∃ (s : State) (p : Path) (q : Nat), s.rdAt QUE_SEL.QID (pathCopy p) = q ∧ (s.rdAt QUE_STAT.STATE q = queEnabled ∨ s.rdAt QUE_STAT.STATE q = queError)) ∧
    (∃ (s : State) (q : Nat), s.rdAt QUE_STAT.STATE q = queStopping ∧ (s.que.descs.all (fun d => d.queue != q) = true)) ∧
    (∃ (s : State) (p : Path) (q : Nat) (bme msix : Bool), s.rdAt QUE_SEL.QID (pathCopy p) = q ∧ s.resizeCheck q bme msix = 0) ∧
    (∃ (s : State) (q : Nat), s.onAt QUE_CTL.RESIZE q ∧ s.rdAt QUE_STAT.STATE q = queEnabled ∧ s.drained q) ∧
    (∃ (s : State) (q : Nat) (ws : List Nat), s.mayFetch q) ∧
    (∃ (s : State) (q : Nat), s.mayFetch q) ∧
    (∃ (s : State) (q : Nat) (d : Desc), s.nextDone q = some d ∧ d.gen = (s.removeDesc d).rdAt SLC_STAT.GEN d.slice ∧ ¬((s.removeDesc d).rdAt QUE_STAT.STATE q = queError ∧ (s.removeDesc d).rdAt QUE_STAT.ERRCAUSE q = 4)) ∧
    (∃ (s : State) (q : Nat) (d : Desc), s.nextDone q = some d ∧ d.gen ≠ (s.removeDesc d).rdAt SLC_STAT.GEN d.slice) ∧
    (∃ (s : State) (q : Nat), s.rdAt QUE_STAT.STATE q ≠ queDisabled) :=
  ⟨⟨(State.reset.put SYS_CTL.DEV_ENABLE true).wrAt SLC_SEL.SLICE 0 7, .bar2, 7, by decide +kernel⟩,
   ⟨(State.reset.putAt SLC_CTL.ENABLE 7 true).wrAt SLC_SEL.SLICE 0 7, .bar2, 7, by decide +kernel⟩,
   ⟨State.reset.putAt SLC_CTL.RESET 7 true, 7, by decide +kernel⟩,
   ⟨(State.reset.putAt SLC_CTL.ENABLE 7 true).wrAt SLC_SEL.SLICE 0 7, .bar2, 7, by decide +kernel⟩,
   ⟨{ State.reset with que := { State.reset.que with removing := [7] } }, 7, by decide +kernel⟩,
   ⟨State.reset.putAt SLC_CTL.ENABLE 7 true, (State.reset.putAt SLC_CTL.ENABLE 7 true).storeFields [SLC_DBOWN.SLICE] 0 458752, .bar2, 458752, 0, by decide +kernel⟩,
   ⟨State.reset.putAt SLC_DBOWN.OWNED 0 true, (State.reset.putAt SLC_DBOWN.OWNED 0 true).storeFields [SLC_DBOWN.SLICE] 0 458752, .bar2, 458752, 0, by decide +kernel⟩,
   ⟨(((((State.reset.putAt SLC_CTL.ENABLE 7 true).putAt SLC_DBOWN.OWNED 0 true).wrAt SLC_DBOWN.OWNER 0 7).wrAt QUE_CFG.DEPTHLOG 0 4).wrAt QUE_CQBASE.ADDR 0 9), .bar2, 0, true, true, by decide +kernel⟩,
   ⟨State.reset.wrAt QUE_STAT.STATE 0 1, .bar2, 0, by decide +kernel⟩,
   ⟨State.reset.wrAt QUE_STAT.STATE 3 2, 3, by decide +kernel⟩,
   ⟨((((((State.reset.putAt SLC_CTL.ENABLE 7 true).putAt SLC_DBOWN.OWNED 0 true).wrAt SLC_DBOWN.OWNER 0 7).wrAt QUE_NEXTSQ.DEPTHLOG 0 4).wrAt QUE_NEXTCQ.ADDR 0 9)).wrAt QUE_STAT.STATE 0 1, .bar2, 0, true, true, by decide +kernel⟩,
   ⟨(State.reset.putAt QUE_CTL.RESIZE 3 true).wrAt QUE_STAT.STATE 3 1, 3, by decide +kernel⟩,
   ⟨fetching, 0, [0, 0, 0, 0, 0, 0, 0, 0], by decide +kernel⟩,
   ⟨fetching, 0, by decide +kernel⟩,
   ⟨(running 0 0).finishDesc 0 0 0 0, 0, { (descOf 0 0) with status := some 0 }, by decide +kernel⟩,
   ⟨((running 0 0).finishDesc 0 0 0 0).wrAt SLC_STAT.GEN 0 3, 0, { (descOf 0 0) with status := some 0 }, by decide +kernel⟩,
   ⟨State.reset.wrAt QUE_STAT.STATE 3 1, 3, by decide +kernel⟩⟩


theorem witness_Descriptors :
    (∃ (s : State) (q i : Nat) (d : Desc), s.runs q i 0x00 d) ∧
    (∃ (s : State) (q i : Nat) (d : Desc) (fs : Finds), s.runs q i 0x01 d) ∧
    (∃ (s : State) (q i : Nat) (d : Desc), s.runs q i 0x02 d) ∧
    (∃ (s : State) (q i : Nat) (d : Desc), s.runs q i 0x03 d) ∧
    (∃ (s : State) (q i : Nat) (d : Desc) (fs : Finds), s.runs q i 0x04 d) ∧
    (∃ (s : State) (q i : Nat) (d : Desc), s.runs q i 0x08 d) ∧
    (∃ (s : State) (q i : Nat) (d : Desc), s.runs q i 0x09 d) ∧
    (∃ (s : State) (q i : Nat) (d : Desc), s.runs q i 0x0A d) ∧
    (∃ (s : State) (q i : Nat) (d : Desc), s.runs q i 0x0B d) ∧
    (∃ (s : State) (q i : Nat) (d : Desc) (fs : Finds), s.runs q i 0x0C d) ∧
    (∃ (s : State) (q i : Nat) (d : Desc), s.runs q i 0x0D d) ∧
    (∃ (s : State) (q i : Nat) (d : Desc) (fs : Finds), s.runs q i 0x0E d) ∧
    (∃ (s : State) (q i : Nat) (d : Desc), s.runs q i 0x10 d) ∧
    (∃ (s : State) (q i : Nat) (d : Desc), s.runs q i 0x18 d) ∧
    (∃ (s : State) (q i : Nat) (d : Desc), s.runs q i 0x19 d) ∧
    (∃ (s : State) (q i : Nat) (d : Desc), s.runs q i 0x1A d) ∧
    (∃ (s : State) (q i : Nat) (d : Desc) (header : List Byte), s.runs q i 0x1B d) ∧
    (∃ (s : State) (q i : Nat) (d : Desc), s.runs q i 0x1F d) :=
  ⟨⟨running 0x00 0, 0, 0, descOf 0x00 0, by decide +kernel⟩,
   ⟨running 0x01 64, 0, 0, descOf 0x01 64, {}, by decide +kernel⟩,
   ⟨running 0x02 64, 0, 0, descOf 0x02 64, by decide +kernel⟩,
   ⟨running 0x03 64, 0, 0, descOf 0x03 64, by decide +kernel⟩,
   ⟨running 0x04 64, 0, 0, descOf 0x04 64, {}, by decide +kernel⟩,
   ⟨running 0x08 4096, 0, 0, descOf 0x08 4096, by decide +kernel⟩,
   ⟨running 0x09 4096, 0, 0, descOf 0x09 4096, by decide +kernel⟩,
   ⟨running 0x0A 4096, 0, 0, descOf 0x0A 4096, by decide +kernel⟩,
   ⟨running 0x0B 4096, 0, 0, descOf 0x0B 4096, by decide +kernel⟩,
   ⟨running 0x0C 64, 0, 0, descOf 0x0C 64, {}, by decide +kernel⟩,
   ⟨running 0x0D 64, 0, 0, descOf 0x0D 64, by decide +kernel⟩,
   ⟨running 0x0E 64, 0, 0, descOf 0x0E 64, {}, by decide +kernel⟩,
   ⟨running 0x10 0, 0, 0, descOf 0x10 0, by decide +kernel⟩,
   ⟨running 0x18 0, 0, 0, descOf 0x18 0, by decide +kernel⟩,
   ⟨running 0x19 0, 0, 0, descOf 0x19 0, by decide +kernel⟩,
   ⟨running 0x1A 0, 0, 0, descOf 0x1A 0, by decide +kernel⟩,
   ⟨running 0x1B 64, 0, 0, descOf 0x1B 64, [], by decide +kernel⟩,
   ⟨running 0x1F 0, 0, 0, descOf 0x1F 0, by decide +kernel⟩⟩


theorem witness_RegulatorCommands : ∃ (s : State), s.profileCheck = 0 :=
  ⟨((List.range 15).foldl (fun s m => if background m then s.wrAt QOS_BUCKET.RATE m 5 else s) State.reset), by decide +kernel⟩


theorem witness_ContrailLink :
    (∃ (s : State), s.on CON_CTL.LINKEN = false) ∧
    (∃ (s : State), s.on CON_CTL.LINKEN) ∧
    (∃ (s : State), s.linkUp) ∧
    (∃ (s : State), s.rd CON_STAT.STATE ≠ conOff ∧ s.rd CON_STAT.STATE ≠ conDown) ∧
    (∃ (s : State) (mask : Nat), s.linkUp) ∧
    (∃ (s : State) (b : Nat), s.linkUp ∧ s.con.readding.has b) ∧
    (∃ (s : State), s.rd CON_STAT.STATE = conDown ∧ s.on CON_CTL.LINKEN ∧ s.rd PWR_STAT.STATE < 2) ∧
    (∃ (s : State) (t : ConStep) (rx tx : List Nat), (s.rd CON_STAT.STATE = conTraining ∨ s.rd CON_STAT.STATE = conRetrain) ∧ s.con.trainStep = 2) ∧
    (∃ (s : State) (h : RxHead), s.rd CON_STAT.STATE = conTraining ∧ s.con.trainStep = 5) ∧
    (∃ (s : State) (h : RxHead), s.rd CON_STAT.STATE = conRetrain ∧ s.con.trainStep = 5) ∧
    (∃ (s : State) (b n : Nat) (x : Codeword), s.linkUp ∧ x.corrected = some n) ∧
    (∃ (s : State) (b : Nat) (x : Codeword), s.linkUp ∧ x.corrected = none) ∧
    (∃ (s : State), s.linkUp ∧ s.con.unacked ≠ []) ∧
    (∃ (s : State), s.rd CON_STAT.STATE = conRetrain) ∧
    (∃ (s : State), s.rd CON_STAT.STATE = conKeying) ∧
    (∃ (s : State), s.linkUp ∧ 0 < s.con.accepted) ∧
    (∃ (s : State), s.linkUp ∧ s.heartGood) ∧
    (∃ (s : State), s.linkUp) ∧
    (∃ (s : State) (b lane : Nat) (locked : Bool), s.linkUp ∧ bit s.con.rxMap b ∧ s.spareFree b locked) ∧
    (∃ (s : State) (b lane : Nat) (locked : Bool), s.linkUp ∧ bit s.con.rxMap b ∧ s.spareFree b locked = false) ∧
    (∃ (s : State) (b lane : Nat), s.linkUp ∧ s.con.swapAsked.find b = some lane) ∧
    (∃ (s : State) (b : Nat), s.linkUp ∧ bit s.con.rxMap b) :=
  ⟨⟨State.reset, by decide +kernel⟩,
   ⟨State.reset.put CON_CTL.LINKEN true, by decide +kernel⟩,
   ⟨linkOn, by decide +kernel⟩,
   ⟨linkOn, by decide +kernel⟩,
   ⟨linkOn, 4, by decide +kernel⟩,
   ⟨{ linkOn with con := { linkOn.con with readding := [2] } }, 2, by decide +kernel⟩,
   ⟨(State.reset.put CON_CTL.LINKEN true).wr CON_STAT.STATE conDown, by decide +kernel⟩,
   ⟨{ (State.reset.wr CON_STAT.STATE conTraining) with con := { State.reset.con with trainStep := 2 } }, .lock, [511, 511, 511], [511, 511, 511], by decide +kernel⟩,
   ⟨{ (State.reset.wr CON_STAT.STATE conTraining) with con := { State.reset.con with trainStep := 5 } }, { seq := 0 }, by decide +kernel⟩,
   ⟨{ (State.reset.wr CON_STAT.STATE conRetrain) with con := { State.reset.con with trainStep := 5 } }, { seq := 0 }, by decide +kernel⟩,
   ⟨linkOn, 1, 3, { corrected := some 3 }, by decide +kernel⟩,
   ⟨linkOn, 1, { corrected := none }, by decide +kernel⟩,
   ⟨{ linkOn with con := { linkOn.con with unacked := [(0, .keyx)] } }, by decide +kernel⟩,
   ⟨State.reset.wr CON_STAT.STATE conRetrain, by decide +kernel⟩,
   ⟨State.reset.wr CON_STAT.STATE conKeying, by decide +kernel⟩,
   ⟨{ linkOn with con := { linkOn.con with accepted := 1 } }, by decide +kernel⟩,
   ⟨{ (linkOn.put ENG_STAT.ZENITH_UP true) with chip := { linkOn.chip with petted := true } }, by decide +kernel⟩,
   ⟨linkOn, by decide +kernel⟩,
   ⟨linkOn, 1, 3, true, by decide +kernel⟩,
   ⟨linkOn, 1, 3, false, by decide +kernel⟩,
   ⟨{ linkOn with con := { linkOn.con with swapAsked := [(1, 3)] } }, 1, 3, by decide +kernel⟩,
   ⟨linkOn, 2, by decide +kernel⟩⟩


theorem witness_ContrailPackets :
    (∃ (s t : State) (h : RxHead) (jseq : Nat) (lines : List MirrorLine), s.acceptSeq h .mw (Packet.mw jseq lines).credits = (true, t)) ∧
    (∃ (s t : State) (h : RxHead) (lines : List MirrorLine), s.acceptSeq h .rs (Packet.rsw lines).credits = (true, t)) ∧
    (∃ (s t : State) (h : RxHead) (n offset : Nat) (bytes : List Byte), s.acceptSeq h .rs (Packet.stream n offset bytes).credits = (true, t) ∧ (t.slot n).receive ∧ t.slotState n = slotDraining ∧ offset ≤ (t.slot n).stream.length) ∧
    (∃ (s t : State) (h : RxHead) (reply : Bool), s.rd CON_STAT.STATE = conKeying ∧ s.acceptSeq h .ct (Packet.keyx).credits = (true, t)) ∧
    (∃ (s : State) (h : RxHead), s.linkUp) ∧
    (∃ (s : State) (h : RxHead) (ts peer epoch : Nat), s.linkUp) ∧
    (∃ (s : State) (h : RxHead) (b lane : Nat), s.linkUp ∧ bit ((s.takeHead h).rd CON_STAT.BUNDLES) b ∧ (s.takeHead h).rd CON_STAT.BUNDLES ≠ 2 ^ b) ∧
    (∃ (s : State) (h : RxHead) (b lane : Nat), s.linkUp ∧ bit ((s.takeHead h).rd CON_STAT.BUNDLES) b ∧ spareOf ((s.takeHead h).rd CON_STAT.TXSPARE) b = 0xF) ∧
    (∃ (s t : State) (h : RxHead) (phase dir : Nat), s.acceptSeq h .ct (Packet.ctrl (.keyRenew phase dir)).credits = (true, t)) ∧
    (∃ (s t : State) (h : RxHead) (phase dir : Nat), s.acceptSeq h .ct (Packet.ctrl (.keyRenewAck phase dir)).credits = (true, t) ∧ t.con.renewing ∧ phase = 1 - t.rd CON_STAT.KEYPHASE) ∧
    (∃ (s : State), s.linkUp ∧ s.con.renewing = false ∧ 2 ^ 32 ≤ s.con.txCount) :=
  ⟨⟨linkOn, (linkOn.acceptSeq { seq := 0 } .mw (Packet.mw 0 []).credits).2, { seq := 0 }, 0, [], by decide +kernel⟩,
   ⟨linkOn, (linkOn.acceptSeq { seq := 0 } .rs (Packet.rsw []).credits).2, { seq := 0 }, [], by decide +kernel⟩,
   ⟨receiving, (receiving.acceptSeq { seq := 0 } .rs (Packet.stream 0 0 [1, 2]).credits).2, { seq := 0 }, 0, 0, [1, 2], by decide +kernel⟩,
   ⟨State.reset.wr CON_STAT.STATE conKeying, ((State.reset.wr CON_STAT.STATE conKeying).acceptSeq { seq := 0 } .ct (Packet.keyx).credits).2, { seq := 0 }, true, by decide +kernel⟩,
   ⟨linkOn, { seq := 0, ack := some 4095 }, by decide +kernel⟩,
   ⟨linkOn, { seq := 0 }, 5, 0, 0, by decide +kernel⟩,
   ⟨linkOn, { seq := 0 }, 2, 0, by decide +kernel⟩,
   ⟨linkOn, { seq := 0 }, 2, 5, by decide +kernel⟩,
   ⟨linkOn, (linkOn.acceptSeq { seq := 0 } .ct (Packet.ctrl (.keyRenew 1 0)).credits).2, { seq := 0 }, 1, 0, by decide +kernel⟩,
   ⟨{ linkOn with con := { linkOn.con with renewing := true } }, (({ linkOn with con := { linkOn.con with renewing := true } } : State).acceptSeq { seq := 0 } .ct (Packet.ctrl (.keyRenewAck 1 0)).credits).2, { seq := 0 }, 1, 0, by decide +kernel⟩,
   ⟨{ linkOn with con := { linkOn.con with txCount := 2 ^ 32 } }, by decide +kernel⟩⟩


theorem witness_PairManager :
    (∃ (s : State) (p : PeerParams), s.pairCheck none = 0xC1 ∧ s.linkUp ∧ s.sendParams.freshPeer = some p) ∧
    (∃ (s : State), s.pairState = pairTakenOver) ∧
    (∃ (s : State), s.pair.enabling) ∧
    (∃ (s : State) (force : Bool), (s.put PAR_CTL.FORCE force).takeoverCheck = 0) ∧
    (∃ (s : State), s.givebackCheck = 0) ∧
    (∃ (s : State), s.pairState ≠ pairAlone ∧ s.pairState ≠ pairFenced) ∧
    (∃ (s : State), s.pairState = pairFenced) ∧
    (∃ (s u : State), s.pair.discarding ∧ s.committed = [] ∧ s.releasing = [] ∧ u = ({ s with pair := { s.pair with discarding := false } } : State).endDiscards) ∧
    (∃ (s : State), s.on PAR_STAT.UNRESP ∧ s.linkUp ∧ (s.pairState = pairMirrored ∨ s.pairState = pairResync)) ∧
    (∃ (s : State), s.on PAR_STAT.UNRESP ∧ s.linkUp = false ∧ (s.abortPartnerSlots.pairState = pairMirrored ∨ s.abortPartnerSlots.pairState = pairResync)) ∧
    (∃ (s : State), s.pair.journal ≠ []) ∧
    (∃ (s : State) (fs : Finds) (k : Nat), (s.pair.outbits.find? (fun k => !s.pair.sent.has k) = some k) ∧ s.sendsStripes ∧ s.stripePanics k = false) ∧
    (∃ (s : State), s.linkUp ∧ s.pairState ≠ pairAlone) ∧
    (∃ (s : State) (n : Nat), (s.slot n).waitPartner) :=
  ⟨⟨pairable, pairable.ownParams, by decide +kernel⟩,
   ⟨State.reset.wr PAR_STAT.STATE pairTakenOver, by decide +kernel⟩,
   ⟨{ State.reset with pair := { State.reset.pair with enabling := true } }, by decide +kernel⟩,
   ⟨(State.reset.wr PAR_STAT.STATE pairExposed).wr PAR_TAKEOVER.EPOCH 1, true, by decide +kernel⟩,
   ⟨((State.reset.wr PAR_STAT.STATE pairMirrored).wr PAR_STAT.HOME 3).wr PAR_TAKEOVER.EPOCH 1, by decide +kernel⟩,
   ⟨State.reset.wr PAR_STAT.STATE pairExposed, by decide +kernel⟩,
   ⟨State.reset.wr PAR_STAT.STATE pairFenced, by decide +kernel⟩,
   ⟨{ (State.reset.wr PAR_STAT.STATE pairFenced) with pair := { State.reset.pair with discarding := true } }, ({ (State.reset.wr PAR_STAT.STATE pairFenced) with pair := { State.reset.pair with discarding := false } } : State).endDiscards, by decide +kernel⟩,
   ⟨(linkOn.put PAR_STAT.UNRESP true).wr PAR_STAT.STATE pairMirrored, by decide +kernel⟩,
   ⟨(State.reset.put PAR_STAT.UNRESP true).wr PAR_STAT.STATE pairMirrored, by decide +kernel⟩,
   ⟨{ State.reset with pair := { State.reset.pair with journal := [sampleEntry] } }, by decide +kernel⟩,
   ⟨{ (linkOn.wr PAR_STAT.STATE pairResync) with pair := { State.reset.pair with outbits := [4] } }, {}, 4, by decide +kernel⟩,
   ⟨linkOn.wr PAR_STAT.STATE pairExposed, by decide +kernel⟩,
   ⟨State.reset.setSlot 2 { waitPartner := true }, 2, by decide +kernel⟩⟩


theorem witness_PairMessages :
    (∃ (s u : State) (h : RxHead) (jseq : Nat), s.acceptSeq h .ct (Packet.ctrl (.mirack jseq)).credits = (true, u)) ∧
    (∃ (s u : State) (h : RxHead) (k : Nat), s.acceptSeq h .ct (Packet.ctrl (.stripeDone k)).credits = (true, u)) ∧
    (∃ (s u : State) (h : RxHead) (k : Nat), s.acceptSeq h .ct (Packet.ctrl (.stripeAck k)).credits = (true, u) ∧ u.pair.sent.has k) ∧
    (∃ (s u : State) (h : RxHead) (dpn n : Nat), s.acceptSeq h .ct (Packet.ctrl (.unback dpn n)).credits = (true, u)) ∧
    (∃ (s u : State) (h : RxHead) (line : Nat), s.acceptSeq h .ct (Packet.ctrl (.fetch line)).credits = (true, u) ∧ u.pairState ≠ pairFenced) ∧
    (∃ (s u : State) (h : RxHead) (outbits journal epoch : Nat), s.acceptSeq h .ct (Packet.ctrl (.pstat outbits journal epoch)).credits = (true, u)) ∧
    (∃ (s u : State) (h : RxHead) (p : PeerParams), s.acceptSeq h .ct (Packet.ctrl (.params p)).credits = (true, u)) ∧
    (∃ (s u : State) (h : RxHead) (piece : Nat) (owners : Bool) (slices : List Nat), s.acceptSeq h .ct (Packet.ctrl (.sliceMap piece owners slices)).credits = (true, u)) ∧
    (∃ (s u : State) (h : RxHead) (epoch : Nat), s.acceptSeq h .ct (Packet.ctrl (.giveback epoch)).credits = (true, u) ∧ u.pairState = pairMirrored) ∧
    (∃ (s u : State) (h : RxHead) (c base size attr : Nat), s.acceptSeq h .ct (Packet.ctrl (.claimDef c base size attr)).credits = (true, u) ∧ u.pairState = pairMirrored ∧ u.pair.fwd = []) ∧
    (∃ (s u : State) (h : RxHead) (c : Nat), s.acceptSeq h .ct (Packet.ctrl (.claimRel c)).credits = (true, u) ∧ u.pairState = pairMirrored ∧ u.pair.fwd = []) ∧
    (∃ (s u : State) (h : RxHead) (op code : Nat) (f : Forward), s.acceptSeq h .ct (Packet.ctrl (.result op code)).credits = (true, u) ∧ (u.pair.fwd.find? (fun f => f.claim == op) = some f)) :=
  ⟨⟨linkOn, (linkOn.acceptSeq { seq := 0 } .ct (Packet.ctrl (.mirack 4)).credits).2, { seq := 0 }, 4, by decide +kernel⟩,
   ⟨linkOn, (linkOn.acceptSeq { seq := 0 } .ct (Packet.ctrl (.stripeDone 4)).credits).2, { seq := 0 }, 4, by decide +kernel⟩,
   ⟨{ linkOn with pair := { linkOn.pair with outbits := [4], sent := [4] } }, (({ linkOn with pair := { linkOn.pair with outbits := [4], sent := [4] } }).acceptSeq { seq := 0 } .ct (Packet.ctrl (.stripeAck 4)).credits).2, { seq := 0 }, 4, by decide +kernel⟩,
   ⟨linkOn, (linkOn.acceptSeq { seq := 0 } .ct (Packet.ctrl (.unback 4 2)).credits).2, { seq := 0 }, 4, 2, by decide +kernel⟩,
   ⟨linkOn, (linkOn.acceptSeq { seq := 0 } .ct (Packet.ctrl (.fetch 4)).credits).2, { seq := 0 }, 4, by decide +kernel⟩,
   ⟨linkOn, (linkOn.acceptSeq { seq := 0 } .ct (Packet.ctrl (.pstat 0 0 0)).credits).2, { seq := 0 }, 0, 0, 0, by decide +kernel⟩,
   ⟨linkOn, (linkOn.acceptSeq { seq := 0 } .ct (Packet.ctrl (.params linkOn.ownParams)).credits).2, { seq := 0 }, linkOn.ownParams, by decide +kernel⟩,
   ⟨linkOn, (linkOn.acceptSeq { seq := 0 } .ct (Packet.ctrl (.sliceMap 1 true [3])).credits).2, { seq := 0 }, 1, true, [3], by decide +kernel⟩,
   ⟨linkOn.wr PAR_STAT.STATE pairMirrored, ((linkOn.wr PAR_STAT.STATE pairMirrored).acceptSeq { seq := 0 } .ct (Packet.ctrl (.giveback 3)).credits).2, { seq := 0 }, 3, by decide +kernel⟩,
   ⟨linkOn.wr PAR_STAT.STATE pairMirrored, ((linkOn.wr PAR_STAT.STATE pairMirrored).acceptSeq { seq := 0 } .ct (Packet.ctrl (.claimDef 1 2 3 4)).credits).2, { seq := 0 }, 1, 2, 3, 4, by decide +kernel⟩,
   ⟨linkOn.wr PAR_STAT.STATE pairMirrored, ((linkOn.wr PAR_STAT.STATE pairMirrored).acceptSeq { seq := 0 } .ct (Packet.ctrl (.claimRel 1)).credits).2, { seq := 0 }, 1, by decide +kernel⟩,
   ⟨{ linkOn with pair := { linkOn.pair with fwd := [.commit 5] } }, (({ linkOn with pair := { linkOn.pair with fwd := [.commit 5] } }).acceptSeq { seq := 0 } .ct (Packet.ctrl (.result 5 0)).credits).2, { seq := 0 }, 5, 0, .commit 5, by decide +kernel⟩⟩


theorem witness_PairSnapshotAndSealMessages :
    (∃ (s u : State) (h : RxHead) (op slot slice size claim sid : Nat), s.acceptSeq h .ct (Packet.ctrl (.rxOpen op slot slice size claim sid)).credits = (true, u)) ∧
    (∃ (s u : State) (h : RxHead) (op slot n : Nat), s.acceptSeq h .ct (Packet.ctrl (.rxResult op slot 0)).credits = (true, u) ∧ u.armingSlot op = some n) ∧
    (∃ (s u : State) (h : RxHead) (op n cause : Nat), s.acceptSeq h .ct (Packet.ctrl (.rxClose op n cause)).credits = (true, u) ∧ (u.slot n).receive ∧ (u.slot n).op = op) ∧
    (∃ (s u : State) (h : RxHead) (op n cause : Nat), s.acceptSeq h .ct (Packet.ctrl (.rxClose op n cause)).credits = (true, u) ∧ (u.slot n).receive = false) ∧
    (∃ (s u : State) (h : RxHead) (op c : Nat), s.acceptSeq h .ct (Packet.ctrl (.sealEn op c)).credits = (true, u) ∧ u.sealCheck c = 0) ∧
    (∃ (s u : State) (h : RxHead) (op c : Nat), s.acceptSeq h .ct (Packet.ctrl (.sealEn op c)).credits = (true, u) ∧ u.sealCheck c ≠ 0) ∧
    (∃ (s u : State) (h : RxHead) (op c : Nat), s.acceptSeq h .ct (Packet.ctrl (.sealRes op 0)).credits = (true, u) ∧ u.sec.enabling.find op = some c) ∧
    (∃ (s u : State) (h : RxHead) (op c level index : Nat), s.acceptSeq h .ct (Packet.ctrl (.refetch op c level index)).credits = (true, u)) ∧
    (∃ (s u : State) (h : RxHead) (r lines : Nat), s.acceptSeq h .ct (Packet.ctrl (.refDone r lines)).credits = (true, u) ∧ r < 64 ∧ u.onAt SEC_BREACH.VALID r ∧ u.rdAt SEC_BREACH.PROGRESS r = recoverRefetch) ∧
    (∃ (s u : State) (h : RxHead) (ref slot key : Nat), s.acceptSeq h .ct (Packet.ctrl (.xkey ref slot key)).credits = (true, u) ∧ u.sec.loaded.length < 256) ∧
    (∃ (s u : State) (h : RxHead) (ref st : Nat), s.acceptSeq h .ct (Packet.ctrl (.xkeyAck ref st)).credits = (true, u)) :=
  ⟨⟨linkOn, (linkOn.acceptSeq { seq := 0 } .ct (Packet.ctrl (.rxOpen 1 2 3 4 5 6)).credits).2, { seq := 0 }, 1, 2, 3, 4, 5, 6, by decide +kernel⟩,
   ⟨((linkOn.setSlot 0 { waitPartner := true }).wrAt SNP_STREAMID.STREAMID 0 7), (((linkOn.setSlot 0 { waitPartner := true }).wrAt SNP_STREAMID.STREAMID 0 7).acceptSeq { seq := 0 } .ct (Packet.ctrl (.rxResult 7 3 0)).credits).2, { seq := 0 }, 7, 3, 0, by decide +kernel⟩,
   ⟨linkOn.setSlot 3 { receive := true, op := 7 }, ((linkOn.setSlot 3 { receive := true, op := 7 }).acceptSeq { seq := 0 } .ct (Packet.ctrl (.rxClose 7 3 0)).credits).2, { seq := 0 }, 7, 3, 0, by decide +kernel⟩,
   ⟨linkOn, (linkOn.acceptSeq { seq := 0 } .ct (Packet.ctrl (.rxClose 7 3 0)).credits).2, { seq := 0 }, 7, 3, 0, by decide +kernel⟩,
   ⟨sealable, (sealable.acceptSeq { seq := 0 } .ct (Packet.ctrl (.sealEn 7 0)).credits).2, { seq := 0 }, 7, 0, by decide +kernel⟩,
   ⟨linkOn, (linkOn.acceptSeq { seq := 0 } .ct (Packet.ctrl (.sealEn 7 0)).credits).2, { seq := 0 }, 7, 0, by decide +kernel⟩,
   ⟨{ linkOn with sec := { linkOn.sec with enabling := [(7, 0)] } }, (({ linkOn with sec := { linkOn.sec with enabling := [(7, 0)] } }).acceptSeq { seq := 0 } .ct (Packet.ctrl (.sealRes 7 0)).credits).2, { seq := 0 }, 7, 0, by decide +kernel⟩,
   ⟨linkOn, (linkOn.acceptSeq { seq := 0 } .ct (Packet.ctrl (.refetch 7 0 1 0)).credits).2, { seq := 0 }, 7, 0, 1, 0, by decide +kernel⟩,
   ⟨((linkOn.putAt SEC_BREACH.VALID 2 true).wrAt SEC_BREACH.PROGRESS 2 recoverRefetch), (((linkOn.putAt SEC_BREACH.VALID 2 true).wrAt SEC_BREACH.PROGRESS 2 recoverRefetch).acceptSeq { seq := 0 } .ct (Packet.ctrl (.refDone 2 64)).credits).2, { seq := 0 }, 2, 64, by decide +kernel⟩,
   ⟨linkOn, (linkOn.acceptSeq { seq := 0 } .ct (Packet.ctrl (.xkey 2 0 9)).credits).2, { seq := 0 }, 2, 0, 9, by decide +kernel⟩,
   ⟨linkOn, (linkOn.acceptSeq { seq := 0 } .ct (Packet.ctrl (.xkeyAck 2 0)).credits).2, { seq := 0 }, 2, 0, by decide +kernel⟩⟩


theorem witness_EngineCommands :
    (∃ (s : State) (n line c : Nat) (data : Line) (mask : ByteMask) (fs : Finds), s.coreRuns n ∧ (s.takeUnits masterService 1).claimOf (line * 64) = some c ∧ (s.takeUnits masterService 1).onAt MAP_CLAIMATTR.SEALED c = false) ∧
    (∃ (s : State) (n line c : Nat) (fs : Finds) (l : Line) (t : State), s.coreRuns n ∧ (s.takeUnits masterService 1).claimOf (line * 64) = some c ∧ (s.takeUnits masterService 1).onAt MAP_CLAIMATTR.SEALED c = false ∧ (s.takeUnits masterService 1).deviceRead line fs = (some (l, false), t)) ∧
    (∃ (s u : State) (n : Nat) (w : CoreWork) (va stag : Nat) (a : CoreAccess) (handler : Bool) (finds : List (Nat × Ecc)) (fs : Finds) (e : TlbEntry), s.doWork n w = u ∧ u.walks n ∧ va < 2 ^ 40 ∧ (u.core n).fixedWindow va = none ∧ stag = bits (((u.core n).ctl.find corePtroot).getD 0) 48 8 ∧ (((u.core n).tlb a).find? (fun e => e.hits stag (va / 4096)) = some e)) ∧
    (∃ (s u v t : State) (n : Nat) (w : CoreWork) (va root stag : Nat) (a : CoreAccess) (handler : Bool) (finds : List (Nat × Ecc)) (fs : Finds) (d : Nat), s.doWork n w = u ∧ u.walks n ∧ va < 2 ^ 40 ∧ (u.core n).fixedWindow va = none ∧ root = ((u.core n).ctl.find corePtroot).getD 0 ∧ stag = bits root 48 8 ∧ (((u.core n).tlb a).find? (fun e => e.hits stag (va / 4096)) = none) ∧ ((u.core n).ltlb.find? (fun e => e.hits stag (va / 4096)) = none) ∧ v = ((u.event Ev.tlbMisses 0).event Ev.tlbMisses 1).event Ev.walks 0 ∧ v.walk n va finds fs [0, 1, 2] (bits root 11 37 * 2 ^ 11) 0 = (.leaf d, t)) ∧
    (∃ (s : State) (n : Nat) (w : CoreWork) (length : Nat), s.calls n w) ∧
    (∃ (s : State) (n : Nat) (w : CoreWork), s.calls n w ∧ ((s.doWork n w).enterCall n).on SEC_VEILSTAT.ROTATING = false) ∧
    (∃ (s : State) (n : Nat) (w : CoreWork) (x : Image) (type : Nat), s.calls n w ∧ 1 ≤ type ∧ type ≤ 3 ∧ ((s.doWork n w).enterCall n).imageCause x type = 0) ∧
    (∃ (s : State) (n : Nat) (w : CoreWork) (type : Nat), s.calls n w) ∧
    (∃ (s : State) (n : Nat) (w : CoreWork) (target : Nat), s.calls n w ∧ target < 46 ∧ (((s.doWork n w).enterCall n).core target).halted) ∧
    (∃ (s : State) (n : Nat), s.coreRuns n ∧ n ≠ steward ∧ (s.core n).level = .hypervisor) ∧
    (∃ (s u : State) (n : Nat) (w : CoreWork), s.doWork n w = u ∧ u.coreRuns n ∧ n ≠ steward ∧ (u.core n).level ≠ .hypervisor) ∧
    (∃ (s u : State) (n : Nat) (w : CoreWork) (ipa cause : Nat), s.doWork n w = u ∧ u.coreRuns n ∧ n ≠ steward ∧ (u.core n).level ≠ .hypervisor) ∧
    (∃ (s u : State) (n : Nat) (w : CoreWork), s.doWork n w = u ∧ u.coreRuns n ∧ (u.core n).stop = none ∧ (u.core n).level ≠ .user ∧ (u.core n).portBusy = false) ∧
    (∃ (s u : State) (n : Nat) (w : CoreWork) (v : Nat), s.doWork n w = u ∧ u.coreRuns n ∧ n ≠ steward ∧ (u.core n).stop = none ∧ (u.core n).level ≠ .user ∧ (bits v 0 2 = 3 → (u.core n).level ≠ .supervisor)) ∧
    (∃ (s : State) (mask : Nat), s.rd ENG_TLBINV.CORES = 0) ∧
    (∃ (s : State) (n : Nat), bit (s.rd ENG_TLBINV.CORES) n) ∧
    (∃ (s : State), s.rd PWR_STAT.STATE ≠ pwrNight) :=
  ⟨⟨claimed.wr ENG_STAT.CORES 1, 0, 0, 0, 7, 1, {}, by decide +kernel⟩,
   ⟨claimed.wr ENG_STAT.CORES 1, 0, 0, 0, {}, 0, ((claimed.wr ENG_STAT.CORES 1).takeUnits masterService 1).deviceRead 0 {} |>.2, by decide +kernel⟩,
   ⟨(State.reset.wr ENG_STAT.CORES 1).setCore 0 { dtlb := [⟨0, 5, 9, 9, true, true, false, false, true, true, false, false⟩] }, ((State.reset.wr ENG_STAT.CORES 1).setCore 0 { dtlb := [⟨0, 5, 9, 9, true, true, false, false, true, true, false, false⟩] }).doWork 0 {}, 0, {}, 0x5008, 0, .load, false, [], {}, ⟨0, 5, 9, 9, true, true, false, false, true, true, false, false⟩, by decide +kernel⟩,
   ⟨walking, walking.doWork 0 {}, (((walking.doWork 0 {}).event Ev.tlbMisses 0).event Ev.tlbMisses 1).event Ev.walks 0, (((walking.doWork 0 {}).event Ev.tlbMisses 0).event Ev.tlbMisses 1).event Ev.walks 0 |>.walk 0 0x5008 [] {} [0, 1, 2] 0 0 |>.2, 0, {}, 0x5008, 0, 0, .load, false, [], {}, walkLeaf, by decide +kernel⟩,
   ⟨State.reset.wr ENG_STAT.CORES 1, 0, {}, 64, by decide +kernel⟩,
   ⟨State.reset.wr ENG_STAT.CORES 1, 0, {}, by decide +kernel⟩,
   ⟨State.reset.wr ENG_STAT.CORES 1, 0, {}, goodImage 2, 2, by decide +kernel⟩,
   ⟨State.reset.wr ENG_STAT.CORES 1, 0, {}, 2, by decide +kernel⟩,
   ⟨(State.reset.wr ENG_STAT.CORES 1).setCore 7 { halted := true }, 0, {}, 7, by decide +kernel⟩,
   ⟨(State.reset.wr ENG_STAT.CORES 1).setCore 0 { level := .hypervisor, call := some (4, .supervisor) }, 0, by decide +kernel⟩,
   ⟨State.reset.wr ENG_STAT.CORES 1, (State.reset.wr ENG_STAT.CORES 1).doWork 0 {}, 0, {}, by decide +kernel⟩,
   ⟨State.reset.wr ENG_STAT.CORES 1, (State.reset.wr ENG_STAT.CORES 1).doWork 0 {}, 0, {}, 0, 0, by decide +kernel⟩,
   ⟨State.reset.wr ENG_STAT.CORES 1, (State.reset.wr ENG_STAT.CORES 1).doWork 0 {}, 0, {}, by decide +kernel⟩,
   ⟨State.reset.wr ENG_STAT.CORES 1, (State.reset.wr ENG_STAT.CORES 1).doWork 0 {}, 0, {}, 2, by decide +kernel⟩,
   ⟨State.reset, 5, by decide +kernel⟩,
   ⟨State.reset.wr ENG_TLBINV.CORES 5, 2, by decide +kernel⟩,
   ⟨State.reset, by decide +kernel⟩⟩


theorem witness_StartUpAndResets :
    (∃ (s : State) (straps : Straps) (t : State), s.chip.powered = false ∧ s.chip.tripped = false ∧ straps.testEn = false ∧ t = (((({ s with chip := { s.chip with straps := straps } } : State).senseFuses).put CLK_STAT.REFOK true).wr SYS_ID.PAIRID straps.pairId)) ∧
    (∃ (s : State), s.chip.powered) ∧
    (∃ (s : State), s.on CLK_STAT.ROOT ∧ s.chip.selfTest = false ∧ s.on SYS_BOOT.SELFTEST_FAIL = false) ∧
    (∃ (s : State), s.on CLK_STAT.ROOT ∧ s.chip.selfTest = false ∧ s.on SYS_BOOT.SELFTEST_FAIL = false) ∧
    (∃ (s : State), s.chip.selfTest) ∧
    (∃ (s : State) (b : Nat), s.chip.powered) ∧
    (∃ (s : State) (k : Nat), s.chip.powered) ∧
    (∃ (s : State) (a b : Image), s.chip.selfTest ∧ s.on ENG_STAT.ZENITH_UP = false ∧ s.rd ENG_BOOTSTAT.STAGE ≠ bootHalt ∧ ((s.noteImage 0 1 a).noteImage 3 1 b).imageCause a 1 = 0) ∧
    (∃ (s : State) (a b : Image) (t : State), s.chip.selfTest ∧ s.on ENG_STAT.ZENITH_UP = false ∧ s.rd ENG_BOOTSTAT.STAGE ≠ bootHalt ∧ t = (s.noteImage 0 1 a).noteImage 3 1 b ∧ t.imageCause a 1 ≠ 0 ∧ (t.rejectImage false (t.imageCause a 1)).imageCause b 1 ≠ 0) ∧
    (∃ (s : State) (a b : Image) (drift : List Image), s.on ENG_STAT.ZENITH_UP ∧ s.on ENG_STAT.HORIZON_UP = false ∧ s.chip.zenithOnly = false ∧ ((s.noteImage 1 2 a).noteImage 4 2 b).imageCause a 2 = 0) ∧
    (∃ (s : State), s.on SYS_CTL.DEV_ENABLE = false ∧ s.devEnableCheck = 0) ∧
    (∃ (s : State), s.on SYS_CTL.DEV_ENABLE ∧ s.inUse = false) ∧
    (∃ (s : State), s.warmCheck = 0) ∧
    (∃ (s : State) (fs : Finds) (ok : Bool), s.chip.warm = 3) ∧
    (∃ (s : State) (fs : Finds), s.chip.warm = 5) ∧
    (∃ (s : State) (fs : Finds) (ok : Bool), s.chip.warm = 6) ∧
    (∃ (s : State) (p : Path) (b : ResetBlock) (k : Nat) (ds : List Nat), blockNamed (s.rd RST_CTL.BLOCK) (s.rd RST_CTL.INDEX) = some (b, k, ds) ∧ s.on RST_CTL.WARM = false ∧ ds.find? s.held = none) ∧
    (∃ (s : State) (b : ResetBlock) (k d : Nat), (b, k) ∈ s.flt.blockResets) :=
  ⟨⟨State.reset, {}, (((({ State.reset with chip := { State.reset.chip with straps := {} } } : State).senseFuses).put CLK_STAT.REFOK true).wr SYS_ID.PAIRID 0), by decide +kernel⟩,
   ⟨{ State.reset with chip := { State.reset.chip with powered := true } }, by decide +kernel⟩,
   ⟨State.reset.put CLK_STAT.ROOT true, by decide +kernel⟩,
   ⟨State.reset.put CLK_STAT.ROOT true, by decide +kernel⟩,
   ⟨{ State.reset with chip := { State.reset.chip with selfTest := true } }, by decide +kernel⟩,
   ⟨{ State.reset with chip := { State.reset.chip with powered := true } }, 2, by decide +kernel⟩,
   ⟨{ State.reset with chip := { State.reset.chip with powered := true } }, 3, by decide +kernel⟩,
   ⟨{ State.reset with chip := { State.reset.chip with selfTest := true, fuses := { keyHash := ofBytesBig (sha384 (List.replicate 97 0)) } } }, goodImage 1, badImage, by decide +kernel⟩,
   ⟨{ State.reset with chip := { State.reset.chip with selfTest := true } }, badImage, badImage, ({ State.reset with chip := { State.reset.chip with selfTest := true } } : State).noteImage 0 1 badImage |>.noteImage 3 1 badImage, by decide +kernel⟩,
   ⟨State.reset.put ENG_STAT.ZENITH_UP true, goodImage 2, badImage, [], by decide +kernel⟩,
   ⟨trained, by decide +kernel⟩,
   ⟨State.reset.put SYS_CTL.DEV_ENABLE true, by decide +kernel⟩,
   ⟨State.reset, by decide +kernel⟩,
   ⟨{ State.reset with chip := { State.reset.chip with warm := 3 } }, {}, true, by decide +kernel⟩,
   ⟨{ State.reset with chip := { State.reset.chip with warm := 5 } }, {}, by decide +kernel⟩,
   ⟨{ State.reset with chip := { State.reset.chip with warm := 6 } }, {}, true, by decide +kernel⟩,
   ⟨State.reset, .bar2, .codec, 0, [9, 10], by decide +kernel⟩,
   ⟨{ State.reset with flt := { State.reset.flt with blockResets := [(.core, 3)] } }, .core, 3, 0, by decide +kernel⟩⟩


theorem witness_KamconResources :
    (∃ (s : State) (cci : Nat) (input : List Byte), s.takesKamcon cci input 0 []) ∧
    (∃ (s : State) (cci : Nat) (input : List Byte) (n : Nat), s.takesKamcon cci input 22 [(0, 0, 32), (8, 0, 64), (16, 0, 32), (20, 0, 16)] ∧ field input 20 2 = n ∧ 1 ≤ n ∧ n ≤ 256 ∧ field input 16 4 % 8 = 0 ∧ field input 0 4 = 0xFFFFFFFF) ∧
    (∃ (s : State) (cci : Nat) (input : List Byte) (n : Nat) (r : Register), s.takesKamcon cci input 22 [(0, 0, 32), (8, 0, 64), (16, 0, 32), (20, 0, 16)] ∧ field input 20 2 = n ∧ 1 ≤ n ∧ n ≤ 256 ∧ field input 16 4 % 8 = 0 ∧ field input 0 4 ≠ 0xFFFFFFFF ∧ ((registerMap.find? fun x => x.addr == field input 0 4 && x.reach == .selector) = some r)) ∧
    (∃ (s : State) (cci : Nat) (input : List Byte), s.takesKamcon cci input 1 [(0, 0, 1)] ∧ field input 0 1 = 1 ∧ s.on SYS_CTL.DEV_ENABLE = false ∧ s.devEnableCheck = 0 ∧ (s.wr SYS_CHECK.CODE 0).enableDevice.rd SYS_CHECK.CODE = 0) ∧
    (∃ (s : State) (cci : Nat) (input : List Byte), s.takesKamcon cci input 0 []) ∧
    (∃ (s : State) (cci : Nat) (input : List Byte) (n : Nat), s.takesKamcon cci input (8 + 8 * n) (itemFields n) ∧ s.mayRun cci ∧ field input 0 1 = n ∧ 1 ≤ n ∧ n ≤ 64 ∧ (((itemsOf input n).all fun x => itemOk x.1 x.2) = true) ∧ s.areaBusy 2 = false) ∧
    (∃ (s : State) (cci : Nat) (input : List Byte), s.takesKamcon cci input 3 [(0, 0, 8), (1, 0, 8), (2, 0, 8)] ∧ field input 0 1 = 0) ∧
    (∃ (s : State) (cci : Nat) (input : List Byte), s.takesKamcon cci input 3 [(0, 0, 8), (1, 0, 8), (2, 0, 8)] ∧ field input 0 1 = 1 ∧ s.warmCheck = 0 ∧ s.startWarm.on RST_CTL.WARM) ∧
    (∃ (s : State) (cci : Nat) (input : List Byte) (t : State) (block index : Nat), s.takesKamcon cci input 3 [(0, 0, 8), (1, 0, 8), (2, 0, 8)] ∧ field input 0 1 = 2 ∧ field input 1 1 = block ∧ field input 2 1 = index ∧ t = ((s.wr RST_CTL.BLOCK block).wr RST_CTL.INDEX index).askBlockReset .kamcon block index ∧ t.rd RST_CTL.CHECK = 0) ∧
    (∃ (s : State) (cci : Nat) (input : List Byte), (s.takesKamcon cci input 72 ((List.range 72).map fun k => (k, 0, 8))) ∧ s.allocCheck input = 0) ∧
    (∃ (s : State) (cci : Nat) (input : List Byte) (c : Nat) (t : State), s.takesKamcon cci input 32 [(0, 0, 13), (4, 0, 17), (8, 0, 18), (12, 1, 31), (16, 0, 64), (24, 0, 64)] ∧ field input 0 2 = c ∧ s.onAt MAP_CLAIMATTR.COMMIT c = false ∧ t = (s.defineClaim c input).askCommit c (Nat.land (field input 12 4) attrReserved != 0) ∧ t.pair.fwd.contains (.commit c) = false ∧ t.rd MAP_CHECK.CODE = 0) ∧
    (∃ (s : State) (cci : Nat) (input : List Byte) (c : Nat) (t : State), s.takesKamcon cci input 2 [(0, 0, 13)] ∧ field input 0 2 = c ∧ s.onAt MAP_CLAIMATTR.COMMIT c ∧ t = (s.wrAt MAP_CLAIMSEL.CLAIM 1 c).askRelease c ∧ t.pair.fwd.contains (.release c) = false ∧ t.rd MAP_CHECK.CODE = 0) ∧
    (∃ (s : State) (cci : Nat) (input : List Byte) (c : Nat) (t : State), s.takesKamcon cci input 24 [(0, 0, 13), (8, 0, 64), (16, 0, 64)] ∧ field input 0 2 = c ∧ s.onAt MAP_CLAIMATTR.COMMIT c ∧ t = (s.wrAt MAP_CLAIMSEL.CLAIM 1 c).setGrants c (field input 8 8) (field input 16 8) ∧ t.rd MAP_CHECK.CODE = 0) ∧
    (∃ (s : State) (cci : Nat) (input : List Byte) (n : Nat) (t : State), s.takesKamcon cci input 16 [(0, 0, 12), (4, 0, 20), (8, 0, 1), (12, 0, 32)] ∧ field input 0 2 = n ∧ s.onAt SLC_CTL.ENABLE n = false ∧ t = (s.defineSlice n input).askSlice n ∧ t.rdAt SLC_CTL.CHECK n = 0) ∧
    (∃ (s : State) (cci : Nat) (input : List Byte) (n : Nat), s.takesKamcon cci input 16 [(0, 0, 12), (8, 0, 1), (12, 0, 32)] ∧ field input 0 2 = n ∧ s.onAt SLC_CTL.ENABLE n) ∧
    (∃ (s : State) (cci : Nat) (input : List Byte) (n : Nat), s.takesKamcon cci input 2 [(0, 0, 12)] ∧ field input 0 2 = n ∧ s.onAt SLC_CTL.ENABLE n ∧ s.onAt SLC_STAT.RESETTING n = false) ∧
    (∃ (s : State) (cci : Nat) (input : List Byte) (n : Nat) (t : State), s.takesKamcon cci input 2 [(0, 0, 12)] ∧ field input 0 2 = n ∧ n ≠ 0 ∧ s.onAt SLC_CTL.ENABLE n ∧ t = (s.wrAt SLC_SEL.SLICE 1 n).askRemove n ∧ t.rdAt SLC_CTL.CHECK n = 0) ∧
    (∃ (s : State) (cci : Nat) (input : List Byte) (page : Nat) (t : State), s.takesKamcon cci input 6 [(0, 0, 10), (2, 0, 1), (4, 0, 12)] ∧ field input 0 2 = page ∧ t = s.namePage page (field input 4 2) ∧ field input 2 1 = 0 ∧ (t.assignPage page).rdAt SLC_DBOWN.CHECK page = 0) ∧
    (∃ (s : State) (cci : Nat) (input : List Byte) (page : Nat) (t : State), s.takesKamcon cci input 6 [(0, 0, 10), (2, 0, 1), (4, 0, 12)] ∧ field input 0 2 = page ∧ t = s.namePage page (field input 4 2) ∧ field input 2 1 = 1 ∧ (t.freePage page).rdAt SLC_DBOWN.CHECK page = 0) ∧
    (∃ (s : State) (cci : Nat) (input : List Byte) (t : State), s.takesKamcon cci input 64 policyFields ∧ t = (s.stagePolicy input).askApply ∧ t.rd PLC_APPLY.CHECK = 0) ∧
    (∃ (s : State) (cci : Nat) (input : List Byte) (c : Nat), s.takesKamcon cci input 3 [(0, 0, 13), (2, 0, 2)] ∧ field input 0 2 = c ∧ field input 2 1 ≠ 3) ∧
    (∃ (s : State) (cci : Nat) (input : List Byte) (n : Nat) (t : State), s.takesKamcon cci input 12 [(0, 0, 8), (1, 0, 2), (2, 0, 13), (4, 0, 32), (8, 0, 32)] ∧ field input 0 1 = n ∧ (s.stageArm input).armCheck n false = 0 ∧ t = (s.stageArm input).startArm n ∧ (t.slot n).waitPartner = false ∧ t.rdAt SNP_STATUS.CHECK n = 0) ∧
    (∃ (s : State) (cci : Nat) (input : List Byte) (n : Nat) (t : State), s.takesKamcon cci input 12 [(0, 0, 8), (1, 0, 2), (2, 0, 13), (4, 0, 32), (8, 0, 32)] ∧ field input 0 1 = n ∧ (s.stageArm input).armCheck n false = 0 ∧ t = (s.stageArm input).startArm n ∧ (t.slot n).waitPartner) ∧
    (∃ (s : State) (cci : Nat) (input : List Byte) (t : State), s.takesKamcon cci input 240 profileBits ∧ t = (s.stageProfile input).askProfile ∧ t.rd QOS_PROFILE.CHECK = 0) :=
  ⟨⟨trained, 256, [], by decide +kernel⟩,
   ⟨trained, 256, toBytes (0xFFFFFFFF + 2 * 2 ^ 160) 22, 2, by decide +kernel⟩,
   ⟨trained, 256, toBytes (MAP_CLAIMSEL.CLAIM.addr + 2 * 2 ^ 160) 22, 2, (registerMap.find? fun x => x.addr == MAP_CLAIMSEL.CLAIM.addr && x.reach == .selector).get (by decide +kernel), by decide +kernel⟩,
   ⟨trained, 256, [1], by decide +kernel⟩,
   ⟨trained, 256, [], by decide +kernel⟩,
   ⟨trained, 256, toBytes (1 + 0x32 * 2 ^ 64 + 2 ^ 96) 16, 1, by decide +kernel⟩,
   ⟨trained, 256, [0, 0, 0], by decide +kernel⟩,
   ⟨trained, 256, [1, 0, 0], by decide +kernel⟩,
   ⟨trained, 256, [2, 1, 0], ((trained.wr RST_CTL.BLOCK 1).wr RST_CTL.INDEX 0).askBlockReset .kamcon 1 0, 1, 0, by decide +kernel⟩,
   ⟨trained, 256, (List.range 72).map fun k => if k % 16 = 0 ∧ k < 64 then 1 else if 64 ≤ k ∧ k % 2 = 0 then 1 else 0, by decide +kernel⟩,
   ⟨enabled, 256, toBytes (2 ^ 64 + 8 * 2 ^ MAP_CLAIMATTR.FLOOR.lo * 2 ^ 96 + 2 ^ MAP_CLAIMATTR.TYPE.lo * 2 ^ 96) 32, 0, (enabled.defineClaim 0 (toBytes (2 ^ 64 + 8 * 2 ^ MAP_CLAIMATTR.FLOOR.lo * 2 ^ 96 + 2 ^ MAP_CLAIMATTR.TYPE.lo * 2 ^ 96) 32)).askCommit 0 false, by decide +kernel⟩,
   ⟨claimed, 256, [0, 0], 0, claimed.askRelease 0, by decide +kernel⟩,
   ⟨claimed, 256, List.replicate 24 0, 0, claimed.setGrants 0 0 0, by decide +kernel⟩,
   ⟨enabled, 256, toBytes (7 + 9 * 2 ^ 32) 16, 7, (enabled.defineSlice 7 (toBytes (7 + 9 * 2 ^ 32) 16)).askSlice 7, by decide +kernel⟩,
   ⟨enabled, 256, List.replicate 16 0, 0, by decide +kernel⟩,
   ⟨enabled, 256, [0, 0], 0, by decide +kernel⟩,
   ⟨fetching.putAt SLC_DBOWN.OWNED 0 false, 256, [7, 0], 7, ((fetching.putAt SLC_DBOWN.OWNED 0 false).wrAt SLC_SEL.SLICE 1 7).askRemove 7, by decide +kernel⟩,
   ⟨enabled, 256, [3, 0, 0, 0, 0, 0], 3, enabled.namePage 3 0, by decide +kernel⟩,
   ⟨enabled, 256, [3, 0, 1, 0, 0, 0], 3, enabled.namePage 3 0, by decide +kernel⟩,
   ⟨settled, 256, (policyBlock.flatMap fun x => toBytes (x.2.foldl (fun v f => v + enabled.rdAt f 0 * 2 ^ f.lo) 0) 8) ++ List.replicate 16 0, (settled.stagePolicy ((policyBlock.flatMap fun x => toBytes (x.2.foldl (fun v f => v + enabled.rdAt f 0 * 2 ^ f.lo) 0) 8) ++ List.replicate 16 0)).askApply, by decide +kernel⟩,
   ⟨enabled, 256, [5, 0, 1], 5, by decide +kernel⟩,
   ⟨armable, 256, [0, 2, 0, 0, 128, 0, 0, 0, 0, 0, 0, 0], 0, (armable.stageArm [0, 2, 0, 0, 128, 0, 0, 0, 0, 0, 0, 0]).startArm 0, by decide +kernel⟩,
   ⟨mirrored, 256, [0, 1, 0, 0, 128, 0, 0, 0, 0, 0, 0, 0], 0, (mirrored.stageArm [0, 1, 0, 0, 128, 0, 0, 0, 0, 0, 0, 0]).startArm 0, by decide +kernel⟩,
   ⟨enabled, 256, (List.range 15).flatMap fun m => toBytes (if background m then 5 * 2 ^ QOS_BUCKET.RATE.lo else 0) 8 ++ toBytes 0 8, (enabled.stageProfile ((List.range 15).flatMap fun m => toBytes (if background m then 5 * 2 ^ QOS_BUCKET.RATE.lo else 0) 8 ++ toBytes 0 8)).askProfile, by decide +kernel⟩⟩


theorem witness_KamconService :
    (∃ (s : State) (cci : Nat) (input : List Byte) (t : State), s.takesKamcon cci input 24 channelFields ∧ s.on DMC_COMMIT.COMMIT = false ∧ t = (s.stageChannels input).askChannels ∧ t.rd DMC_COMMIT.CHECK = 0) ∧
    (∃ (s : State) (cci : Nat) (input : List Byte) (c : Nat), s.takesKamcon cci input 1 [(0, 0, 4)] ∧ field input 0 1 = c ∧ s.frozen c ∧ s.onAt DMC_CHSTAT.KEPT c) ∧
    (∃ (s : State) (cci : Nat) (input : List Byte) (c rank : Nat), s.takesKamcon cci input 2 [(0, 0, 4), (1, 0, 3)] ∧ field input 0 1 = c ∧ field input 1 1 = rank ∧ s.rdAt DMC_CHSTAT.SPARESTAT c = spareReady ∧ rank < s.spareRank c) ∧
    (∃ (s : State) (cci : Nat) (input : List Byte), s.takesKamcon cci input 17 [(0, 0, 64), (8, 0, 64), (16, 0, 1)] ∧ field input 0 8 % 64 = 0) ∧
    (∃ (s : State) (cci : Nat) (input : List Byte) (dpa c : Nat), s.takesKamcon cci input 72 [(0, 0, 64), (8, 0, 512)] ∧ field input 0 8 = dpa ∧ dpa % 64 = 0 ∧ s.claimOf dpa = some c ∧ s.listed (dpa / 64) ∧ (s.entry (dpa / 4096)).state ≠ .lost) ∧
    (∃ (s : State) (cci : Nat) (input : List Byte) (f c base len : Nat), s.takesKamcon cci input 24 [(0, 0, 2), (1, 0, 8), (8, 0, 64), (16, 0, 64)] ∧ s.mayRun cci ∧ field input 0 1 = f ∧ field input 1 1 = c ∧ field input 8 8 = base ∧ field input 16 8 = len ∧ s.scrubRangeOk (bit f 0) c base len) ∧
    (∃ (s : State) (cci : Nat) (input : List Byte) (x : ScrubSummary), s.takesKamcon cci input 0 [] ∧ (s.cci cci).summary = some x) ∧
    (∃ (s : State) (cci : Nat) (input : List Byte), s.takesKamcon cci input 3 [(0, 0, 3), (0, 7, 1), (1, 0, 8), (2, 0, 8)] ∧ bit (field input 0 1) 7 ∧ 1 ≤ field input 2 1 ∧ field input 2 1 < field input 1 1 ∧ field input 1 1 ≤ 168) ∧
    (∃ (s : State) (cci : Nat) (input : List Byte), s.takesKamcon cci input 3 [(0, 0, 3), (0, 7, 1), (1, 0, 8), (2, 0, 8)] ∧ bit (field input 0 1) 7 = false) ∧
    (∃ (s : State) (cci : Nat) (input : List Byte), s.takesKamcon cci input 12 [(0, 0, 2), (1, 0, 8), (2, 0, 8), (3, 0, 8), (4, 0, 8), (5, 0, 8), (8, 0, 32)] ∧ field input 0 1 = 0) ∧
    (∃ (s : State) (cci : Nat) (input : List Byte) (r : RepairRow), s.takesKamcon cci input 12 [(0, 0, 2), (1, 0, 8), (2, 0, 8), (3, 0, 8), (4, 0, 8), (5, 0, 8), (8, 0, 32)] ∧ field input 0 1 = 1 ∧ s.rowAt input 1 8 = r ∧ s.rowInside r ∧ s.med.repairList.length < 32 ∧ ((s.med.repairList.any fun x => x.same r) = false)) ∧
    (∃ (s : State) (cci : Nat) (input : List Byte) (t : State), s.takesKamcon cci input 12 [(0, 0, 4), (1, 0, 1), (2, 0, 3), (3, 0, 3), (4, 0, 2), (8, 0, 18)] ∧ s.on MED_PPRSTAT.BUSY = false ∧ t = (s.nameRow input).startRepair ∧ t.on MED_PPRSTAT.BUSY) ∧
    (∃ (s : State) (cci : Nat) (input : List Byte) (x : Salvage), s.takesKamcon cci input 1 [(0, 0, 6)] ∧ s.cir.salvage.find (field input 0 1) = some x) ∧
    (∃ (s : State) (cci : Nat) (input : List Byte), s.takesKamcon cci input 8 [(0, 0, 1), (1, 0, 1), (2, 0, 8), (4, 0, 16), (6, 0, 16)] ∧ field input 0 1 = 1 ∧ (s.stagePair input).askPair.pair.enabling) ∧
    (∃ (s : State) (cci : Nat) (input : List Byte) (t : State), s.takesKamcon cci input 8 [(0, 0, 1), (1, 0, 1), (2, 0, 8), (4, 0, 16), (6, 0, 16)] ∧ field input 0 1 = 0 ∧ t = s.stagePair input ∧ t.pairState = pairTakenOver) ∧
    (∃ (s : State) (cci : Nat) (input : List Byte) (t : State), s.takesKamcon cci input 5 [(0, 0, 32), (4, 0, 1)] ∧ (s.stageTakeover input).takeoverCheck = 0 ∧ t = (s.stageTakeover input).takenOver ∧ t.rd PAR_CTL.CHECK = 0) ∧
    (∃ (s : State) (cci : Nat) (input : List Byte) (t : State), s.takesKamcon cci input 4 [(0, 0, 32)] ∧ (s.wr PAR_TAKEOVER.EPOCH (field input 0 4)).givebackCheck = 0 ∧ t = (s.wr PAR_TAKEOVER.EPOCH (field input 0 4)).givenBack ∧ t.rd PAR_CTL.CHECK = 0) ∧
    (∃ (s : State) (cci : Nat) (input : List Byte), s.takesKamcon cci input 0 [] ∧ s.pairState ≠ pairAlone ∧ s.pairState ≠ pairFenced) ∧
    (∃ (s : State) (cci : Nat) (input : List Byte) (t : State), s.takesKamcon cci input 0 [] ∧ s.mayRun cci ∧ s.pairState = pairFenced ∧ t = (s.startBackground cci { op := .pairDiscard, total := s.committed.length + s.releasing.length }).answerStarted cci) ∧
    (∃ (s : State) (cci : Nat) (input : List Byte), s.takesKamcon cci input 2 [(0, 0, 3), (1, 0, 3)]) ∧
    (∃ (s : State) (cci : Nat) (input : List Byte), s.takesKamcon cci input 1 [(0, 0, 8)] ∧ field input 0 1 = 0) ∧
    (∃ (s : State) (cci : Nat) (input : List Byte) (t : State), s.takesKamcon cci input 1 [(0, 0, 8)] ∧ field input 0 1 = 1 ∧ s.nightCheck = 0 ∧ t = s.askNight ∧ t.rd PWR_CTL.CHECK = 0) ∧
    (∃ (s : State) (cci : Nat) (input : List Byte), s.takesKamcon cci input 1 [(0, 0, 3)] ∧ field input 0 1 ≠ 0) ∧
    (∃ (s : State) (cci : Nat) (input : List Byte) (t : State), s.takesKamcon cci input 2 [(0, 0, 8), (1, 0, 8)] ∧ s.askDomain .kamcon (field input 0 1) (field input 1 1) = (0, 0, t)) ∧
    (∃ (s : State) (cci : Nat) (input : List Byte), s.takesKamcon cci input 0 []) ∧
    (∃ (s : State) (cci : Nat) (input : List Byte) (type : Nat) (t : State), s.takesKamcon cci input 1 [(0, 0, 2)] ∧ field input 0 1 = type ∧ type ≠ 0 ∧ s.commitSvn type = (callOk, t)) ∧
    (∃ (s : State) (cci : Nat) (input : List Byte) (held : List Nat), s.takesKamcon cci input 8 [(0, 0, 64)] ∧ ((s.cir.salvage.map Prod.fst).filter (fun k => bit (field input 0 8) k) = held)) :=
  ⟨⟨committable, 256, [0, 0, 0, 0, 0, 1, 0, 0, 1, 1] ++ List.replicate 14 0, (committable.stageChannels ([0, 0, 0, 0, 0, 1, 0, 0, 1, 1] ++ List.replicate 14 0)).askChannels, by decide +kernel⟩,
   ⟨repairable, 256, [0], 0, by decide +kernel⟩,
   ⟨(trained.wrAt DMC_CHSTAT.SPARESTAT 1 spareReady).wrAt DMC_CHSTAT.RANKS 1 4, 256, [1, 2], 1, 2, by decide +kernel⟩,
   ⟨trained, 256, List.replicate 17 0, by decide +kernel⟩,
   ⟨{ claimed with med := { claimed.med with poison := [(0, ⟨.internal, 0⟩)] } }, 256, List.replicate 72 0, 0, 0, by decide +kernel⟩,
   ⟨claimed, 256, toBytes (1 + 2 ^ 128 * 4096) 24, 1, 0, 0, 4096, by decide +kernel⟩,
   ⟨trained.setCci 256 { summary := some ⟨sampleScrub, 0, 0⟩ }, 256, [], ⟨sampleScrub, 0, 0⟩, by decide +kernel⟩,
   ⟨trained, 256, [0x81, 168, 4], by decide +kernel⟩,
   ⟨trained, 256, [0, 0, 0], by decide +kernel⟩,
   ⟨trained, 256, List.replicate 12 0, by decide +kernel⟩,
   ⟨trained, 256, [1] ++ List.replicate 11 0, trained.rowAt ([1] ++ List.replicate 11 0) 1 8, by decide +kernel⟩,
   ⟨repairable, 256, List.replicate 12 0, (repairable.nameRow (List.replicate 12 0)).startRepair, by decide +kernel⟩,
   ⟨{ trained with cir := { trained.cir with salvage := [(3, sampleSalvage)] } }, 256, [3], sampleSalvage, by decide +kernel⟩,
   ⟨joinable, 256, [1, 0, 12, 0, 100, 0, 100, 0], by decide +kernel⟩,
   ⟨trained.wr PAR_STAT.STATE pairTakenOver, 256, List.replicate 8 0, (trained.wr PAR_STAT.STATE pairTakenOver).stagePair (List.replicate 8 0), by decide +kernel⟩,
   ⟨trained.wr PAR_STAT.STATE pairExposed, 256, [1, 0, 0, 0, 1], ((trained.wr PAR_STAT.STATE pairExposed).stageTakeover [1, 0, 0, 0, 1]).takenOver, by decide +kernel⟩,
   ⟨(trained.wr PAR_STAT.STATE pairMirrored).wr PAR_STAT.HOME 3, 256, [1, 0, 0, 0], (((trained.wr PAR_STAT.STATE pairMirrored).wr PAR_STAT.HOME 3).wr PAR_TAKEOVER.EPOCH 1).givenBack, by decide +kernel⟩,
   ⟨trained.wr PAR_STAT.STATE pairExposed, 256, [], by decide +kernel⟩,
   ⟨trained.wr PAR_STAT.STATE pairFenced, 256, [], ((trained.wr PAR_STAT.STATE pairFenced).startBackground 256 { op := .pairDiscard, total := 0 }).answerStarted 256, by decide +kernel⟩,
   ⟨trained, 256, [1, 0], by decide +kernel⟩,
   ⟨trained, 256, [0], by decide +kernel⟩,
   ⟨nightable, 256, [1], nightable.askNight, by decide +kernel⟩,
   ⟨trained, 256, [5], by decide +kernel⟩,
   ⟨trained, 256, [9, 2], (trained.askDomain .kamcon 9 2).2.2, by decide +kernel⟩,
   ⟨trained, 256, [], by decide +kernel⟩,
   ⟨trained, 256, [2], 2, (trained.commitSvn 2).2, by decide +kernel⟩,
   ⟨{ trained with cir := { trained.cir with salvage := [(3, sampleSalvage)] } }, 256, [8, 0, 0, 0, 0, 0, 0, 0], [3], by decide +kernel⟩⟩


theorem witness_MailboxCommands :
    (∃ (s : State) (cci : Nat), s.takesMail cci false) ∧
    (∃ (s u : State) (cci n : Nat) (b : Background), s.cciExists cci ∧ s.mailReady ∧ (s.cci cci).background = some b ∧ s.percent cci b = (n, u)) ∧
    (∃ (s : State) (cci code : Nat) (op : BgOp), s.cciExists cci ∧ s.mailReady ∧ (s.cci cci).background = none ∧ (s.cci cci).last = some (op, code)) ∧
    (∃ (s : State) (cci : Nat), s.takesMail cci false) ∧
    (∃ (s : State) (cci e : Nat), s.takesMail cci false ∧ 8 ≤ e ∧ e ≤ 12) ∧
    (∃ (s : State) (cci : Nat) (b : Background), s.cciExists cci ∧ s.mailReady ∧ (s.cci cci).background = some b ∧ b.op = .scanMedia) ∧
    (∃ (s : State) (cci log : Nat), s.takesMail cci false ∧ log ≤ logCapacity) ∧
    (∃ (s : State) (cci log : Nat) (hs : List Nat), s.takesMail cci false ∧ log ≤ logCapacity ∧ (hs = ((s.eventLog cci log).records.take hs.length).map (fun r => r.handle)) ∧ hs ≠ []) ∧
    (∃ (s : State) (cci log : Nat) (hs : List Nat), s.takesMail cci false ∧ log ≤ logCapacity ∧ (s.eventLog cci log).lost ≠ 0) ∧
    (∃ (s : State) (cci : Nat), s.takesMail cci false) ∧
    (∃ (s : State) (cci : Nat) (policy p : List Nat), s.takesMail cci false ∧ (p = (List.range 5).map fun k => policy.getD k 0) ∧ ((p.any fun m => 1 < m % 4) = false)) ∧
    (∃ (s : State) (cci : Nat), s.takesMail cci false) ∧
    (∃ (s : State) (cci action slot : Nat) (pkg : Package), s.takesMail cci true ∧ s.mayRun cci ∧ action ≤ 4 ∧ 1 ≤ slot ∧ slot ≤ 2 ∧ s.areaBusy (slot - 1) = false) ∧
    (∃ (s : State) (cci : Nat), s.takesMail cci true) ∧
    (∃ (s : State) (cci : Nat), s.takesMail cci false) ∧
    (∃ (s : State) (cci t : Nat), s.takesMail cci true) ∧
    (∃ (s : State) (cci : Nat), s.takesMail cci false) ∧
    (∃ (s : State) (cci : Nat), s.takesMail cci false) ∧
    (∃ (s : State) (cci : Nat), s.takesMail cci false) ∧
    (∃ (s : State) (cci : Nat) (w : KamWait), s.mbx.waiting = some (cci, w)) ∧
    (∃ (s : State) (cci : Nat) (b : Background) (ok : Bool), (s.cci cci).background = some b ∧ b.op = .sanitize) ∧
    (∃ (s : State) (cci : Nat) (b : Background) (ok : Bool), (s.cci cci).background = some b ∧ b.op = .secureErase) :=
  ⟨⟨trained, 256, by decide +kernel⟩,
   ⟨trained.setCci 256 { background := some { op := .sanitize } }, trained.setCci 256 { background := some { op := .sanitize } }, 256, 0, { op := .sanitize }, by decide +kernel⟩,
   ⟨trained.setCci 256 { last := some (.sanitize, 0) }, 256, 0, .sanitize, by decide +kernel⟩,
   ⟨trained, 256, by decide +kernel⟩,
   ⟨trained, 256, 12, by decide +kernel⟩,
   ⟨trained.setCci 256 { background := some { op := .scanMedia } }, 256, { op := .scanMedia }, by decide +kernel⟩,
   ⟨trained, 256, logCapacity, by decide +kernel⟩,
   ⟨trained.setEventLog 256 0 { records := [sampleEvent] }, 256, 0, [1], by decide +kernel⟩,
   ⟨trained.setEventLog 256 0 { lost := 1 }, 256, 0, [], by decide +kernel⟩,
   ⟨trained, 256, by decide +kernel⟩,
   ⟨trained, 257, [1, 0, 1, 0, 1], [1, 0, 1, 0, 1], by decide +kernel⟩,
   ⟨trained, 256, by decide +kernel⟩,
   ⟨trained, 256, 3, 2, ⟨badImage, badImage, []⟩, by decide +kernel⟩,
   ⟨trained, 256, by decide +kernel⟩,
   ⟨trained, 256, by decide +kernel⟩,
   ⟨trained, 256, 5, by decide +kernel⟩,
   ⟨trained, 256, by decide +kernel⟩,
   ⟨trained, 256, by decide +kernel⟩,
   ⟨trained, 256, by decide +kernel⟩,
   ⟨{ trained with mbx := { trained.mbx with waiting := some (256, .repair) } }, 256, .repair, by decide +kernel⟩,
   ⟨trained.setCci 256 { background := some { op := .sanitize } }, 256, { op := .sanitize }, true, by decide +kernel⟩,
   ⟨trained.setCci 256 { background := some { op := .secureErase } }, 256, { op := .secureErase }, true, by decide +kernel⟩⟩


theorem witness_MailboxMemory :
    (∃ (s : State) (cci : Nat), s.takesMail cci false) ∧
    (∃ (s : State) (cci : Nat), s.takesMail cci false) ∧
    (∃ (s : State) (cci : Nat) (x : Cci), s.takesMail cci false ∧ x = s.cci cci) ∧
    (∃ (s : State) (cci : Nat) (a b : Option (Option Int)) (c : Option (Option Nat)) (x : Cci), s.takesMail cci false ∧ x = s.cci cci) ∧
    (∃ (s : State) (cci dpa lines : Nat), s.takesMail cci false ∧ s.mayList cci (dpa / 64 * 64) ((dpa / 64 + lines) * 64)) ∧
    (∃ (s : State) (cci dpa c : Nat) (f : AccessFind) (ld : Ld), s.takesMail cci false ∧ s.grantedClaim cci dpa = some c ∧ s.grant c cci = grantWrite ∧ s.poisonData.2.lds.find cci = some ld ∧ (!s.poisonData.2.on SYS_CTL.DEV_ENABLE || s.poisonData.2.pairState == pairFenced || !s.poisonData.2.homeFor (dpa / 64 * 64)) = false ∧ ((s.poisonData.2.reply cci rcSuccess []).onAt MAP_CLAIMATTR.SHARED c && (s.poisonData.2.reply cci rcSuccess []).fenced ld.link) = false) ∧
    (∃ (s : State) (cci dpa c : Nat) (f : AccessFind) (ld : Ld) (d : Line), s.takesMail cci false ∧ s.grantedClaim cci dpa = some c ∧ s.grant c cci = grantWrite ∧ (s.entry (dpa / 4096)).state ≠ .lost ∧ s.lds.find cci = some ld ∧ (!s.on SYS_CTL.DEV_ENABLE || s.pairState == pairFenced || !s.homeFor (dpa / 64 * 64)) = false ∧ ((s.reply cci rcSuccess []).onAt MAP_CLAIMATTR.SHARED c && (s.reply cci rcSuccess []).fenced ld.link) = false) ∧
    (∃ (s : State) (cci dpa lines : Nat), s.takesMail cci false) ∧
    (∃ (s : State) (cci dpa lines : Nat), s.takesMail cci false ∧ s.mayRun cci ∧ s.scrubRangeOk true 0 dpa (lines * 64)) ∧
    (∃ (s : State) (cci : Nat) (ls : List Nat), s.takesMail cci false ∧ ls = (s.cci cci).ueList.take 512) ∧
    (∃ (s : State) (cci : Nat), s.takesMail cci true ∧ s.mayRun cci ∧ s.unused) ∧
    (∃ (s : State) (cci : Nat), s.takesMail cci true ∧ s.mayRun cci ∧ s.unused) ∧
    (∃ (s : State) (cci : Nat), s.takesMail cci false) ∧
    (∃ (s : State) (cci : Nat), s.takesMail cci false) ∧
    (∃ (s : State) (cci : Nat) (xs : List (Nat × Nat)), s.takesMail cci false ∧ s.extentsFit cci xs) ∧
    (∃ (s : State) (cci : Nat) (xs : List (Nat × Nat)), s.takesMail cci false ∧ s.extentsHeld cci xs) ∧
    (∃ (s : State) (cci port n0 n1 : Nat), s.takesMail cci false ∧ 64 ≤ cci ∧ (port < 4 ∧ s.onAt LNK_PORTCFG.MLD port = true ∧ (n1 = 0 ∨ s.hasLink (2 * port + 1) = true)) ∧ s.ldSplitCheck port n0 n1 = 0) ∧
    (∃ (s : State) (cci port : Nat), s.takesMail cci false ∧ 64 ≤ cci ∧ port < 4) ∧
    (∃ (s : State) (cci : Nat), s.takesMail cci false ∧ 64 ≤ cci) ∧
    (∃ (s : State) (cci : Nat), s.takesMail cci false ∧ 64 ≤ cci) ∧
    (∃ (s : State) (cci link : Nat), s.takesMail cci false ∧ 64 ≤ cci ∧ s.hasLink link) ∧
    (∃ (s : State) (cci : Nat), s.takesMail cci false ∧ 64 ≤ cci) :=
  ⟨⟨trained, 256, by decide +kernel⟩,
   ⟨trained, 256, by decide +kernel⟩,
   ⟨trained, 256, trained.cci 256, by decide +kernel⟩,
   ⟨trained, 256, some (some 90), none, some none, trained.cci 256, by decide +kernel⟩,
   ⟨claimed, 0, 64, 4, by decide +kernel⟩,
   ⟨claimed, 0, 128, 0, {}, ⟨0, 0, 8⟩, by decide +kernel⟩,
   ⟨claimed, 0, 128, 0, {}, ⟨0, 0, 8⟩, 7, by decide +kernel⟩,
   ⟨trained, 256, 0, 64, by decide +kernel⟩,
   ⟨claimed, 256, 0, 64, by decide +kernel⟩,
   ⟨trained, 256, [], by decide +kernel⟩,
   ⟨trained, 256, by decide +kernel⟩,
   ⟨trained, 256, by decide +kernel⟩,
   ⟨claimed, 0, by decide +kernel⟩,
   ⟨claimed, 0, by decide +kernel⟩,
   ⟨{ claimed with mbx := { claimed.mbx with offers := [(0, [(0, capacityBlock)])] } }, 0, [(0, capacityBlock)], by decide +kernel⟩,
   ⟨{ claimed with mbx := { claimed.mbx with extents := [(0, [(0, capacityBlock)])] } }, 0, [(0, capacityBlock)], by decide +kernel⟩,
   ⟨trained.putAt LNK_PORTCFG.MLD 1 true, 256, 1, 4, 0, by decide +kernel⟩,
   ⟨trained, 256, 3, by decide +kernel⟩,
   ⟨trained, 256, by decide +kernel⟩,
   ⟨trained, 256, by decide +kernel⟩,
   ⟨trained, 256, 2, by decide +kernel⟩,
   ⟨trained, 256, by decide +kernel⟩⟩


theorem witness_ZenithRequests :
    (∃ (s : State) (h : ZenithHead) (key : List Byte), s.takesZenith h key (bodyOk [] 0 []) true ∧ s.mbx.bindings.find h.slice = none) ∧
    (∃ (s : State) (h : ZenithHead) (key : List Byte), s.takesZenith h key (bodyOk [] 0 []) true ∧ s.mbx.bindings.find h.slice = some key) ∧
    (∃ (s t : State) (h : ZenithHead) (body key : List Byte) (c : Nat), s.takesZenith h key (bodyOk body 2 [(0, 0, 13)]) false ∧ field body 0 2 = c ∧ s.rdAt MAP_CLAIMATTR.SLICE c = h.slice ∧ s.askSeal c = (some 0, t)) ∧
    (∃ (s t : State) (h : ZenithHead) (body key : List Byte) (c choice : Nat), s.takesZenith h key (bodyOk body 4 [(0, 0, 13), (2, 0, 8), (3, 0, 1)] && decide (field body 2 1 ≤ 2)) false ∧ field body 0 2 = c ∧ field body 2 1 = choice ∧ field body 3 1 = 0 ∧ s.sealedOf h.slice c ∧ (choice ≠ recoverRefetch ∨ s.pairState = pairMirrored) ∧ s.recoverClaim c choice = t ∧ t.recovers c = false) ∧
    (∃ (s : State) (h : ZenithHead) (key : List Byte), s.takesZenith h key (bodyOk [] 0 []) false) ∧
    (∃ (s : State) (h : ZenithHead) (body key : List Byte) (x : Salvage), s.takesZenith h key (bodyOk body 1 [(0, 0, 6)]) false ∧ s.cir.salvage.find (field body 0 1) = some x ∧ x.slice = h.slice) ∧
    (∃ (s t : State) (h : ZenithHead) (body key : List Byte) (n : Nat), s.takesZenith h key (bodyOk body 4 [(0, 0, 8), (2, 0, 13)]) false ∧ field body 0 1 = n ∧ s.slotState n = slotFree ∧ s.sealedOf h.slice (field body 2 2) ∧ t = s.dropSlotKey n ∧ t.createdCount < 256) ∧
    (∃ (s : State) (h : ZenithHead) (body key : List Byte) (ref : Nat) (k : ExportKey), s.takesZenith h key (bodyOk body 4 [(0, 0, 32)]) false ∧ field body 0 4 = ref ∧ s.createdKey h.slice ref = some k) ∧
    (∃ (s : State) (h : ZenithHead) (body key : List Byte) (ref : Nat), s.takesZenith h key (bodyOk body 40 [(0, 0, 32), (8, 0, 256)]) false ∧ field body 0 4 = ref ∧ s.sec.loaded.length < 256) ∧
    (∃ (s : State) (h : ZenithHead) (body key : List Byte) (ref : Nat) (k : ExportKey), s.takesZenith h key (bodyOk body 4 [(0, 0, 32)]) false ∧ field body 0 4 = ref ∧ s.createdKey h.slice ref = some k) ∧
    (∃ (s : State) (h : ZenithHead) (key : List Byte), s.takesZenith h key (bodyOk [] 0 [] && h.slice == 0) false ∧ s.on SEC_VEILSTAT.ROTATING = false) ∧
    (∃ (s : State) (link ld : Nat) (spdm : Bool), s.hasLink link ∧ s.cciExists ld ∧ s.on ENG_STAT.HORIZON_UP = false ∧ s.chip.zenithOnly = false) :=
  ⟨⟨zen, ⟨some [1], 0, 5⟩, [1], by decide +kernel⟩,
   ⟨zen, ⟨some [1], 0, 0⟩, [1], by decide +kernel⟩,
   ⟨sealZen, (sealZen.askSeal 0).2, ⟨some [1], 0, 0⟩, [0, 0], [1], 0, by decide +kernel⟩,
   ⟨sealZen, sealZen, ⟨some [1], 0, 0⟩, [0, 0, 0, 0], [1], 0, 0, by decide +kernel⟩,
   ⟨zen, ⟨some [1], 0, 0⟩, [1], by decide +kernel⟩,
   ⟨{ zen with cir := { zen.cir with salvage := [(3, sampleSalvage)] } }, ⟨some [1], 0, 0⟩, [3], [1], sampleSalvage, by decide +kernel⟩,
   ⟨sealZen, sealZen.dropSlotKey 2, ⟨some [1], 0, 0⟩, [2, 0, 0, 0], [1], 2, by decide +kernel⟩,
   ⟨keyZen, ⟨some [1], 0, 0⟩, [9, 0, 0, 0], [1], 9, sampleKey, by decide +kernel⟩,
   ⟨zen, ⟨some [1], 0, 0⟩, [9] ++ List.replicate 39 0, [1], 9, by decide +kernel⟩,
   ⟨keyZen, ⟨some [1], 0, 0⟩, [9, 0, 0, 0], [1], 9, sampleKey, by decide +kernel⟩,
   ⟨zen, ⟨some [1], 0, 0⟩, [1], by decide +kernel⟩,
   ⟨enabled.put ENG_STAT.HORIZON_UP false, 0, 0, true, by decide +kernel⟩⟩


theorem witness_PowerStates :
    (∃ (s : State), s.clearState ∧ s.on SYS_CTL.DEV_ENABLE ∧ s.rd PWR_CFG.HAZE_IDLE ≠ 0 ∧ s.quiet ∧ s.pow.night = 0) ∧
    (∃ (s : State), s.rd PWR_STAT.STATE = pwrHaze) ∧
    (∃ (s : State), s.rd PWR_STAT.STATE = pwrHaze) ∧
    (∃ (s : State), (s.rd PWR_STAT.STATE = pwrClear ∨ s.rd PWR_STAT.STATE = pwrHaze) ∧ s.on SYS_CTL.DEV_ENABLE ∧ s.rd PWR_CFG.OVC_IDLE ≠ 0 ∧ s.quiet ∧ s.someL0 = false ∧ (s.rd CON_STAT.STATE = conOff ∨ s.rd CON_STAT.STATE = conDown) ∧ s.cir.sweep = none ∧ s.pow.night = 0) ∧
    (∃ (s : State) (source : WakeSource), s.rd PWR_STAT.STATE = pwrOvercast ∧ s.wakeSelected source = true) ∧
    (∃ (s : State) (n : Nat), s.inL0 n) ∧
    (∃ (s : State) (n : Nat), s.inL0 n) :=
  ⟨⟨(State.reset.put SYS_CTL.DEV_ENABLE true).wr PWR_CFG.HAZE_IDLE 5, by decide +kernel⟩,
   ⟨State.reset.wr PWR_STAT.STATE 1, by decide +kernel⟩,
   ⟨State.reset.wr PWR_STAT.STATE 1, by decide +kernel⟩,
   ⟨(State.reset.put SYS_CTL.DEV_ENABLE true).wr PWR_CFG.OVC_IDLE 5, by decide +kernel⟩,
   ⟨(State.reset.wr PWR_STAT.STATE 2).put PWR_CFG.WAKE_CON true, .contrail, by decide +kernel⟩,
   ⟨State.reset.setLink 2 { state := .l0 }, 2, by decide +kernel⟩,
   ⟨State.reset.setLink 2 { state := .l0 }, 2, by decide +kernel⟩⟩


theorem witness_NightAndDomains :
    (∃ (s : State), s.nightCheck = 0) ∧
    (∃ (s : State), (s.rd PWR_STAT.STATE = pwrOvercast ∨ s.rd PWR_STAT.STATE = pwrHaze) ∧ s.on PWR_STAT.PENDING = false) ∧
    (∃ (s : State), s.on PWR_STAT.PENDING ∧ s.pow.night = 0 ∧ s.linksAsleep) ∧
    (∃ (s : State) (fs : Finds), s.pow.night = 1) ∧
    (∃ (s : State) (fs : Finds), s.pow.night = 2) ∧
    (∃ (s : State) (fs : Finds), s.pow.night = 3) ∧
    (∃ (s : State) (source : WakeSource), s.pow.night = 0 ∧ s.rd PWR_STAT.STATE = pwrNight ∧ s.pow.leaving = 0 ∧ s.wakeSelected source = true) ∧
    (∃ (s : State), s.pow.night ≠ 0) ∧
    (∃ (s : State) (ok : Bool), s.pow.leaving = 4) ∧
    (∃ (s : State), s.pow.leaving = 2) ∧
    (∃ (s : State) (d : Nat), d ∈ [9, 10, 11, 31] ∧ (s.rdAt PWR_DOMSTAT.STATE d = domGated ∨ s.rdAt PWR_DOMSTAT.STATE d = domOff)) ∧
    (∃ (s : State) (d : Nat), s.onAt PWR_DOMSTAT.WAKING d ∧ s.rdAt PWR_DOMSTAT.STATE d ≠ domGated) ∧
    (∃ (s : State) (p : Path) (d a : Nat), s.rdAt PWR_DOMSEL.DOMAIN (pathCopy p) = d ∧ s.rd PWR_DOMCTL.ACTION = a ∧ d ≤ 32 ∧ (a = actGate ∨ a = actOff) ∧ s.refuserOf (askerOf p) d a = 0) ∧
    (∃ (s : State) (d a : Nat), s.pow.gates.find d = some a) ∧
    (∃ (s : State) (rail : Nat), rail ≤ 6) ∧
    (∃ (s : State), s.guarded) :=
  ⟨⟨State.reset.put SYS_CTL.DEV_ENABLE true, by decide +kernel⟩,
   ⟨State.reset.wr PWR_STAT.STATE 2, by decide +kernel⟩,
   ⟨State.reset.put PWR_STAT.PENDING true, by decide +kernel⟩,
   ⟨{ State.reset with pow := { State.reset.pow with night := 1 } }, {}, by decide +kernel⟩,
   ⟨{ State.reset with pow := { State.reset.pow with night := 2 } }, {}, by decide +kernel⟩,
   ⟨{ State.reset with pow := { State.reset.pow with night := 3 } }, {}, by decide +kernel⟩,
   ⟨(State.reset.wr PWR_STAT.STATE 3).put PWR_CFG.WAKE_CON true, .contrail, by decide +kernel⟩,
   ⟨{ State.reset with pow := { State.reset.pow with night := 1 } }, by decide +kernel⟩,
   ⟨{ State.reset with pow := { State.reset.pow with leaving := 4 } }, true, by decide +kernel⟩,
   ⟨{ State.reset with pow := { State.reset.pow with leaving := 2 } }, by decide +kernel⟩,
   ⟨State.reset.wrAt PWR_DOMSTAT.STATE 9 1, 9, by decide +kernel⟩,
   ⟨(State.reset.wrAt PWR_DOMSTAT.STATE 9 2).putAt PWR_DOMSTAT.WAKING 9 true, 9, by decide +kernel⟩,
   ⟨((State.reset.wrAt PWR_DOMSEL.DOMAIN 0 9).wr PWR_DOMCTL.ACTION 1).wrAt PWR_DOMSEL.DOMAIN 1 9, .engine, 9, 1, by decide +kernel⟩,
   ⟨{ State.reset with pow := { State.reset.pow with gates := [(9, 1)] } }, 9, 1, by decide +kernel⟩,
   ⟨State.reset, 6, by decide +kernel⟩,
   ⟨State.reset.put PWR_STAT.GUARD true, by decide +kernel⟩⟩


theorem witness_FaultRegisters :
    (∃ (s : State) (k v : Nat), k ≤ 1) ∧
    (∃ (s : State) (src : Nat), s.flt.chipReset = some src) ∧
    (∃ (s : State) (p : Path) (x : Nat × Nat) (t : State), p ≠ .bar2 ∧ s.popFault = (some x, t)) ∧
    (∃ (s : State), (s.heartGood ∨ (s.chip.petted = true ∧ s.rd PWR_STAT.STATE = pwrNight))) ∧
    (∃ (s : State) (e : EventCause), s.on ENG_STAT.HORIZON_UP) :=
  ⟨⟨State.reset, 1, 5, by decide +kernel⟩,
   ⟨{ State.reset with flt := { State.reset.flt with chipReset := some 40 } }, 40, by decide +kernel⟩,
   ⟨{ State.reset with flt := { State.reset.flt with fifo := [(40, 7)] } }, .engine, (40, 7), ({ State.reset with flt := { State.reset.flt with fifo := [(40, 7)] } } : State).popFault.2, by decide +kernel⟩,
   ⟨{ State.reset.wr PWR_STAT.STATE 3 with chip := { State.reset.chip with petted := true } }, by decide +kernel⟩,
   ⟨State.reset.put ENG_STAT.HORIZON_UP true, .scrub, by decide +kernel⟩⟩


theorem witness_TelemetryCommands :
    (∃ (s : State), s.tel.sweep = none) ∧
    (∃ (s : State), s.tel.sweep ≠ none) ∧
    (∃ (s : State), s.rd TEL_CTL.PERIOD ≠ 0) ∧
    (∃ (s : State) (ts span : Nat) (values : List (Nat × Bool)) (failed : List Nat), s.tel.sweep = some (ts, values)) ∧
    (∃ (s : State) (p : Path) (v : Nat), s.rdAt TEL_CNTSEL.COUNTER (pathCopy p) ≤ 319) ∧
    (∃ (s : State) (n : Nat), n < 20) ∧
    (∃ (s : State), s.on TEL_THERMSTAT.THROTTLE ∧ 4 ≤ s.rd TEL_THERMSTAT.NVALID ∧ ofTemp9 (s.rd TEL_THERMSTAT.HOTTEST) ≤ s.throttlePoint - 5) ∧
    (∃ (s : State) (contrail : Bool) (unit lane height width : Nat) (k : Nat), k = marginCopy contrail unit lane ∧ s.laneExists contrail unit lane ∧ s.laneReports contrail unit) ∧
    (∃ (s : State) (unit lane height width : Nat), s.laneExists false unit lane ∧ s.laneReports false unit) :=
  ⟨⟨State.reset, by decide +kernel⟩,
   ⟨{ State.reset with tel := { State.reset.tel with sweep := some (0, []) } }, by decide +kernel⟩,
   ⟨State.reset.wr TEL_CTL.PERIOD 10, by decide +kernel⟩,
   ⟨{ State.reset with tel := { State.reset.tel with sweep := some (9, [(4, true)]) } }, 9, 40, [(4, true)], [], by decide +kernel⟩,
   ⟨State.reset.wrAt TEL_CNTSEL.COUNTER 0 319, .bar2, 5, by decide +kernel⟩,
   ⟨State.reset, 19, by decide +kernel⟩,
   ⟨((State.reset.put TEL_THERMSTAT.THROTTLE true).wr TEL_THERMSTAT.NVALID 4).wr TEL_THERMSTAT.HOTTEST 95, by decide +kernel⟩,
   ⟨{ (State.reset.wr CON_STAT.STATE 3) with con := { State.reset.con with rxMap := 7 } }, true, 2, 8, 300, 64, marginCopy true 2 8, by decide +kernel⟩,
   ⟨State.reset.putAt LNK_LSTAT.UP 0 true, 0, 15, 3, 4, by decide +kernel⟩⟩


theorem witness_RegisterFileAndTestPort :
    (∃ (s : State) (p : Path) (fn off bytes v : Nat) (bme msix : Bool), (p = .bar2 → s.bar2Shown fn = true)) ∧
    (∃ (s : State) (i : JtagOp) (t : State), t = ({ s with chip := { s.chip with jtag := i } } : State)) :=
  ⟨⟨State.reset, .engine, 0, 0x100, 8, 0, false, false, by decide +kernel⟩,
   ⟨State.reset, .highz, { State.reset with chip := { State.reset.chip with jtag := .highz } }, by decide +kernel⟩⟩

end Sys2Proof.Tests
end

/-! ### What the register file lets a write do (R6, R9, R624) -/

namespace Sys2Proof.Machine

/-! #### The register map -/

/-- The fields of a register stand at its address, at bits of their own, within its width (R622, R632). -/
theorem registerMap_layout : ∀ r ∈ registerMap, (r.fields.map Fld.lo).Nodup ∧
    ∀ f ∈ r.fields, f.addr = r.addr ∧ f.step = r.step ∧ 0 < f.width ∧ f.lo + f.width ≤ r.bits := by
  decide +kernel

/-- Two fields of a register never share a key of the register file. -/
theorem Fld.key_ne_of_ne {r : Register} {f g : Fld} (hr : r ∈ registerMap) (hf : f ∈ r.fields) (hg : g ∈ r.fields) (hne : g ≠ f)
    (i : Nat) : g.key i ≠ f.key i := by
  obtain ⟨hlo, hat⟩ := registerMap_layout r hr
  obtain ⟨hfa, hfs, -, -⟩ := hat f hf
  obtain ⟨hga, hgs, -, -⟩ := hat g hg
  intro hkey
  simp only [Fld.key, hfa, hfs, hga, hgs, Nat.add_left_cancel_iff] at hkey
  exact hne (List.inj_on_of_nodup_map hlo hg hf hkey)

/-- A copy that is fixed at 0 belongs to an RW field (R399). -/
theorem Fld.acc_of_fixedCopy {f : Fld} {i : Nat} (h : f.fixedCopy i = true) : f.acc = .rw := by
  simp only [Fld.fixedCopy, Bool.or_eq_true, Bool.and_eq_true, beq_iff_eq] at h
  obtain ⟨(rfl | rfl) | rfl, -⟩ | ⟨rfl, -⟩ := h <;> rfl

/-! #### A write of one field -/

/-- What a write of a field can do: nothing, stage the value until a claim's release ends, or store into that field. -/
theorem State.writeField_cases (s : State) (f : Fld) (i v : Nat) :
    s.writeField f i v = s ∨ (∃ m, s.writeField f i v = { s with map := m }) ∨ ∃ w, s.writeField f i v = s.wrAt f i w := by
  unfold State.writeField
  split
  · exact .inl rfl
  · split
    · exact .inl rfl
    · exact .inl rfl
    · exact .inl rfl
    · exact .inl rfl
    · split
      · exact .inl rfl
      · exact .inr (.inr ⟨_, rfl⟩)
    · split
      · exact .inl rfl
      · split
        · exact .inr (.inl ⟨_, rfl⟩)
        · exact .inr (.inr ⟨_, rfl⟩)
    · exact .inr (.inr ⟨_, rfl⟩)

@[simp] theorem State.out_writeField (s : State) (f : Fld) (i v : Nat) : (s.writeField f i v).out = s.out := by
  obtain h | ⟨_, h⟩ | ⟨_, h⟩ := s.writeField_cases f i v <;> simp [h]

@[simp] theorem State.flt_writeField (s : State) (f : Fld) (i v : Nat) : (s.writeField f i v).flt = s.flt := by
  obtain h | ⟨_, h⟩ | ⟨_, h⟩ := s.writeField_cases f i v <;> simp [h]

theorem State.rdAt_writeField_ne (s : State) {f g : Fld} {i j : Nat} (v : Nat) (h : f.key i ≠ g.key j) :
    (s.writeField f i v).rdAt g j = s.rdAt g j := by
  obtain e | ⟨_, e⟩ | ⟨w, e⟩ := s.writeField_cases f i v <;> rw [e]
  · rfl
  · exact s.rdAt_wrAt_ne w h

/-- A read-only field ignores a write. -/
theorem State.writeField_readOnly (s : State) {f : Fld} (h : f.acc = .ro ∨ f.acc = .ros) (i v : Nat) :
    s.writeField f i v = s := by
  unfold State.writeField
  obtain h | h := h <;> simp [h]

/-- A write of an RW1C field takes the bits that are written 1 out of it. -/
theorem State.writeField_rw1c (s : State) {f : Fld} (h : f.acc = .rw1c) (i v : Nat) :
    s.writeField f i v = s.wrAt f i (s.rdAt f i ^^^ (s.rdAt f i &&& v)) := by
  have hfix : f.fixedCopy i ≠ true := fun hc => by simp [Fld.acc_of_fixedCopy hc] at h
  unfold State.writeField
  simp only [if_neg hfix, h]
  rfl

/-! #### The bits that a write shares with a field -/

theorem testBit_flag (b : Bool) (k : Nat) : (flag b).testBit k = (decide (k = 0) && b) := by
  cases b
  · simp [flag]
  · cases k <;> simp [flag, Nat.testBit_succ]

/-- The number that is summed from its bits has those bits, and is below the next power of two. -/
theorem sum_flags (b : Nat → Bool) (w : Nat) :
    ((List.range w).map fun k => flag (b k) * 2 ^ k).sum < 2 ^ w ∧
      ∀ j, ((List.range w).map fun k => flag (b k) * 2 ^ k).sum.testBit j = (decide (j < w) && b j) := by
  induction w with
  | zero => simp
  | succ w ih =>
    rw [List.range_succ, List.map_append, List.sum_append]
    generalize ((List.range w).map fun k => flag (b k) * 2 ^ k).sum = x at ih ⊢
    obtain ⟨hlt, hbit⟩ := ih
    simp only [List.map_cons, List.map_nil, List.sum_singleton]
    constructor
    · cases b w <;> simp only [flag, Bool.false_eq_true, if_true, if_false] <;> omega
    · intro j
      rw [Nat.add_comm, Nat.mul_comm, Nat.testBit_two_pow_mul_add _ hlt, hbit, testBit_flag]
      obtain hj | rfl | hj := Nat.lt_trichotomy j w
      · simp [hj, Nat.lt_succ_of_lt hj]
      · simp
      · have habove : ¬ j - w = 0 ∧ ¬ j < w ∧ ¬ j < w + 1 := by omega
        simp [habove]

theorem testBit_bits (v lo w k : Nat) : (bits v lo w).testBit k = (decide (k < w) && v.testBit (lo + k)) := by
  simp [bits]

/-- A write of a whole register gives a field the bits of the word that stand at its place. -/
theorem Fld.overlay_whole {f : Fld} {n : Nat} (hn : f.lo + f.width ≤ n) (old v : Nat) :
    f.overlay old 0 n v = bits v f.lo f.width := by
  have hword : f.overlay old 0 n v = ((List.range f.width).map fun k => flag (v.testBit (f.lo + k)) * 2 ^ k).sum := by
    unfold Fld.overlay
    refine congrArg List.sum (List.map_congr_left fun k hk => ?_)
    have hin : f.lo + k < n := by have := List.mem_range.1 hk; omega
    simp [hin]
  refine Nat.eq_of_testBit_eq fun k => ?_
  rw [hword, (sum_flags (fun k => v.testBit (f.lo + k)) f.width).2 k, testBit_bits]

/-! #### A write of a register -/

/-- One field's part in a write of a register whose locks are those of `s`. -/
def State.storeField (s : State) (i lo n v : Nat) (t : State) (f : Fld) : State :=
  if f.acc = .rwl ∧ s.locked f.lock i then t else t.writeField f i (f.overlay (t.shown f i) lo n v)

theorem State.storeBits_eq (s : State) (r : Register) (i lo n v : Nat) :
    s.storeBits r i lo n v = (r.fields.filter fun f => f.meets lo n).foldl (s.storeField i lo n v) s := rfl

theorem State.storeField_locked {s : State} {f : Fld} {i : Nat} (hf : f.acc = .rwl) (hl : s.locked f.lock i = true)
    (lo n v : Nat) (t : State) : s.storeField i lo n v t f = t := if_pos ⟨hf, hl⟩

theorem State.storeField_writes {s : State} {f : Fld} {i : Nat} (h : f.acc ≠ .rwl) (lo n v : Nat) (t : State) :
    s.storeField i lo n v t f = t.writeField f i (f.overlay (t.shown f i) lo n v) := if_neg fun hc => h hc.1

@[simp] theorem State.out_storeField (s : State) (i lo n v : Nat) (t : State) (f : Fld) :
    (s.storeField i lo n v t f).out = t.out := by
  unfold State.storeField
  split <;> simp

@[simp] theorem State.flt_storeField (s : State) (i lo n v : Nat) (t : State) (f : Fld) :
    (s.storeField i lo n v t f).flt = t.flt := by
  unfold State.storeField
  split <;> simp

theorem State.rdAt_storeField_ne (s : State) {f g : Fld} {i : Nat} (lo n v : Nat) (t : State) (h : g.key i ≠ f.key i) :
    (s.storeField i lo n v t g).rdAt f i = t.rdAt f i := by
  unfold State.storeField
  split
  · rfl
  · exact t.rdAt_writeField_ne _ h

/-- What each field's part of a write leaves of a value, the whole write leaves. -/
theorem State.storeBits_keeps {α : Type} (P : State → α) {s : State} {r : Register} {i lo n v : Nat}
    (h : ∀ g ∈ r.fields, ∀ t, P (s.storeField i lo n v t g) = P t) : P (s.storeBits r i lo n v) = P s := by
  rw [State.storeBits_eq]
  refine List.foldlRecOn _ _ (motive := fun t => P t = P s) rfl fun t ht g hg => ?_
  rw [h g (List.mem_of_mem_filter hg) t, ht]

/-- A write of a register leaves a field that ignores its own part of the write. -/
theorem State.rdAt_storeBits_of_ignored {s : State} {r : Register} {i lo n v : Nat} {f : Fld} (hr : r ∈ registerMap)
    (hf : f ∈ r.fields) (h : ∀ t, s.storeField i lo n v t f = t) : (s.storeBits r i lo n v).rdAt f i = s.rdAt f i := by
  refine State.storeBits_keeps (fun t => t.rdAt f i) fun g hg t => ?_
  by_cases hne : g = f
  · rw [hne, h t]
  · exact s.rdAt_storeField_ne lo n v t (Fld.key_ne_of_ne hr hf hg hne i)

theorem State.out_storeBits (s : State) (r : Register) (i lo n v : Nat) : (s.storeBits r i lo n v).out = s.out :=
  State.storeBits_keeps State.out fun g _ t => s.out_storeField i lo n v t g

theorem State.flt_storeBits (s : State) (r : Register) (i lo n v : Nat) : (s.storeBits r i lo n v).flt = s.flt :=
  State.storeBits_keeps State.flt fun g _ t => s.flt_storeField i lo n v t g

/-- Fields with other keys, written one after another, leave a field as it was. -/
theorem State.rdAt_foldl_storeField (s : State) {i lo n v : Nat} {f : Fld} {l : List Fld} (h : ∀ g ∈ l, g.key i ≠ f.key i)
    (t : State) : (l.foldl (s.storeField i lo n v) t).rdAt f i = t.rdAt f i :=
  List.foldlRecOn l _ (motive := fun u => u.rdAt f i = t.rdAt f i) rfl fun u hu g hg =>
    (s.rdAt_storeField_ne lo n v u (h g hg)).trans hu

/-- Among the fields of a register that a test picks, those before and after a field have other keys. -/
theorem fields_filter_split {r : Register} {f : Fld} {p : Fld → Bool} (hr : r ∈ registerMap) (hf : f ∈ r.fields)
    (hp : p f = true) :
    ∃ before after, r.fields.filter p = before ++ f :: after ∧
      (∀ g ∈ before, ∀ i, g.key i ≠ f.key i) ∧ ∀ g ∈ after, ∀ i, g.key i ≠ f.key i := by
  have hnodup : (r.fields.filter p).Nodup := (List.Nodup.of_map _ (registerMap_layout r hr).1).filter _
  obtain ⟨before, after, hsplit⟩ := List.append_of_mem (List.mem_filter.2 ⟨hf, hp⟩)
  rw [hsplit, List.nodup_middle, List.nodup_cons] at hnodup
  have hother : ∀ g ∈ before ++ after, ∀ i, g.key i ≠ f.key i := by
    intro g hg
    have hgr : g ∈ r.fields.filter p := by
      rw [hsplit]
      exact List.perm_middle.mem_iff.2 (List.mem_cons_of_mem f hg)
    exact Fld.key_ne_of_ne hr hf (List.mem_of_mem_filter hgr) fun he => hnodup.1 (he ▸ hg)
  exact ⟨before, after, hsplit, fun g hg => hother g (List.mem_append_left _ hg),
    fun g hg => hother g (List.mem_append_right _ hg)⟩

/-- After a write of a whole register an RW1C field has lost the bits that are written 1 (R6): the fields before and after it in the
register do not touch it. -/
theorem State.rdAt_storeBits_rw1c (s : State) {r : Register} (i v : Nat) {f : Fld} (hr : r ∈ registerMap) (hf : f ∈ r.fields)
    (hacc : f.acc = .rw1c) : (s.storeBits r i 0 r.bits v).rdAt f i =
      (s.rdAt f i ^^^ (s.rdAt f i &&& bits v f.lo f.width)) % 2 ^ f.width := by
  obtain ⟨-, -, hpos, hbits⟩ := (registerMap_layout r hr).2 f hf
  have hmeets : f.meets 0 r.bits = true := by simp only [Fld.meets, Bool.and_eq_true, decide_eq_true_eq]; omega
  obtain ⟨before, after, hsplit, hbefore, hafter⟩ := fields_filter_split (p := fun g => g.meets 0 r.bits) hr hf hmeets
  rw [State.storeBits_eq, hsplit, List.foldl_append, List.foldl_cons, s.rdAt_foldl_storeField fun g hg => hafter g hg i,
    State.storeField_writes (by simp [hacc]), State.writeField_rw1c _ hacc, State.rdAt_wrAt_self, Fld.overlay_whole hbits,
    s.rdAt_foldl_storeField fun g hg => hbefore g hg i]

/-! #### What the statements say of it -/

/-- Settles O11: the locked field's own part of the write is skipped, the other fields of the register have other keys, and no part
of the write sends a message or reaches the fault unit. -/
theorem lockedFieldsKeep : Obligations.LockedFieldsKeep := by
  intro s r i lo n v f hr hf hacc hlock
  exact ⟨State.rdAt_storeBits_of_ignored hr hf (State.storeField_locked hacc hlock lo n v), s.out_storeBits r i lo n v,
    s.flt_storeBits r i lo n v⟩

/-- Settles O12: a read-only field ignores its own part of the write; an RW1C field is written once, with the bits of the word that
stand at its place. -/
theorem readOnlyFieldsKeep : Obligations.ReadOnlyFieldsKeep := by
  constructor
  · intro s r i lo n v f hr hf hacc
    refine State.rdAt_storeBits_of_ignored hr hf fun t => ?_
    rw [State.storeField_writes (by obtain h | h := hacc <;> simp [h]), State.writeField_readOnly t hacc]
  · intro s r i v f hr hf hacc hlt k
    have hcleared : s.rdAt f i ^^^ (s.rdAt f i &&& bits v f.lo f.width) < 2 ^ f.width :=
      Nat.xor_lt_two_pow hlt (Nat.and_le_left.trans_lt hlt)
    rw [s.rdAt_storeBits_rw1c i v hr hf hacc, Nat.mod_eq_of_lt hcleared, Nat.testBit_xor, Nat.testBit_and, testBit_bits]
    cases (s.rdAt f i).testBit k <;> simp

/-! ### Step and reset -/

/-- Settles O1. That the commands of the queue run one at a time, in order, is the model's choice (log entry 92). -/
theorem stepRunsFront : Obligations.StepRunsFront := by
  intro s c rest h
  simp only [step, h]

/-- Settles O5: every table, FIFO and store is empty after reset. -/
theorem resetIsSound : Obligations.ResetIsSound where
  registers := rfl
  memory := Memory.wf_reset
  faults := Nat.zero_le _
  keys := Nat.zero_le _
  rewrites := Nat.zero_le _
  salvage := ⟨rfl, fun _ h => nomatch h⟩
  samples := Nat.zero_le _

/-- A field reads its reset value while the register file lists no entry for it (R5). -/
theorem State.rdAt_of_unlisted {s : State} {f : Fld} {i : Nat} (h : Table.find s.regs (f.key i) = none) :
    s.rdAt f i = f.resetAt i := by
  simp [State.rdAt, Table.get, h]

/-- Settles O7: the register file lists nothing after reset. -/
theorem resetState : Obligations.ResetState :=
  ⟨rfl, rfl, rfl, rfl, rfl, fun _ _ => State.rdAt_of_unlisted rfl⟩

/-! ### The register file and the test port -/

theorem exec_registerWrite (p : Path) (fn off bytes v : Nat) (bme msix : Bool) (s : State) :
    exec (.registerWrite p fn off bytes v bme msix) s = execRegisterWrite p fn off bytes v bme msix s := rfl

theorem exec_jtagInstruction (i : JtagOp) (s : State) : exec (.jtagInstruction i) s = execJtagInstruction i s := rfl

/-- A register write takes effect over every view but a BAR2 that the function does not show (R619). -/
theorem execRegisterWrite_shown {s : State} {p : Path} {fn : Nat} (h : p = .bar2 → s.bar2Shown fn = true)
    (off bytes v : Nat) (bme msix : Bool) :
    execRegisterWrite p fn off bytes v bme msix s = .next (s.writeOffset p off bytes v bme msix).settle := by
  have hview : ¬ (p = .bar2 ∧ s.bar2Shown fn = false) := fun ⟨hp, hs⟩ => by simp [h hp] at hs
  rw [execRegisterWrite, if_neg hview, State.done]

/-- Settles O57: a register write takes effect where its view shows the register file; the test port always answers. -/
theorem registerFileAndTestPort : Obligations.RegisterFileAndTestPort := by
  constructor
  · intro s p fn off bytes v bme msix hview
    rw [exec_registerWrite, execRegisterWrite_shown hview]
  · rintro s i t rfl
    rw [exec_jtagInstruction, execJtagInstruction, State.done]

end Sys2Proof.Machine

/-! ### Host ports (R16–R20, R27, R29, R38–R43, R509) -/

namespace Sys2Proof.Machine

/-! #### A link trains (R18, R20) -/

theorem exec_linkUp (n rate width : Nat) (flit256 lopt : Bool) (s : State) :
    exec (.linkUp n rate width flit256 lopt) s = execLinkUp n rate width flit256 lopt s := rfl

theorem exec_linkRetrain (n : Nat) (s : State) : exec (.linkRetrain n) s = execLinkRetrain n s := rfl

/-- What LINK_UP does on a link that is not in L0 and may train: in NIGHT the link is held, otherwise its training ends (R18, R552). -/
theorem execLinkUp_of_mayTrain {s : State} {n : Nat} (hstate : (s.link n).state ≠ .l0) (hmay : s.mayTrain n = true)
    (rate width : Nat) (flit256 lopt : Bool) :
    execLinkUp n rate width flit256 lopt s =
      if s.rd PWR_STAT.STATE = pwrNight then .next { s with pow := { s.pow with heldLinks := s.pow.heldLinks.add n } }
      else .next (s.trainedTo n rate width flit256 lopt).settle := by
  have hgo : ¬ ((s.link n).state = .l0 ∨ (!s.mayTrain n) = true) := by simp [hstate, hmay]
  exact if_neg hgo

theorem execLinkRetrain_of_l0 {s : State} {n : Nat} (h : (s.link n).state = .l0) :
    execLinkRetrain n s = .next (s.setLink n { s.link n with state := .recovery, retrain := true }) := if_pos h

/-! #### Events that take a link down act only while it is up (R29, R39, R43) -/

theorem exec_linkDown (n dropped : Nat) (s : State) : exec (.linkDown n dropped) s = execLinkDown n dropped s := rfl

theorem exec_creditOverflow (n dropped : Nat) (s : State) :
    exec (.creditOverflow n dropped) s = execCreditOverflow n dropped s := rfl

theorem exec_linkInternalParity (n dropped : Nat) (s : State) :
    exec (.linkInternalParity n dropped) s = execLinkInternalParity n dropped s := rfl

theorem exec_ideIntegrityFailure (n : Nat) (k : IdeSel) (dropped : Nat) (s : State) :
    exec (.ideIntegrityFailure n k dropped) s = execIdeIntegrityFailure n k dropped s := rfl

section
variable {s : State} {n : Nat} (hup : s.isUp n = true) (dropped : Nat)
include hup

theorem execLinkDown_of_isUp : execLinkDown n dropped s = .next (s.linkDown n downLtssm dropped).settle := if_pos hup

theorem execCreditOverflow_of_isUp : execCreditOverflow n dropped s =
    .next (((s.setLink n { s.link n with rasOverflow := true }).raise (srcHostErr n)).linkDown n downCredit dropped).settle :=
  if_pos hup

theorem execLinkInternalParity_of_isUp : execLinkInternalParity n dropped s =
    .next (((s.setLink n { s.link n with rasInternal := true }).raise (srcHostErr n)).linkDown n downParity dropped).settle :=
  if_pos hup

theorem execIdeIntegrityFailure_of_isUp (k : IdeSel) : execIdeIntegrityFailure n k dropped s =
    .next ((((s.setLink n ((s.link n).failIde k)).ideStatus n).raise (srcHostErr n)).linkDown n downIde dropped).settle :=
  if_pos hup

end

/-! #### Errors that are only counted, and key management, act on any link (R27, R43) -/

theorem exec_flitCrcError (n : Nat) (rollover : Bool) (s : State) : exec (.flitCrcError n rollover) s =
    .next ((s.setLink n ((s.link n).flitError rollover)).event Ev.flitsReplayed n) := rfl

theorem exec_malformedTlp (n : Nat) (s : State) : exec (.malformedTlp n) s =
    .next (s.setLink n { s.link n with ioErrors := (s.link n).ioErrors + 1, aerUncorrectable := true }) := rfl

theorem exec_ideKm (n : Nat) (k : IdeSel) (m : IdeMsg) (s : State) : exec (.ideKm n k m) s =
    .next ((s.setLink n ((s.link n).setStream k (((s.link n).stream k).take m))).ideStatus n) := rfl

/-! #### PERST and function resets (R42, R509) -/

theorem exec_perstAssert (port d0 d1 : Nat) (s : State) :
    exec (.perstAssert port d0 d1) s = execPerstAssert port d0 d1 s := rfl

theorem exec_perstDeassert (port : Nat) (s : State) : exec (.perstDeassert port) s = execPerstDeassert port s := rfl

theorem exec_functionLevelReset (n ld : Nat) (s : State) : exec (.functionLevelReset n ld) s = .next s := rfl

/-- PERST_ASSERT acts on a port whose pin is deasserted. -/
theorem execPerstAssert_of_off {s : State} {port : Nat} (hoff : s.chip.perstOff.has port = true) (d0 d1 : Nat) :
    execPerstAssert port d0 d1 s =
      .next ((((s.setPerst port false).perstLink (2 * port) d0).perstLink (2 * port + 1) d1).wrAt
        LNK_PORTCFG.LOPT_ALLOW port 1).settle := if_pos hoff

theorem execPerstDeassert_of_lt {port : Nat} (hport : port < 4) (s : State) :
    execPerstDeassert port s =
      .next (((s.setPerst port true).startTraining (2 * port)).startTraining (2 * port + 1)) := if_pos hport

/-! #### Where each command completes -/

/-- Settles O27: each command with a guard acts because the hypotheses meet it; the other commands have none. -/
theorem hostPortEvents : Obligations.HostPortEvents := by
  refine ⟨?linkUp, ?linkHeld, ?retrain, ?down, ?overflow, ?parity, ?crc, ?malformed, ?ideKm, ?ideFail, ?perstOn, ?perstOff, ?flr⟩
  case linkUp =>
    intro s n rate width flit256 lopt hstate hmay hpow
    rw [exec_linkUp, execLinkUp_of_mayTrain hstate hmay, if_neg hpow]
  case linkHeld =>
    intro s n rate width flit256 lopt hstate hmay hpow
    rw [exec_linkUp, execLinkUp_of_mayTrain hstate hmay, if_pos hpow]
  case retrain =>
    intro s n hstate
    rw [exec_linkRetrain, execLinkRetrain_of_l0 hstate]
  case down =>
    intro s n dropped hup
    rw [exec_linkDown, execLinkDown_of_isUp hup]
  case overflow =>
    intro s n dropped hup
    rw [exec_creditOverflow, execCreditOverflow_of_isUp hup]
  case parity =>
    intro s n dropped hup
    rw [exec_linkInternalParity, execLinkInternalParity_of_isUp hup]
  case crc => exact fun s n rollover => exec_flitCrcError n rollover s
  case malformed => exact fun s n => exec_malformedTlp n s
  case ideKm => exact fun s n k m => exec_ideKm n k m s
  case ideFail =>
    intro s n dropped k hup
    rw [exec_ideIntegrityFailure, execIdeIntegrityFailure_of_isUp hup]
  case perstOn =>
    intro s port d0 d1 hoff
    rw [exec_perstAssert, execPerstAssert_of_off hoff]
  case perstOff =>
    intro s port hport
    rw [exec_perstDeassert, execPerstDeassert_of_lt hport]
  case flr => exact fun s n ld => exec_functionLevelReset n ld s

end Sys2Proof.Machine

/-! ### What the router serves (R30–R33, R54) -/

namespace Sys2Proof.Machine

theorem not_and_eq_of_ite_refused_eq_served {p : Prop} [Decidable p] {reason line dpa c : Nat} {db : Bool} {x : Routed}
    (h : (if p then .refused reason line else x) = .served dpa c db) : ¬ p ∧ x = .served dpa c db := by
  split at h
  · cases h
  · exact ⟨‹¬ p›, h⟩

/-- The decoder that the router takes is committed and covers the address (R26). -/
theorem State.decoderOf_covers {s : State} {ld hpa : Nat} {d : Decoder} (h : s.decoderOf ld hpa = some d) :
    d.committed = true ∧ d.base ≤ hpa ∧ hpa < d.base + d.size := by
  have hmatch := List.find?_some h
  simp only [Bool.and_eq_true, decide_eq_true_eq] at hmatch
  exact ⟨hmatch.1.1, hmatch.1.2, hmatch.2⟩

theorem State.inClaim_of_claimOf {s : State} {dpa c : Nat} (h : s.claimOf dpa = some c) : s.inClaim c dpa = true :=
  List.find?_some (p := fun c => s.inClaim c dpa) h

/-- The checks that remain once the decoder has translated the address, all passed (R31, R33, R54, R437). -/
structure State.PassesDpaChecks (s : State) (ld : Nat) (write : Bool) (dpa c : Nat) (db : Bool) : Prop where
  home : s.homeFor dpa = true
  inside : s.inClaim c dpa = true
  serves : s.claimServes c = true
  sliceOn : s.onAt SLC_CTL.ENABLE (s.rdAt MAP_CLAIMATTR.SLICE c) = true
  notResetting : s.onAt SLC_STAT.RESETTING (s.rdAt MAP_CLAIMATTR.SLICE c) = false
  granted : s.grant c ld ≠ grantNone
  writable : write = true → s.grant c ld ≠ grantRead
  shared : s.onAt MAP_CLAIMATTR.SHARED c = true → db = true

/-- The router serves an access only after a decoder of the LD has matched and the claim allows it: every check before the last
branch answers a refusal. -/
theorem State.route_served {s : State} {link number hpa dpa c : Nat} {write db : Bool}
    (h : s.route link number hpa write = .served dpa c db) :
    s.on SYS_CTL.DEV_ENABLE = true ∧ s.pairState ≠ pairFenced ∧
    (s.onAt LNK_IDECTL.REQUIRE link = true → (s.link link).ideMem.state = .secure) ∧
    ∃ ld d, s.ldIndex link number = some ld ∧ s.decoderOf ld hpa = some d ∧ dpa = d.translate hpa ∧ db = d.hdmDb ∧
      s.PassesDpaChecks ld write dpa c db := by
  unfold State.route at h
  obtain ⟨hdevice, h⟩ := not_and_eq_of_ite_refused_eq_served h
  obtain ⟨hide, h⟩ := not_and_eq_of_ite_refused_eq_served h
  split at h
  next => cases h
  next ld d hmatch =>
  obtain ⟨hhome, h⟩ := not_and_eq_of_ite_refused_eq_served h
  split at h
  next => cases h
  next c' hclaim =>
  obtain ⟨hserves, h⟩ := not_and_eq_of_ite_refused_eq_served h
  obtain ⟨hslice, h⟩ := not_and_eq_of_ite_refused_eq_served h
  obtain ⟨hgrant, h⟩ := not_and_eq_of_ite_refused_eq_served h
  obtain ⟨hwrite, h⟩ := not_and_eq_of_ite_refused_eq_served h
  obtain ⟨hshared, h⟩ := not_and_eq_of_ite_refused_eq_served h
  obtain ⟨rfl, rfl, rfl⟩ : d.translate hpa = dpa ∧ c' = c ∧ d.hdmDb = db := by simpa using h
  obtain ⟨henabled, hpair⟩ : s.on SYS_CTL.DEV_ENABLE = true ∧ s.pairState ≠ pairFenced := by simpa using hdevice
  obtain ⟨hld, hdec⟩ : s.ldIndex link number = some ld ∧ s.decoderOf ld hpa = some d := by
    simpa [Option.bind_eq_some_iff] using hmatch
  exact ⟨henabled, hpair, by simpa using hide, ld, d, hld, hdec, rfl, rfl,
    { home := by simpa using hhome
      inside := State.inClaim_of_claimOf hclaim
      serves := by simpa using hserves
      sliceOn := (by simpa using hslice : _ ∧ _).1
      notResetting := (by simpa using hslice : _ ∧ _).2
      granted := hgrant
      writable := by simpa using hwrite
      shared := by simpa using hshared }⟩

/-- Settles O21. The range and the translation of a decoder are the model's reading of the CXL standard (log entry 18). -/
theorem onlyGrantedAccessesAreServed : Obligations.OnlyGrantedAccessesAreServed := by
  intro s link number hpa write dpa c db h
  obtain ⟨henabled, hpair, hide, ld, d, hld, hdec, hdpa, hdb, hpass⟩ := State.route_served h
  obtain ⟨hcommitted, hbase, htop⟩ := State.decoderOf_covers hdec
  exact ⟨henabled, hpair, hide,
    ⟨ld, d, hld, hdec, hcommitted, hbase, htop, hdpa, hdb, hpass.granted, hpass.writable⟩,
    hpass.home, hpass.inside, hpass.serves, hpass.sliceOn, hpass.notResetting, hpass.shared⟩

end Sys2Proof.Machine

/-! ### Host requests and HDM decoders (R21, R25, R26, R36, R326) -/

namespace Sys2Proof.Machine

theorem exec_memRead (n number tag hpa : Nat) (kind : ReadKind) (f : AccessFind) (s : State) :
    exec (.memRead n number tag hpa kind f) s = execMemRead n number tag hpa kind f s := rfl

theorem exec_memWrite (n number tag hpa : Nat) (shared : Bool) (data : Line) (mask : ByteMask) (poison : Bool) (f : AccessFind)
    (s : State) : exec (.memWrite n number tag hpa shared data mask poison f) s =
      execMemWrite n number tag hpa shared data mask poison f s := rfl

theorem exec_memSpecRd (n number hpa : Nat) (s : State) : exec (.memSpecRd n number hpa) s = execMemSpecRd n number hpa s := rfl

theorem exec_memClnEvct (n number tag hpa : Nat) (f : AccessFind) (s : State) :
    exec (.memClnEvct n number tag hpa f) s = execMemClnEvct n number tag hpa f s := rfl

theorem exec_deadlineExpiry (id : Nat) (s : State) : exec (.deadlineExpiry id) s = execDeadlineExpiry id s := rfl

theorem exec_hdmDecoderCommit (ld k base size dpaBase ways gran : Nat) (hdmDb commit : Bool) (s : State) :
    exec (.hdmDecoderCommit ld k base size dpaBase ways gran hdmDb commit) s =
      execHdmDecoderCommit ld k base size dpaBase ways gran hdmDb commit s := rfl

/-- A deadline acts on a request that is open and not answered. -/
theorem execDeadlineExpiry_of_open {s : State} {id : Nat} {r : OpenReq} (hreq : s.req id = some r) (hopen : r.answered = false) :
    execDeadlineExpiry id s = .next (s.expire id r).settle := by
  simp [execDeadlineExpiry, hreq, hopen, State.done]

/-- The host commits a decoder that the LD has: the commit check says whether it is committed or marked with the error (R26). -/
theorem execHdmDecoderCommit_of_exists {s : State} {ld k base size dpaBase ways gran : Nat} {hdmDb : Bool} {x : Ld} {d : Decoder}
    (hld : s.lds.find ld = some x) (halloc : k < x.alloc) (hk : k < 32)
    (hd : d = { committed := true, base := base, size := size, dpaBase := dpaBase, ways := ways, gran := gran, hdmDb := hdmDb }) :
    execHdmDecoderCommit ld k base size dpaBase ways gran hdmDb true s =
      .next { s with
        decoders := s.decoders.put (decoderKey ld k)
          (if s.decoderOk ld k d then d else { d with committed := false, errorNotCommitted := true }) } := by
  subst hd
  cases hok : s.decoderOk ld k _ <;> simp [execHdmDecoderCommit, hld, halloc, hk, hok]

/-- Settles O28: slots go to the link's decode; a speculative read changes nothing (log entry 19); the deadline acts where the
request is open, the decoder commit where the decoder exists. -/
theorem hostRequests : Obligations.HostRequests := by
  refine ⟨?read, ?write, ?specRd, ?clnEvct, ?deadline, ?committed, ?notCommitted⟩
  case read =>
    intro s n number tag hpa kind f
    rw [exec_memRead, execMemRead, State.done]
  case write =>
    intro s n number tag hpa shared poison data mask f
    rw [exec_memWrite, execMemWrite, State.done]
  case specRd =>
    intro s n number hpa
    rw [exec_memSpecRd, execMemSpecRd]
  case clnEvct =>
    intro s n number tag hpa f
    rw [exec_memClnEvct, execMemClnEvct, State.done]
  case deadline =>
    intro s id r hreq hopen
    rw [exec_deadlineExpiry, execDeadlineExpiry_of_open hreq hopen]
  case committed =>
    intro s ld k base size dpaBase ways gran hdmDb x d hld halloc hk hd hok
    rw [exec_hdmDecoderCommit, execHdmDecoderCommit_of_exists hld halloc hk hd, if_pos hok]
  case notCommitted =>
    intro s ld k base size dpaBase ways gran hdmDb x d hld halloc hk hd hbad
    rw [exec_hdmDecoderCommit, execHdmDecoderCommit_of_exists hld halloc hk hd, if_neg (by simp [hbad])]

end Sys2Proof.Machine

/-! ### Standard commands about memory (R21, R24, R267, R271, R529, R531) -/

namespace Sys2Proof.Machine

/-! #### What a command reaches once its interface takes it up -/

section
variable {s : State} {cci : Nat}

/-- The FM API of a CCI that is no tenant's is served (R24). -/
theorem State.fabric_taken (run : State → State) (h : s.takesMail cci false = true) (hfm : 64 ≤ cci) :
    s.fabric cci run = run s := by
  rw [State.fabric, State.standard_taken _ h, if_pos hfm]

/-- A line command runs on a claim that grants the LD writing (R267). -/
theorem State.lineCommand_granted {dpa c : Nat} (run : Nat → State → State) (hclaim : s.grantedClaim cci dpa = some c)
    (hgrant : s.grant c cci = grantWrite) : s.lineCommand cci dpa run = run c s := by
  simp only [State.lineCommand, hclaim, if_pos hgrant]

/-- A line is written for an LD where the device serves it and no fence shuts its link out (R33, R335, R437). -/
theorem State.mailWrite_served {dpaLine c : Nat} {ld : Ld} (data : Line) (injected : Bool) (f : AccessFind)
    (hld : s.lds.find cci = some ld)
    (hserves : (!s.on SYS_CTL.DEV_ENABLE || s.pairState == pairFenced || !s.homeFor (dpaLine * 64)) = false)
    (hfence : ((s.reply cci rcSuccess []).onAt MAP_CLAIMATTR.SHARED c && (s.reply cci rcSuccess []).fenced ld.link) = false) :
    s.mailWrite cci dpaLine c data injected f = (s.reply cci rcSuccess []).takeIn (s.mailReq ld dpaLine c data injected) f := by
  simp only [State.mailWrite, hld, hserves, hfence, Bool.false_eq_true, if_false]

/-- An erasure starts on a CCI that runs nothing in the background, while nothing holds memory (R531). -/
theorem State.startErase_unused (op : BgOp) (hrun : s.mayRun cci = true) (hunused : s.unused = true) :
    s.startErase cci op = (s.drawVeil.restartInit.startBackground cci { op := op }).reply cci rcBackground [] := by
  rw [State.startErase, State.inBackground_taken _ hrun, if_pos hunused]

end

/-! #### The commands of a memory device -/

theorem exec_identifyMemoryDevice (cci : Nat) (s : State) :
    exec (.identifyMemoryDevice cci) s = execIdentifyMemoryDevice cci s := rfl

theorem exec_getHealthInfo (cci : Nat) (s : State) : exec (.getHealthInfo cci) s = execGetHealthInfo cci s := rfl

theorem exec_getAlertConfiguration (cci : Nat) (s : State) :
    exec (.getAlertConfiguration cci) s = execGetAlertConfiguration cci s := rfl

theorem exec_setAlertConfiguration (cci : Nat) (a b : Option (Option Int)) (c : Option (Option Nat)) (other : Bool) (s : State) :
    exec (.setAlertConfiguration cci a b c other) s = execSetAlertConfiguration cci a b c other s := rfl

theorem exec_getPoisonList (cci dpa lines : Nat) (s : State) :
    exec (.getPoisonList cci dpa lines) s = execGetPoisonList cci dpa lines s := rfl

theorem exec_injectPoison (cci dpa : Nat) (f : AccessFind) (s : State) :
    exec (.injectPoison cci dpa f) s = execInjectPoison cci dpa f s := rfl

theorem exec_clearPoison (cci dpa : Nat) (d : Line) (f : AccessFind) (s : State) :
    exec (.clearPoison cci dpa d f) s = execClearPoison cci dpa d f s := rfl

theorem exec_getScanMediaCapabilities (cci dpa lines : Nat) (s : State) :
    exec (.getScanMediaCapabilities cci dpa lines) s = execGetScanMediaCapabilities cci dpa lines s := rfl

theorem exec_scanMedia (cci dpa lines : Nat) (s : State) :
    exec (.scanMedia cci dpa lines) s = execScanMedia cci dpa lines s := rfl

theorem exec_getScanMediaResults (cci : Nat) (s : State) :
    exec (.getScanMediaResults cci) s = execGetScanMediaResults cci s := rfl

theorem exec_sanitize (cci : Nat) (s : State) : exec (.sanitize cci) s = execSanitize cci s := rfl

theorem exec_secureErase (cci : Nat) (s : State) : exec (.secureErase cci) s = execSecureErase cci s := rfl

theorem exec_getDynamicCapacityConfiguration (cci : Nat) (s : State) :
    exec (.getDynamicCapacityConfiguration cci) s = execGetDynamicCapacityConfiguration cci s := rfl

theorem exec_getDcExtentList (cci : Nat) (s : State) : exec (.getDcExtentList cci) s = execGetDcExtentList cci s := rfl

theorem exec_addDcResponse (cci : Nat) (xs : List (Nat × Nat)) (s : State) :
    exec (.addDcResponse cci xs) s = execAddDcResponse cci xs s := rfl

theorem exec_releaseDynamicCapacity (cci : Nat) (xs : List (Nat × Nat)) (s : State) :
    exec (.releaseDynamicCapacity cci xs) s = execReleaseDynamicCapacity cci xs s := rfl

/-! #### The commands of the fabric manager -/

theorem exec_fmSetLdAllocations (cci port n0 n1 : Nat) (s : State) :
    exec (.fmSetLdAllocations cci port n0 n1) s = execFmSetLdAllocations cci port n0 n1 s := rfl

theorem exec_fmGetLdAllocations (cci port : Nat) (s : State) :
    exec (.fmGetLdAllocations cci port) s = execFmGetLdAllocations cci port s := rfl

theorem exec_fmLdInfo (cci : Nat) (s : State) : exec (.fmLdInfo cci) s = execFmLdInfo cci s := rfl

theorem exec_fmMultiHeadedInfo (cci : Nat) (s : State) : exec (.fmMultiHeadedInfo cci) s = execFmMultiHeadedInfo cci s := rfl

theorem exec_fmHeadInfo (cci link : Nat) (s : State) : exec (.fmHeadInfo cci link) s = execFmHeadInfo cci link s := rfl

theorem exec_fmDcdManagement (cci : Nat) (op : DcdOp) (s : State) :
    exec (.fmDcdManagement cci op) s = execFmDcdManagement cci op s := rfl

/-- LDs are split on a port in MLD mode whose links exist, where the split check finds nothing (R24). -/
theorem execFmSetLdAllocations_of_fits {s : State} {cci port n0 n1 : Nat} (h : s.takesMail cci false = true) (hfm : 64 ≤ cci)
    (hport : port < 4 ∧ s.onAt LNK_PORTCFG.MLD port = true ∧ (n1 = 0 ∨ s.hasLink (2 * port + 1) = true))
    (hfits : s.ldSplitCheck port n0 n1 = 0) :
    execFmSetLdAllocations cci port n0 n1 s = .next ((s.splitLds port n0 n1).reply cci rcSuccess [n0, n1]).settle := by
  obtain ⟨hlt, hmld, hlink⟩ := hport
  have hgo : ¬ (4 ≤ port ∨ (!s.onAt LNK_PORTCFG.MLD port) = true ∨ n1 ≠ 0 ∧ (!s.hasLink (2 * port + 1)) = true) := by
    rintro (hge | hoff | ⟨hn, hnone⟩)
    · omega
    · simp [hmld] at hoff
    · obtain rfl | hsome := hlink
      · exact hn rfl
      · simp [hsome] at hnone
  rw [execFmSetLdAllocations, State.fabric_taken _ h hfm, if_neg hgo, State.done]
  simp only [hfits, if_pos]

/-! #### Where each command completes -/

/-- Settles O51: the interface takes each command up, the command's own checks pass under the hypotheses, and what is left is the
state that the clause writes out. -/
theorem mailboxMemory : Obligations.MailboxMemory := by
  refine ⟨?identify, ?health, ?getAlerts, ?setAlerts, ?poisonList, ?inject, ?clear, ?scanCaps, ?scan, ?scanResults, ?sanitize,
    ?secureErase, ?dcConfig, ?dcExtents, ?dcAdd, ?dcRelease, ?fmSetLds, ?fmGetLds, ?fmLdInfo, ?fmHeads, ?fmHead, ?fmDcd⟩
  case identify =>
    intro s cci h
    rw [exec_identifyMemoryDevice, execIdentifyMemoryDevice, State.standard_taken _ h, State.done]
  case health =>
    intro s cci h
    rw [exec_getHealthInfo, execGetHealthInfo, State.standard_taken _ h, State.done]
  case getAlerts =>
    rintro s cci x h rfl
    rw [exec_getAlertConfiguration, execGetAlertConfiguration, State.standard_taken _ h, State.done]
  case setAlerts =>
    rintro s cci a b c x h rfl
    rw [exec_setAlertConfiguration, execSetAlertConfiguration, State.standard_taken _ h, if_neg Bool.false_ne_true, State.done]
  case poisonList =>
    intro s cci dpa lines h hlist
    rw [exec_getPoisonList, execGetPoisonList, State.standard_taken _ h, if_neg (by simp [hlist]), State.done]
  case inject =>
    intro s cci dpa c f ld h hclaim hgrant hld hserves hfence
    rw [exec_injectPoison, execInjectPoison, State.standard_taken _ h, State.lineCommand_granted _ hclaim hgrant]
    exact congrArg State.done (State.mailWrite_served s.poisonData.1 true f hld hserves hfence)
  case clear =>
    intro s cci dpa c f ld d h hclaim hgrant hlost hld hserves hfence
    rw [exec_clearPoison, execClearPoison, State.standard_taken _ h, State.lineCommand_granted _ hclaim hgrant, if_neg hlost,
      State.mailWrite_served d false f hld hserves hfence, State.done]
  case scanCaps =>
    intro s cci dpa lines h
    rw [exec_getScanMediaCapabilities, execGetScanMediaCapabilities, State.standard_taken _ h, State.done]
  case scan =>
    intro s cci dpa lines h hrun hrange
    rw [exec_scanMedia, execScanMedia, State.standard_taken _ h, State.inBackground_taken _ hrun, if_neg (by simp [hrange]),
      State.done]
  case scanResults =>
    rintro s cci ls h rfl
    rw [exec_getScanMediaResults, execGetScanMediaResults, State.standard_taken _ h, State.done]
  case sanitize =>
    intro s cci h hrun hunused
    rw [exec_sanitize, execSanitize, State.standard_taken _ h, State.startErase_unused _ hrun hunused, State.done]
  case secureErase =>
    intro s cci h hrun hunused
    rw [exec_secureErase, execSecureErase, State.standard_taken _ h, State.startErase_unused _ hrun hunused, State.done]
  case dcConfig =>
    intro s cci h
    rw [exec_getDynamicCapacityConfiguration, execGetDynamicCapacityConfiguration, State.standard_taken _ h, State.done]
  case dcExtents =>
    intro s cci h
    rw [exec_getDcExtentList, execGetDcExtentList, State.standard_taken _ h, State.done]
  case dcAdd =>
    intro s cci xs h hfit
    rw [exec_addDcResponse, execAddDcResponse, State.standard_taken _ h, if_pos hfit, State.done]
  case dcRelease =>
    intro s cci xs h hheld
    rw [exec_releaseDynamicCapacity, execReleaseDynamicCapacity, State.standard_taken _ h, if_pos hheld, State.done]
  case fmSetLds =>
    intro s cci port n0 n1 h hfm hport hfits
    rw [exec_fmSetLdAllocations, execFmSetLdAllocations_of_fits h hfm hport hfits]
  case fmGetLds =>
    intro s cci port h hfm hport
    rw [exec_fmGetLdAllocations, execFmGetLdAllocations, State.fabric_taken _ h hfm, if_neg (by omega), State.done]
  case fmLdInfo =>
    intro s cci h hfm
    rw [exec_fmLdInfo, execFmLdInfo, State.fabric_taken _ h hfm, State.done]
  case fmHeads =>
    intro s cci h hfm
    rw [exec_fmMultiHeadedInfo, execFmMultiHeadedInfo, State.fabric_taken _ h hfm, State.done]
  case fmHead =>
    intro s cci link h hfm hlink
    rw [exec_fmHeadInfo, execFmHeadInfo, State.fabric_taken _ h hfm, if_neg (by simp [hlink]), State.done]
  case fmDcd =>
    intro s cci h hfm
    rw [exec_fmDcdManagement, execFmDcdManagement, State.fabric_taken _ h hfm, State.done]

end Sys2Proof.Machine

/-! ### The word of a map entry (R68, R69) -/

namespace Sys2Proof.Machine

/-! #### The check byte -/

theorem crc8Byte_lt {crc : Nat} (h : crc < 2 ^ 8) (n : Nat) : crc8Byte crc n < 2 ^ 8 := by
  induction n generalizing crc with
  | zero => exact h
  | succ n ih => exact ih (Nat.mod_lt _ (by decide))

theorem crc8_lt (bytes : List Byte) : crc8 bytes < 2 ^ 8 :=
  List.foldlRecOn bytes _ (motive := (· < 2 ^ 8)) (by decide) fun _ hcrc b _ =>
    crc8Byte_lt (Nat.xor_lt_two_pow hcrc b.isLt) 8

theorem entryCheck_lt (low loc : Nat) : entryCheck low loc < 2 ^ 8 := crc8_lt _

/-! #### Fields of a word by their places -/

theorem bits_eq_div_mod (v lo w : Nat) : bits v lo w = v / 2 ^ lo % 2 ^ w := by rw [bits, Nat.shiftRight_eq_div_pow]

theorem flag_lt (b : Bool) : flag b < 2 ^ 1 := by cases b <;> decide

/-- A one-bit field that holds a Boolean reads as that Boolean. -/
theorem bit_of_bits_eq_flag {v lo : Nat} {b : Bool} (h : bits v lo 1 = flag b) : bit v lo = b := by
  have hbit : (bits v lo 1).testBit 0 = (flag b).testBit 0 := by rw [h]
  rw [testBit_bits, testBit_flag] at hbit
  exact hbit

/-! #### The low word -/

@[simp] theorem PageState.ofCode_code (st : PageState) : PageState.ofCode st.code = some st := by cases st <;> rfl

theorem PageState.code_lt (st : PageState) : st.code < 2 ^ 4 := by cases st <;> decide

/-- The number fields of an entry are within their widths (R68). -/
structure MapEntry.FieldsFit (e : MapEntry) : Prop where
  keygen : e.keygen < 2 ^ 1
  keyid : e.keyid < 2 ^ 10
  claim : e.claim < 2 ^ 13
  heat : e.heat < 2 ^ 8
  version : e.version < 2 ^ 8
  hstamp : e.hstamp < 2 ^ 8
  hint : e.hint < 2 ^ 2

theorem MapEntry.fieldsFit_of_fits {e : MapEntry} (h : e.fits = true) : e.FieldsFit := by
  simp only [MapEntry.fits, Bool.and_eq_true, decide_eq_true_eq] at h
  obtain ⟨⟨⟨⟨⟨⟨⟨hkeygen, hkeyid⟩, hclaim⟩, hheat⟩, hversion⟩, hhstamp⟩, hhint⟩, -⟩ := h
  exact ⟨hkeygen, hkeyid, hclaim, hheat, hversion, hhstamp, hhint⟩

/-- The low word spells STATE and the fields of an entry, each at its place (R68). -/
structure MapEntry.SpelledBy (e : MapEntry) (low : Nat) : Prop where
  lt : low < 2 ^ 56
  state : bits low 0 4 = e.state.code
  snap : bit low 4 = e.snap
  sealed : bit low 5 = e.sealed
  keygen : bits low 6 1 = e.keygen
  keyid : bits low 7 10 = e.keyid
  claim : bits low 17 13 = e.claim
  heat : bits low 30 8 = e.heat
  version : bits low 38 8 = e.version
  hstamp : bits low 46 8 = e.hstamp
  hint : bits low 54 2 = e.hint

theorem MapEntry.FieldsFit.spelledBy_lowWord {e : MapEntry} (h : e.FieldsFit) : e.SpelledBy e.lowWord := by
  obtain ⟨hkeygen, hkeyid, hclaim, hheat, hversion, hhstamp, hhint⟩ := h
  have hcode := e.state.code_lt
  have hsnap := flag_lt e.snap
  have hsealed := flag_lt e.sealed
  unfold MapEntry.lowWord
  generalize hc : e.state.code = c at *
  generalize hp : flag e.snap = p at *
  generalize hq : flag e.sealed = q at *
  constructor
  case snap => exact bit_of_bits_eq_flag (by rw [bits_eq_div_mod, hp]; omega)
  case sealed => exact bit_of_bits_eq_flag (by rw [bits_eq_div_mod, hq]; omega)
  case lt => omega
  all_goals rw [bits_eq_div_mod]; omega

/-! #### LOCATION -/

theorem decodeLocation_stratus {mfn : Nat} (h : mfn < 2 ^ 32) : decodeLocation .stratus mfn = some (.frame mfn) :=
  if_pos (Nat.div_eq_of_lt h)

/-- An IN_FLIGHT page in Stratus has bit 63 of LOCATION clear (R68). -/
theorem decodeLocation_inFlight_of_lt {w : Nat} (h : w < 2 ^ 63) : decodeLocation .inFlight w = decodeLocation .stratus w :=
  if_neg (by simp [Nat.testBit_lt_two_pow h])

/-- An IN_FLIGHT page in Nimbus has bit 63 of LOCATION set above its run (R68). -/
theorem decodeLocation_inFlight_add {w : Nat} (h : w < 2 ^ 63) :
    decodeLocation .inFlight (w + 2 ^ 63) = decodeLocation .nimbus w := by
  have hform : (w + 2 ^ 63).testBit 63 = true := by
    rw [Nat.add_comm, Nat.testBit_two_pow_add_eq, Nat.testBit_lt_two_pow h, Bool.not_false]
  simp only [decodeLocation, hform, if_true, Nat.add_sub_cancel]

/-- The word of a run of granules with its four block counts (R68). -/
def runWord (heap c0 c1 c2 c3 : Nat) : Nat := heap + c0 * 2 ^ 38 + c1 * 2 ^ 43 + c2 * 2 ^ 48 + c3 * 2 ^ 53

theorem MapEntry.locationWord_run {e : MapEntry} {heap c0 c1 c2 c3 : Nat} (h : e.loc = .run heap c0 c1 c2 c3) :
    e.locationWord = runWord heap c0 c1 c2 c3 + if e.state = .inFlight then 2 ^ 63 else 0 := by
  rw [MapEntry.locationWord, h, runWord]

section
variable {heap c0 c1 c2 c3 : Nat} (hheap : heap < 2 ^ 38) (h0 : c0 < 32) (h1 : c1 < 32) (h2 : c2 < 32) (h3 : c3 < 32)
include hheap h0 h1 h2 h3

theorem runWord_lt : runWord heap c0 c1 c2 c3 < 2 ^ 58 := by
  unfold runWord
  omega

theorem decodeLocation_nimbus : decodeLocation .nimbus (runWord heap c0 c1 c2 c3) = some (.run heap c0 c1 c2 c3) := by
  have hfields : bits (runWord heap c0 c1 c2 c3) 0 38 = heap ∧ bits (runWord heap c0 c1 c2 c3) 38 5 = c0 ∧
      bits (runWord heap c0 c1 c2 c3) 43 5 = c1 ∧ bits (runWord heap c0 c1 c2 c3) 48 5 = c2 ∧
      bits (runWord heap c0 c1 c2 c3) 53 5 = c3 := by
    simp only [bits_eq_div_mod, runWord]
    omega
  obtain ⟨eheap, e0, e1, e2, e3⟩ := hfields
  have hreserved := Nat.div_eq_of_lt (runWord_lt hheap h0 h1 h2 h3)
  simp only [decodeLocation, hreserved, eheap, e0, e1, e2, e3, if_true]

end

/-- LOCATION is a word of 64 bits that spells the place of the page in the form of its state (R68, R69). -/
theorem MapEntry.locationWord_spells {e : MapEntry} (h : e.fits = true) :
    e.locationWord < 2 ^ 64 ∧ decodeLocation e.state e.locationWord = some e.loc := by
  rw [MapEntry.fits, Bool.and_eq_true] at h
  replace h := h.2
  cases hloc : e.loc with
  | nowhere =>
    have hword : e.locationWord = 0 := by rw [MapEntry.locationWord, hloc]
    simp only [hloc, Bool.or_eq_true, beq_iff_eq] at h
    obtain hst | hst := h <;> simp [hword, hst, decodeLocation]
  | frame mfn =>
    have hword : e.locationWord = mfn := by rw [MapEntry.locationWord, hloc]
    simp only [hloc, Bool.and_eq_true, Bool.or_eq_true, beq_iff_eq, decide_eq_true_eq] at h
    obtain ⟨hst, hmfn⟩ := h
    rw [hword]
    refine ⟨by omega, ?_⟩
    obtain hst | hst := hst
    · rw [hst, decodeLocation_stratus hmfn]
    · rw [hst, decodeLocation_inFlight_of_lt (by omega), decodeLocation_stratus hmfn]
  | run heap c0 c1 c2 c3 =>
    have hword := MapEntry.locationWord_run hloc
    simp only [hloc, Bool.and_eq_true, Bool.or_eq_true, beq_iff_eq, decide_eq_true_eq] at h
    obtain ⟨⟨⟨⟨⟨hst, hheap⟩, h0⟩, h1⟩, h2⟩, h3⟩ := h
    have hlt := runWord_lt hheap h0 h1 h2 h3
    have hrun := decodeLocation_nimbus hheap h0 h1 h2 h3
    obtain hst | hst := hst
    · rw [hword, hst, if_neg (by decide), Nat.add_zero]
      exact ⟨by omega, hrun⟩
    · rw [hword, hst, if_pos rfl, decodeLocation_inFlight_add (by omega)]
      exact ⟨by omega, hrun⟩

/-! #### The whole word -/

/-- The low word, the check byte and LOCATION stand one above the other and read back (R68). -/
theorem MapEntry.encode_parts {e : MapEntry} (hlow : e.lowWord < 2 ^ 56) (hloc : e.locationWord < 2 ^ 64) :
    bits e.encode 0 56 = e.lowWord ∧ bits e.encode 56 8 = entryCheck e.lowWord e.locationWord ∧
      bits e.encode 64 64 = e.locationWord ∧ e.encode < 2 ^ 128 := by
  have hcheck := entryCheck_lt e.lowWord e.locationWord
  simp only [bits_eq_div_mod, MapEntry.encode]
  omega

/-- A word whose check byte agrees and whose parts spell an entry decodes to it (R68, R73). -/
theorem MapEntry.decode_of_spelledBy {e : MapEntry} {w : Nat} (hcheck : bits w 56 8 = entryCheck (bits w 0 56) (bits w 64 64))
    (hlow : e.SpelledBy (bits w 0 56)) (hloc : decodeLocation e.state (bits w 64 64) = some e.loc) :
    MapEntry.decode w = some e := by
  simp only [MapEntry.decode, hcheck, ne_eq, not_true_eq_false, if_false, hlow.state, PageState.ofCode_code, hloc, Option.map_some,
    hlow.snap, hlow.sealed, hlow.keygen, hlow.keyid, hlow.claim, hlow.heat, hlow.version, hlow.hstamp, hlow.hint]

/-- Settles O8: the check byte, the low word and LOCATION stand at places of their own, and each reads back. -/
theorem mapEntryRoundTrip : Obligations.MapEntryRoundTrip := by
  intro e h
  have hlow := (MapEntry.fieldsFit_of_fits h).spelledBy_lowWord
  obtain ⟨hlt, hloc⟩ := MapEntry.locationWord_spells h
  obtain ⟨elow, echeck, eloc, hword⟩ := MapEntry.encode_parts hlow.lt hlt
  exact ⟨MapEntry.decode_of_spelledBy (by rw [echeck, elow, eloc]) (by rwa [elow]) (by rwa [eloc]), hword⟩

end Sys2Proof.Machine

/-! ### Claims (R51, R57, R65–R84, R323, R664) -/

namespace Sys2Proof.Machine

/-! #### The storm reserve (R57) -/

/-- A field that the device's enable locks ignores a write while the device is enabled, and stores it otherwise (R6, R9). -/
theorem State.writeField_devEnable (s : State) {f : Fld} (hacc : f.acc = .rwl) (hlock : f.lock = .devEnable) (i v : Nat) :
    s.writeField f i v = if s.on SYS_CTL.DEV_ENABLE then s else s.wrAt f i (f.clamp.apply v) := by
  have hfix : f.fixedCopy i ≠ true := fun hc => by simp [Fld.acc_of_fixedCopy hc] at hacc
  have hstage : s.waitsRelease f i = false := by simp [State.waitsRelease, hlock]
  simp only [State.writeField, if_neg hfix, hacc, hlock, State.locked, hstage, Bool.false_eq_true, if_false]

theorem State.storeFields_devEnable (s : State) {f : Fld} (hacc : f.acc = .rwl) (hlock : f.lock = .devEnable) (i v : Nat) :
    s.storeFields [f] i v = if s.on SYS_CTL.DEV_ENABLE then s else s.wrAt f i (f.clamp.apply (bits v f.lo f.width)) := by
  cases hon : s.on SYS_CTL.DEV_ENABLE <;>
    simp [State.storeFields, State.locked, State.writeField_devEnable s hacc hlock, hacc, hlock, hon]

theorem stormPct_clamp (v : Nat) : MAP_STORMCFG.PCT.clamp.apply (bits v 0 4) = min (v % 16) 10 := by
  simp only [MAP_STORMCFG.PCT, Clamp.apply, bits_eq_div_mod, Nat.not_lt_zero, if_false]
  split <;> omega

theorem downGiB_le (b : Nat) : downGiB b ≤ b := Nat.mul_div_le b _

theorem lt_downGiB_add (b : Nat) : b < downGiB b + 2 ^ 30 := Nat.lt_mul_div_succ b (by decide)

/-- Settles O16: PCT is a clamped field under the lock of the device's enable, and the reserve is rounded down twice, to a hundredth
and to a GiB. -/
theorem stormReserve : Obligations.StormReserve := by
  refine ⟨?reset, ?write, ?reserve⟩
  case reset => exact State.rdAt_of_unlisted rfl
  case write =>
    intro s v
    rw [State.storeFields_devEnable s rfl rfl]
    split
    · rfl
    · rw [State.rd, State.rdAt_wrAt_self]
      change MAP_STORMCFG.PCT.clamp.apply (bits v 0 4) % 2 ^ 4 = _
      rw [stormPct_clamp]
      omega
  case reserve =>
    intro s u
    have hle := downGiB_le (u * s.rd MAP_STORMCFG.PCT / 100)
    have hlt := lt_downGiB_add (u * s.rd MAP_STORMCFG.PCT / 100)
    rw [State.stormFor]
    exact ⟨Nat.dvd_mul_right _ _, by omega, by omega⟩

/-! #### A claim that passes its commit check (R51, R65) -/

theorem Table.mem_of_find {α : Type} {t : Table α} {k : Nat} {v : α} (h : t.find k = some v) : (k, v) ∈ t := by
  induction t with
  | nil => cases h
  | cons e t ih =>
    obtain ⟨k', v'⟩ := e
    rw [Table.find] at h
    split at h
    next hk => simp_all
    next => exact List.mem_cons_of_mem _ (ih h)

/-- A copy that holds a value other than its reset value is among those that the register file lists with it. -/
theorem State.mem_copiesWith {s : State} {f : Fld} {i v : Nat} (hv : s.rdAt f i = v) (hreset : f.resetAt i ≠ v) (hlo : f.lo < 64)
    (hstep : 0 < f.step) : i ∈ s.copiesWith f v := by
  have hfind : s.regs.find (f.key i) = some v := by
    rw [State.rdAt, Table.get] at hv
    cases hf : s.regs.find (f.key i) with
    | none => exact absurd (by simpa [hf] using hv) hreset
    | some w => simpa [hf] using hv
  have hplace : f.key i / 64 = f.addr + f.step * i := by rw [Fld.key]; omega
  have hbit : f.key i % 64 = f.lo := by rw [Fld.key]; omega
  refine List.mem_map.2 ⟨(f.key i, v), List.mem_filter.2 ⟨Table.mem_of_find hfind, ?_⟩, ?_⟩
  · simp [hplace, hbit]
  · simp [hplace, hstep]

/-- A claim that is committed or releasing counts as taken (R51). -/
theorem State.mem_taken {s : State} {d : Nat} (h : s.onAt MAP_CLAIMATTR.COMMIT d = true ∨ s.onAt MAP_CLAIMSTAT.RELEASING d = true) :
    d ∈ s.taken := by
  obtain h | h := h
  · exact List.mem_append_left _ (State.mem_copiesWith (beq_iff_eq.1 h) Nat.zero_ne_one (by decide) (by decide))
  · exact List.mem_append_right _ (State.mem_copiesWith (beq_iff_eq.1 h) Nat.zero_ne_one (by decide) (by decide))

/-- A check finds nothing where none of its conditions holds. -/
theorem firstCode_cons_eq_zero {b : Bool} {n : Nat} {cs : List (Bool × Nat)} (hn : n ≠ 0) :
    firstCode ((b, n) :: cs) = 0 ↔ b = false ∧ firstCode cs = 0 := by
  cases b <;> simp [firstCode, hn]

/-- What the commit check says of the range of a claim that passes it (R51, R65). -/
theorem State.claimCheck_eq_zero {s : State} {c : Nat} {reserved : Bool} (h : s.claimCheck c reserved = 0) :
    s.claimSize c ≠ 0 ∧ s.claimBase c + s.claimSize c ≤ s.dpaCap ∧
      ∀ d ∈ s.taken, d ≠ c →
        s.claimBase c + s.claimSize c ≤ s.claimBase d ∨ s.claimBase d + s.claimSize d ≤ s.claimBase c := by
  simp only [State.claimCheck] at h
  rw [firstCode_cons_eq_zero (by decide), firstCode_cons_eq_zero (by decide), firstCode_cons_eq_zero (by decide),
    firstCode_cons_eq_zero (by decide), firstCode_cons_eq_zero (by decide)] at h
  obtain ⟨-, -, hsize, hcap, hclash, -⟩ := h
  refine ⟨by simpa using hsize, by simpa using hcap, fun d hd hne => ?_⟩
  have hapart := List.any_eq_false.1 hclash d hd
  simp only [bne_iff_ne, Bool.and_eq_true, decide_eq_true_eq, ne_eq, hne, not_false_eq_true, true_and] at hapart
  omega

/-- A claim whose commit check finds something is left alone: at most MAP_CHECK gets a code (R65, R443). -/
theorem State.askCommit_of_check_ne_zero {s : State} {c : Nat} {reserved : Bool} (h : s.claimCheck c reserved ≠ 0) :
    s.askCommit c reserved = s ∨ ∃ code, s.askCommit c reserved = s.wr MAP_CHECK.CODE code := by
  rw [State.askCommit, if_pos h]
  split
  · exact .inl rfl
  · split
    · exact .inr ⟨_, rfl⟩
    · exact .inr ⟨_, rfl⟩

/-- The code of a check does not stand where a claim's COMMIT stands. -/
theorem checkCode_key_ne_commit (d : Nat) : MAP_CHECK.CODE.key 0 ≠ MAP_CLAIMATTR.COMMIT.key d := by
  simp only [Fld.key, MAP_CHECK.CODE, MAP_CLAIMATTR.COMMIT, bank]
  omega

/-- Settles O22: a check that fails leaves every COMMIT, and one that passes has compared the claim's range with every taken one. -/
theorem claimsDoNotOverlap : Obligations.ClaimsDoNotOverlap := by
  constructor
  · intro s c d reserved hcheck
    obtain h | ⟨code, h⟩ := State.askCommit_of_check_ne_zero hcheck <;> rw [h]
    rw [State.onAt, State.wr, State.rdAt_wrAt_ne s code (checkCode_key_ne_commit d), State.onAt]
  · intro s c reserved hcheck
    obtain ⟨hsize, hcap, hapart⟩ := State.claimCheck_eq_zero hcheck
    exact ⟨Nat.dvd_mul_left _ _, Nat.dvd_mul_right _ _, hsize, hcap, fun d hne htaken => hapart d (State.mem_taken htaken) hne⟩

/-! #### Commit and release (R65, R66, R443) -/

theorem exec_mapClaimCommit (p : Path) (v : Nat) (s : State) : exec (.mapClaimCommit p v) s = execMapClaimCommit p v s := rfl

theorem exec_mapClaimRelease (p : Path) (v : Nat) (s : State) : exec (.mapClaimRelease p v) s = execMapClaimRelease p v s := rfl

theorem exec_claimReleaseEnd (c : Nat) (s : State) : exec (.claimReleaseEnd c) s = execClaimReleaseEnd c s := rfl

/-- A claim that is not committed and passes its check is committed, where the member does not forward. -/
theorem State.askCommit_passed {s : State} {c : Nat} {reserved : Bool} (hcommit : s.onAt MAP_CLAIMATTR.COMMIT c = false)
    (hopen : s.claimsShut = false) (hcheck : s.claimCheck c reserved = 0) (hown : s.forwards = false) :
    s.askCommit c reserved = s.commitClaim c := by
  simp [State.askCommit, hcommit, hopen, hcheck, hown]

/-- A committed claim without a snapshot slot starts its release, where the member does not forward. -/
theorem State.askRelease_passed {s : State} {c : Nat} (hcommit : s.onAt MAP_CLAIMATTR.COMMIT c = true)
    (hopen : s.claimsShut = false) (hslots : s.slotsOf c = []) (hown : s.forwards = false) :
    s.askRelease c = s.startRelease c := by
  simp [State.askRelease, hcommit, hopen, hslots, hown]

/-- A release ends once none of its back-invalidates runs. -/
theorem execClaimReleaseEnd_of_releasing {s : State} {c : Nat} (hreleasing : s.onAt MAP_CLAIMSTAT.RELEASING c = true)
    (hbi : s.releaseBi c = false) : execClaimReleaseEnd c s = .next (s.endRelease c).settle :=
  if_neg (by simp [hreleasing, hbi])

/-! #### Grants, walks and the audit (R72, R78, R83, R323, R664) -/

theorem exec_mapClaimgrantWrite (p : Path) (high : Bool) (v : Nat) (s : State) :
    exec (.mapClaimgrantWrite p high v) s = execMapClaimgrantWrite p high v s := rfl

theorem exec_physicalRoomWaitEnd (s : State) : exec .physicalRoomWaitEnd s = execPhysicalRoomWaitEnd s := rfl

theorem exec_mapWalk (dpn : Nat) (f : WalkFind) (s : State) : exec (.mapWalk dpn f) s = execMapWalk dpn f s := rfl

theorem exec_auditSweep (flips : List (Nat × Nat)) (dirs : List Nat) (s : State) :
    exec (.auditSweep flips dirs) s = execAuditSweep flips dirs s := rfl

theorem exec_revocationSweepEnd (c : Nat) (s : State) : exec (.revocationSweepEnd c) s = execRevocationSweepEnd c s := rfl

/-- A walk reads the map where the page lies in a committed claim and its entry is not cached. -/
theorem execMapWalk_of_uncached {s : State} {dpn c : Nat} (hclaim : s.claimOf (dpn * 4096) = some c) (hmiss : s.cached dpn = none)
    (f : WalkFind) : execMapWalk dpn f s = .next (s.walkMap c dpn f).settle := by
  simp [execMapWalk, hclaim, hmiss, State.done]

/-- Settles O29 (log entries 22 to 29 name the model's choices): the guards of commit, release and walk are met, and the other
commands have none. -/
theorem claimCommands : Obligations.ClaimCommands := by
  refine ⟨?commit, ?release, ?releaseEnd, ?grantHigh, ?grantLow, ?roomWait, ?walk, ?audit, ?revoked⟩
  case commit =>
    rintro s u p v c rfl rfl hcommit hopen hcheck hown
    rw [exec_mapClaimCommit, execMapClaimCommit, State.askCommit_passed hcommit hopen hcheck hown, State.done]
  case release =>
    rintro s u p v c rfl rfl hcommit hopen hslots hown
    rw [exec_mapClaimRelease, execMapClaimRelease, State.askRelease_passed hcommit hopen hslots hown, State.done]
  case releaseEnd =>
    intro s c hreleasing hbi
    rw [exec_claimReleaseEnd, execClaimReleaseEnd_of_releasing hreleasing hbi]
  case grantHigh =>
    rintro s p v c rfl
    rw [exec_mapClaimgrantWrite, execMapClaimgrantWrite, if_pos rfl, State.done]
  case grantLow =>
    rintro s p v c rfl
    rw [exec_mapClaimgrantWrite, execMapClaimgrantWrite, if_neg Bool.false_ne_true, State.done]
  case roomWait =>
    intro s
    rw [exec_physicalRoomWaitEnd, execPhysicalRoomWaitEnd, State.done]
  case walk =>
    intro s dpn c f hclaim hmiss
    rw [exec_mapWalk, execMapWalk_of_uncached hclaim hmiss]
  case audit =>
    intro s flips dirs
    rw [exec_auditSweep, execAuditSweep, State.done]
  case revoked =>
    intro s c
    rw [exec_revocationSweepEnd, execRevocationSweepEnd, State.done]

end Sys2Proof.Machine

/-! ### Every command and every step keeps a sound state (R100, R292, R545, R569, R604) -/

namespace Sys2Proof.Machine

/-- Every command completes and keeps the queue, the sent messages and a sound state: one law for each command. -/
theorem exec_kept {q : List Instr} {o : List Output} {s : State} (h : s.Kept q o) (i : Instr) : KeptN q o (exec i s) := by
  unfold exec
  cases i with
  | identify => exact execIdentify_kept h
  | regRead => exact execRegRead_kept h
  | devEnable => exact execDevEnable_kept h
  | configRead => exact execConfigRead_kept h
  | configWrite => exact execConfigWrite_kept h
  | reset => exact execReset_kept h
  | decoderAlloc => exact execDecoderAlloc_kept h
  | claimCommit => exact execClaimCommit_kept h
  | claimRelease => exact execClaimRelease_kept h
  | claimGrant => exact execClaimGrant_kept h
  | sliceEnable => exact execSliceEnable_kept h
  | sliceSet => exact execSliceSet_kept h
  | sliceReset => exact execSliceReset_kept h
  | sliceRemove => exact execSliceRemove_kept h
  | doorbell => exact execDoorbell_kept h
  | plcPolicy => exact execPlcPolicy_kept h
  | plcClaimMode => exact execPlcClaimMode_kept h
  | snapArm => exact execSnapArm_kept h
  | qosProfile => exact execQosProfile_kept h
  | dmcCommit => exact execDmcCommit_kept h
  | channelRelease => exact execChannelRelease_kept h
  | spareStart => exact execSpareStart_kept h
  | poisonList => exact execPoisonList_kept h
  | poisonClear => exact execPoisonClear_kept h
  | kamconScrubRange => exact execKamconScrubRange_kept h
  | scrubResult => exact execScrubResult_kept h
  | scrubPolicy => exact execScrubPolicy_kept h
  | repairList => exact execRepairList_kept h
  | pprRun => exact execPprRun_kept h
  | salvageRead => exact execSalvageRead_kept h
  | salvageFree => exact execSalvageFree_kept h
  | pairEnable => exact execPairEnable_kept h
  | pairTakeover => exact execPairTakeover_kept h
  | pairGiveback => exact execPairGiveback_kept h
  | pairFence => exact execPairFence_kept h
  | pairDiscard => exact execPairDiscard_kept h
  | linkCtl => exact execLinkCtl_kept h
  | powerRequest => exact execPowerRequest_kept h
  | wakeCfg => exact execWakeCfg_kept h
  | domainRequest => exact execDomainRequest_kept h
  | fwSlots => exact execFwSlots_kept h
  | svnCommit => exact execSvnCommit_kept h
  | memRead => exact execMemRead_kept h
  | memWrite => exact execMemWrite_kept h
  | memSpecRd => exact execMemSpecRd_kept h
  | memClnEvct => exact execMemClnEvct_kept h
  | deadlineExpiry => exact execDeadlineExpiry_kept h
  | linkUp => exact execLinkUp_kept h
  | linkRetrain => exact execLinkRetrain_kept h
  | ideKm => exact execIdeKm_kept h
  | ideIntegrityFailure => exact execIdeIntegrityFailure_kept h
  | linkDown => exact execLinkDown_kept h
  | perstAssert => exact execPerstAssert_kept h
  | perstDeassert => exact execPerstDeassert_kept h
  | functionLevelReset => exact execFunctionLevelReset_kept h
  | creditOverflow => exact execCreditOverflow_kept h
  | linkInternalParity => exact execLinkInternalParity_kept h
  | flitCrcError => exact execFlitCrcError_kept h
  | malformedTlp => exact execMalformedTlp_kept h
  | hdmDecoderCommit => exact execHdmDecoderCommit_kept h
  | fmSetLdAllocations => exact execFmSetLdAllocations_kept h
  | fmGetLdAllocations => exact execFmGetLdAllocations_kept h
  | fmLdInfo => exact execFmLdInfo_kept h
  | fmMultiHeadedInfo => exact execFmMultiHeadedInfo_kept h
  | fmHeadInfo => exact execFmHeadInfo_kept h
  | fmDcdManagement => exact execFmDcdManagement_kept h
  | mapClaimCommit => exact execMapClaimCommit_kept h
  | mapClaimRelease => exact execMapClaimRelease_kept h
  | claimReleaseEnd => exact execClaimReleaseEnd_kept h
  | mapClaimgrantWrite => exact execMapClaimgrantWrite_kept h
  | physicalRoomWaitEnd => exact execPhysicalRoomWaitEnd_kept h
  | mapWalk => exact execMapWalk_kept h
  | auditSweep => exact execAuditSweep_kept h
  | cirrusWriteback => exact execCirrusWriteback_kept h
  | writebackBufferFree => exact execWritebackBufferFree_kept h
  | cirFlushStart => exact execCirFlushStart_kept h
  | flushEnd => exact execFlushEnd_kept h
  | cirSweepStart => exact execCirSweepStart_kept h
  | excursionSweepEnd => exact execExcursionSweepEnd_kept h
  | epochBoundary => exact execEpochBoundary_kept h
  | coldScan => exact execColdScan_kept h
  | selectionComplete => exact execSelectionComplete_kept h
  | selectionWindowExpiry => exact execSelectionWindowExpiry_kept h
  | moveStart => exact execMoveStart_kept h
  | copyPassEnd => exact execCopyPassEnd_kept h
  | switchEnd => exact execSwitchEnd_kept h
  | switchCancel => exact execSwitchCancel_kept h
  | incompressibleFilterExpiry => exact execIncompressibleFilterExpiry_kept h
  | plcApply => exact execPlcApply_kept h
  | nimbusDecode => exact execNimbusDecode_kept h
  | decodeRetry => exact execDecodeRetry_kept h
  | nmbPipeFail => exact execNmbPipeFail_kept h
  | heapDirectoryRebuild => exact execHeapDirectoryRebuild_kept h
  | snpArmArm => exact execSnpArmArm_kept h
  | armingComplete => exact execArmingComplete_kept h
  | eagerCursorRead => exact execEagerCursorRead_kept h
  | captureTrackerFree => exact execCaptureTrackerFree_kept h
  | captureEnd => exact execCaptureEnd_kept h
  | captureTime => exact execCaptureTime_kept h
  | exportDmaComplete => exact execExportDmaComplete_kept h
  | exportDmaError => exact execExportDmaError_kept h
  | exportLinkTimeout => exact execExportLinkTimeout_kept h
  | abortMarksCleared => exact execAbortMarksCleared_kept h
  | snapMarkClearEnd => exact execSnapMarkClearEnd_kept h
  | importRecord => exact execImportRecord_kept h
  | channelCommit => exact execChannelCommit_kept h
  | channelUncommit => exact execChannelUncommit_kept h
  | backgroundInitialization => exact execBackgroundInitialization_kept h
  | dramDataReturn => exact execDramDataReturn_kept h
  | panicWaitExpiry => exact execPanicWaitExpiry_kept h
  | panicEnd => exact execPanicEnd_kept h
  | refresh => exact execRefresh_kept h
  | dimmTemperatureRead => exact execDimmTemperatureRead_kept h
  | powerDownEntry => exact execPowerDownEntry_kept h
  | dramPllLock => exact execDramPllLock_kept h
  | trainingStepEnd => exact execTrainingStepEnd_kept h
  | caParityError => exact execCaParityError_kept h
  | dmcFrzctlRelease => exact execDmcFrzctlRelease_kept h
  | channelReleaseEnd => exact execChannelReleaseEnd_kept h
  | dmcSparectlStart => exact execDmcSparectlStart_kept h
  | sparingCopy => exact execSparingCopy_kept h
  | medScrubctlStart => exact execMedScrubctlStart_kept h
  | medScrubctlStop => exact execMedScrubctlStop_kept h
  | scrubRead => exact execScrubRead_kept h
  | scrubPolicyPass => exact execScrubPolicyPass_kept h
  | hpprRowEnd => exact execHpprRowEnd_kept h
  | medPprctlStart => exact execMedPprctlStart_kept h
  | pprEnd => exact execPprEnd_kept h
  | secVeilcfgRotate => exact execSecVeilcfgRotate_kept h
  | veilSweepPage => exact execVeilSweepPage_kept h
  | rotationEnd => exact execRotationEnd_kept h
  | rewriteTrackerItem => exact execRewriteTrackerItem_kept h
  | counterFetch => exact execCounterFetch_kept h
  | secRegionctlEnable => exact execSecRegionctlEnable_kept h
  | rekeySweepPage => exact execRekeySweepPage_kept h
  | keyidRetirement => exact execKeyidRetirement_kept h
  | breachRecoveryEnd => exact execBreachRecoveryEnd_kept h
  | secRngFail => exact execSecRngFail_kept h
  | secPipePar => exact execSecPipePar_kept h
  | birsp => exact execBirsp_kept h
  | biconflict => exact execBiconflict_kept h
  | tBiExpiry => exact execTBiExpiry_kept h
  | grantHoldEnd => exact execGrantHoldEnd_kept h
  | revocationSweepEnd => exact execRevocationSweepEnd_kept h
  | backgroundEviction => exact execBackgroundEviction_kept h
  | halFence => exact execHalFence_kept h
  | halUnfence => exact execHalUnfence_kept h
  | fenceSweepEnd => exact execFenceSweepEnd_kept h
  | halPeakClear => exact execHalPeakClear_kept h
  | slcEnable => exact execSlcEnable_kept h
  | slcRemove => exact execSlcRemove_kept h
  | sliceRemoveEnd => exact execSliceRemoveEnd_kept h
  | slcReset => exact execSlcReset_kept h
  | sliceResetEnd => exact execSliceResetEnd_kept h
  | dbAssign => exact execDbAssign_kept h
  | dbFree => exact execDbFree_kept h
  | queCtlEnable => exact execQueCtlEnable_kept h
  | queCtlDisable => exact execQueCtlDisable_kept h
  | queueDisabled => exact execQueueDisabled_kept h
  | queCtlResize => exact execQueCtlResize_kept h
  | resizeSwitch => exact execResizeSwitch_kept h
  | sqTail => exact execSqTail_kept h
  | cqHead => exact execCqHead_kept h
  | descriptorFetch => exact execDescriptorFetch_kept h
  | descriptorCompletion => exact execDescriptorCompletion_kept h
  | nop => exact execNop_kept h
  | copy => exact execCopy_kept h
  | fill => exact execFill_kept h
  | zero => exact execZero_kept h
  | compare => exact execCompare_kept h
  | demoteRange => exact execDemoteRange_kept h
  | promoteRange => exact execPromoteRange_kept h
  | hintHot => exact execHintHot_kept h
  | hintCold => exact execHintCold_kept h
  | pin => exact execPin_kept h
  | unpin => exact execUnpin_kept h
  | flush => exact execFlush_kept h
  | scrubRange => exact execScrubRange_kept h
  | snapCut => exact execSnapCut_kept h
  | snapExport => exact execSnapExport_kept h
  | snapRelease => exact execSnapRelease_kept h
  | importStream => exact execImportStream_kept h
  | fence => exact execFence_kept h
  | tokenWindow => exact execTokenWindow_kept h
  | priorityRecompute => exact execPriorityRecompute_kept h
  | qosProfileEnable => exact execQosProfileEnable_kept h
  | conCtlLinken => exact execConCtlLinken_kept h
  | conCtlLinkenOff => exact execConCtlLinkenOff_kept h
  | conCtlRetrain => exact execConCtlRetrain_kept h
  | conCtlDown => exact execConCtlDown_kept h
  | conCtlReadd => exact execConCtlReadd_kept h
  | bundleReaddEnd => exact execBundleReaddEnd_kept h
  | trainingRetry => exact execTrainingRetry_kept h
  | contrailTrainingStep => exact execContrailTrainingStep_kept h
  | codeword => exact execCodeword_kept h
  | mw => exact execMw_kept h
  | rsw => exact execRsw_kept h
  | stream => exact execStream_kept h
  | keyx => exact execKeyx_kept h
  | ack => exact execAck_kept h
  | hb => exact execHb_kept h
  | lane => exact execLane_kept h
  | mirack => exact execMirack_kept h
  | params => exact execParams_kept h
  | claimdef => exact execClaimdef_kept h
  | claimrel => exact execClaimrel_kept h
  | result => exact execResult_kept h
  | stripeDone => exact execStripeDone_kept h
  | stripeAck => exact execStripeAck_kept h
  | unback => exact execUnback_kept h
  | fetch => exact execFetch_kept h
  | pstat => exact execPstat_kept h
  | giveback => exact execGiveback_kept h
  | slicemap => exact execSlicemap_kept h
  | rxopen => exact execRxopen_kept h
  | rxresult => exact execRxresult_kept h
  | rxopenTimeout => exact execRxopenTimeout_kept h
  | rxclose => exact execRxclose_kept h
  | sealen => exact execSealen_kept h
  | sealres => exact execSealres_kept h
  | refetch => exact execRefetch_kept h
  | refdone => exact execRefdone_kept h
  | xkey => exact execXkey_kept h
  | xkeyack => exact execXkeyack_kept h
  | keyrenew => exact execKeyrenew_kept h
  | keyrenewack => exact execKeyrenewack_kept h
  | reservedCtrlMsg => exact execReservedCtrlMsg_kept h
  | replayTimeout => exact execReplayTimeout_kept h
  | retrainTimeout => exact execRetrainTimeout_kept h
  | keyingTimeout => exact execKeyingTimeout_kept h
  | ackTimer => exact execAckTimer_kept h
  | mwPacketClose => exact execMwPacketClose_kept h
  | hbSend => exact execHbSend_kept h
  | conHbLost => exact execConHbLost_kept h
  | laneSwapRequest => exact execLaneSwapRequest_kept h
  | laneLockLoss => exact execLaneLockLoss_kept h
  | swapRequestRepeat => exact execSwapRequestRepeat_kept h
  | bundleDropRequest => exact execBundleDropRequest_kept h
  | parCtlEnable => exact execParCtlEnable_kept h
  | parCtlLeave => exact execParCtlLeave_kept h
  | paramsTimeout => exact execParamsTimeout_kept h
  | parCtlTakeover => exact execParCtlTakeover_kept h
  | parCtlGiveback => exact execParCtlGiveback_kept h
  | parCtlFence => exact execParCtlFence_kept h
  | parCtlDiscard => exact execParCtlDiscard_kept h
  | discardEnd => exact execDiscardEnd_kept h
  | ptimeoutExpiry => exact execPtimeoutExpiry_kept h
  | mirackStallTimeout => exact execMirackStallTimeout_kept h
  | resyncStripe => exact execResyncStripe_kept h
  | pstatSend => exact execPstatSend_kept h
  | engineDpaAccess => exact execEngineDpaAccess_kept h
  | stage1Walk => exact execStage1Walk_kept h
  | spdmMsg => exact execSpdmMsg_kept h
  | veilRotateCall => exact execVeilRotateCall_kept h
  | fwCheck => exact execFwCheck_kept h
  | svnCommitCall => exact execSvnCommitCall_kept h
  | coreRestart => exact execCoreRestart_kept h
  | worldReturn => exact execWorldReturn_kept h
  | asyncEntry => exact execAsyncEntry_kept h
  | mupGo => exact execMupGo_kept h
  | coreInval => exact execCoreInval_kept h
  | engTlbinv => exact execEngTlbinv_kept h
  | tlbInvalidationEnd => exact execTlbInvalidationEnd_kept h
  | engWdogPet => exact execEngWdogPet_kept h
  | engZwdog => exact execEngZwdog_kept h
  | engLockstep => exact execEngLockstep_kept h
  | engHoldWrite => exact execEngHoldWrite_kept h
  | engMemUe => exact execEngMemUe_kept h
  | powerGood => exact execPowerGood_kept h
  | powerGoodLoss => exact execPowerGoodLoss_kept h
  | refclkLoss => exact execRefclkLoss_kept h
  | pllUnlock => exact execPllUnlock_kept h
  | rootPllLock => exact execRootPllLock_kept h
  | selfTestEnd => exact execSelfTestEnd_kept h
  | zenithVerifyEnd => exact execZenithVerifyEnd_kept h
  | horizonVerifyEnd => exact execHorizonVerifyEnd_kept h
  | devEnableCheck => exact execDevEnableCheck_kept h
  | devDisable => exact execDevDisable_kept h
  | rstCtlCold => exact execRstCtlCold_kept h
  | rstCtlWarm => exact execRstCtlWarm_kept h
  | warmResetStep => exact execWarmResetStep_kept h
  | rstCtlGo => exact execRstCtlGo_kept h
  | blockResetEnd => exact execBlockResetEnd_kept h
  | thermtrip => exact execThermtrip_kept h
  | cciIdentify => exact execCciIdentify_kept h
  | backgroundOperationStatus => exact execBackgroundOperationStatus_kept h
  | getResponseMessageLimit => exact execGetResponseMessageLimit_kept h
  | setResponseMessageLimit => exact execSetResponseMessageLimit_kept h
  | requestAbortBackgroundOperation => exact execRequestAbortBackgroundOperation_kept h
  | getEventRecords => exact execGetEventRecords_kept h
  | clearEventRecords => exact execClearEventRecords_kept h
  | getEventInterruptPolicy => exact execGetEventInterruptPolicy_kept h
  | setEventInterruptPolicy => exact execSetEventInterruptPolicy_kept h
  | getFwInfo => exact execGetFwInfo_kept h
  | transferFw => exact execTransferFw_kept h
  | activateFw => exact execActivateFw_kept h
  | getTimestamp => exact execGetTimestamp_kept h
  | setTimestamp => exact execSetTimestamp_kept h
  | getSupportedLogs => exact execGetSupportedLogs_kept h
  | getLog => exact execGetLog_kept h
  | identifyMemoryDevice => exact execIdentifyMemoryDevice_kept h
  | getHealthInfo => exact execGetHealthInfo_kept h
  | getAlertConfiguration => exact execGetAlertConfiguration_kept h
  | setAlertConfiguration => exact execSetAlertConfiguration_kept h
  | getPoisonList => exact execGetPoisonList_kept h
  | injectPoison => exact execInjectPoison_kept h
  | clearPoison => exact execClearPoison_kept h
  | getScanMediaCapabilities => exact execGetScanMediaCapabilities_kept h
  | scanMedia => exact execScanMedia_kept h
  | getScanMediaResults => exact execGetScanMediaResults_kept h
  | sanitize => exact execSanitize_kept h
  | secureErase => exact execSecureErase_kept h
  | getDynamicCapacityConfiguration => exact execGetDynamicCapacityConfiguration_kept h
  | getDcExtentList => exact execGetDcExtentList_kept h
  | addDcResponse => exact execAddDcResponse_kept h
  | releaseDynamicCapacity => exact execReleaseDynamicCapacity_kept h
  | unsupportedCommand => exact execUnsupportedCommand_kept h
  | commandTimeout => exact execCommandTimeout_kept h
  | backgroundOperationEnd => exact execBackgroundOperationEnd_kept h
  | bindSlice => exact execBindSlice_kept h
  | getBinding => exact execGetBinding_kept h
  | sealEnable => exact execSealEnable_kept h
  | sealRecovery => exact execSealRecovery_kept h
  | breachList => exact execBreachList_kept h
  | zrSalvageRead => exact execZrSalvageRead_kept h
  | exportKeyCreate => exact execExportKeyCreate_kept h
  | exportKeyGet => exact execExportKeyGet_kept h
  | exportKeyLoad => exact execExportKeyLoad_kept h
  | exportKeyDrop => exact execExportKeyDrop_kept h
  | zrVeilRotate => exact execZrVeilRotate_kept h
  | hazeEntry => exact execHazeEntry_kept h
  | hazeExit => exact execHazeExit_kept h
  | overcastEntry => exact execOvercastEntry_kept h
  | overcastWake => exact execOvercastWake_kept h
  | pwrCtlNight => exact execPwrCtlNight_kept h
  | pwrCtlClear => exact execPwrCtlClear_kept h
  | nightEntry => exact execNightEntry_kept h
  | nightEntryStep => exact execNightEntryStep_kept h
  | nightWake => exact execNightWake_kept h
  | nightExitStep => exact execNightExitStep_kept h
  | domainWake => exact execDomainWake_kept h
  | domainWakeEnd => exact execDomainWakeEnd_kept h
  | pwrDomctlGo => exact execPwrDomctlGo_kept h
  | domainGateEffect => exact execDomainGateEffect_kept h
  | supplyWarning => exact execSupplyWarning_kept h
  | guardLift => exact execGuardLift_kept h
  | fltStickyClear => exact execFltStickyClear_kept h
  | chiprst => exact execChiprst_kept h
  | fltFifoRead => exact execFltFifoRead_kept h
  | hbeatToggle => exact execHbeatToggle_kept h
  | eventRecord => exact execEventRecord_kept h
  | telCtlStart => exact execTelCtlStart_kept h
  | sweepPeriod => exact execSweepPeriod_kept h
  | sweepEnd => exact execSweepEnd_kept h
  | telCtlClrall => exact execTelCtlClrall_kept h
  | telCntvalWrite => exact execTelCntvalWrite_kept h
  | telSmprdWrite => exact execTelSmprdWrite_kept h
  | junctionSensorRead => exact execJunctionSensorRead_kept h
  | thermSensor => exact execThermSensor_kept h
  | throttleRelease => exact execThrottleRelease_kept h
  | railSample => exact execRailSample_kept h
  | eyeEstimate => exact execEyeEstimate_kept h
  | registerWrite => exact execRegisterWrite_kept h
  | jtagInstruction => exact execJtagInstruction_kept h
  | linkLowPowerEntry => exact execLinkLowPowerEntry_kept h
  | serdesPllLock => exact execSerdesPllLock_kept h
  | hostReceiverCalibration => exact execHostReceiverCalibration_kept h
  | doeRequest => exact execDoeRequest_kept h
  | keyRenewal => exact execKeyRenewal_kept h
  | queParity => exact execQueParity_kept h
  | cmplDma => exact execCmplDma_kept h
  | fltSrccfgWrite => exact execFltSrccfgWrite_kept h
  | fltIntcfgWrite => exact execFltIntcfgWrite_kept h
  | occupancySample => exact execOccupancySample_kept h

theorem State.Sound.kept {s : State} (h : s.Sound) : s.Kept s.pending s.out := ⟨rfl, List.suffix_rfl, h⟩

/-- Settles O3. That a command which cannot take effect answers a next state, and no fault or refusal, is the model's choice
(log entry 10). -/
theorem everyCommandCompletes : Obligations.EveryCommandCompletes := by
  intro i s h
  obtain ⟨t, hexec, ht⟩ := exec_kept h.kept i
  exact ⟨t, hexec, ht.queue, ht.sent, ht.sound⟩

/-! #### A step without a command (log entry 1) -/

section
variable {q : List Instr} {o : List Output} {s : State}

theorem State.tick_kept (h : s.Kept q o) : s.tick.Kept q o := by
  have htime : ({ s with time := s.time + 1 } : State).Kept q o := h.same rfl rfl rfl rfl rfl rfl rfl rfl rfl
  unfold State.tick
  split
  · dsimp only
    split
    · exact State.event_kept htime
    · exact htime
  · exact h

theorem State.issueWrites_kept (h : s.Kept q o) : s.issueWrites.Kept q o := by
  refine State.Kept.foldl (fun t c ht => ?_) h
  split
  · exact State.drain_kept ht
  · exact ht

end

/-- Leaving replies out touches the messages and the mailbox alone. -/
theorem State.Sound.mute {t : State} (h : t.Sound) (cci old : Nat) : (t.mute cci old).Sound := { h with }

/-- Horizon's held command runs on a sound state, as the mailbox is no part of soundness. -/
theorem State.Sound.runHeld {s : State} (h : s.Sound) : ∃ t, s.runHeld = .next t ∧ t.Sound := by
  have hdone : ∃ t, s.done = .next t ∧ t.Sound := ⟨s.settle, rfl, (State.settle_kept h.kept).sound⟩
  unfold State.runHeld
  split
  next => exact hdone
  next =>
  split
  next => exact hdone
  next cci muted i rest _ =>
  have htaken : ({ s with mbx := { s.mbx with queue := [] } } : State).Sound := { h with }
  obtain ⟨t, hexec, -, -, ht⟩ := everyCommandCompletes i _ htaken
  have hback : ({ t with mbx := { t.mbx with queue := t.mbx.queue ++ rest } } : State).Sound := { ht with }
  rw [hexec]
  refine ⟨_, rfl, ?_⟩
  split
  · exact hback.mute cci s.out.length
  · exact hback

/-- Settles O4: a command runs on the state without it in the queue, and the queue is no part of soundness; the step without a
command ticks, issues writes and runs a held command. -/
theorem everyStepKeepsSound : Obligations.EveryStepKeepsSound := by
  intro s h
  unfold safeStep step
  split
  next => exact (State.issueWrites_kept (State.tick_kept h.kept)).sound.runHeld
  next c cs _ =>
  have hrest : ({ s with pending := cs } : State).Sound := { h with }
  obtain ⟨t, hexec, -, -, ht⟩ := everyCommandCompletes c _ hrest
  exact ⟨t, hexec, ht⟩

end Sys2Proof.Machine

/-! ### The near-store (R97–R99, R113, R114) -/

namespace Sys2Proof.Machine

theorem exec_cirrusWriteback (dpaLine : Nat) (fs : Finds) (mismatch : Bool) (s : State) :
    exec (.cirrusWriteback dpaLine fs mismatch) s = execCirrusWriteback dpaLine fs mismatch s := rfl

theorem exec_writebackBufferFree (s : State) : exec .writebackBufferFree s = execWritebackBufferFree s := rfl

theorem exec_cirFlushStart (v : Nat) (s : State) : exec (.cirFlushStart v) s = execCirFlushStart v s := rfl

theorem exec_flushEnd (fs : Finds) (s : State) : exec (.flushEnd fs) s = execFlushEnd fs s := rfl

theorem exec_cirSweepStart (s : State) : exec .cirSweepStart s = execCirSweepStart s := rfl

theorem exec_excursionSweepEnd (finds : List (Nat × CirrusFind)) (s : State) :
    exec (.excursionSweepEnd finds) s = execExcursionSweepEnd finds s := rfl

/-- A buffered line of a page in a frame that can be reached is written there, counted for its claim, and leaves the buffer
(R97, R98). -/
theorem State.writeBack_of_buffered {s t u : State} {dpaLine mfn : Nat} {fs : Finds} {w : Writeback} {l : Line} {poison : Bool}
    (hbuffered : s.cir.buffer.find? (fun w => w.dpaLine == dpaLine) = some w) (hrefetch : s.refetching (dpaLine / 64) = false)
    (haway : s.targetAway (dpaLine / 64) = false) (hloc : (s.entry (dpaLine / 64)).loc = .frame mfn)
    (hwrite : s.writeStratus w mfn (fs.line (mfn * 64 + dpaLine % 64)) = some (l, poison, t))
    (hu : u = t.claimEvent Ev.writebacks 0 (s.entry (dpaLine / 64)).claim) (mismatch : Bool) :
    s.writeBack dpaLine fs mismatch = { u with cir := { u.cir with buffer := dropFirst dpaLine u.cir.buffer } } := by
  subst hu
  simp [State.writeBack, hbuffered, hrefetch, haway, hloc, hwrite]

theorem execCirFlushStart_of_idle {s : State} (h : s.on CIR_FLUSH.START = false) (v : Nat) : execCirFlushStart v s =
    .next ((s.storeFields [CIR_FLUSH.INVAL, CIR_FLUSH.SCOPE, CIR_FLUSH.CLAIM] 0 v).put CIR_FLUSH.START true) :=
  if_neg (by simp [h])

theorem execFlushEnd_of_running {s t : State} {fs : Finds} {left : Nat} (hstart : s.on CIR_FLUSH.START = true)
    (hflush : s.flush s.flushScope (s.on CIR_FLUSH.INVAL) fs = (left, t)) :
    execFlushEnd fs s = .next ((t.wr CIR_FLUSH.LEFTHELD left).put CIR_FLUSH.START false).settle := by
  simp only [execFlushEnd, if_pos hstart, hflush, State.done]

theorem execCirSweepStart_of_idle {s : State} (h : s.on CIR_SWEEP.START = false) :
    execCirSweepStart s = .next (s.startSweep false) := by
  simp [execCirSweepStart, h]

theorem execExcursionSweepEnd_of_running {s : State} {x : Sweep} (h : s.cir.sweep = some x) (finds : List (Nat × CirrusFind)) :
    execExcursionSweepEnd finds s = .next (s.endExcursion x finds).settle := by
  simp only [execExcursionSweepEnd, h, State.done]

/-- Settles O30 (log entries 30, 31 and 39 name the model's choices): a writeback acts on a buffered line that is not held back;
flushes and sweeps start while none runs, and end where one does. -/
theorem cirrusCommands : Obligations.CirrusCommands := by
  refine ⟨?writeback, ?bufferFree, ?flushStart, ?flushEnd, ?sweepStart, ?sweepEnd⟩
  case writeback =>
    intro s t u dpaLine mfn fs mismatch w l poison hbuffered hrefetch haway hloc hwrite hu
    rw [exec_cirrusWriteback, execCirrusWriteback, State.writeBack_of_buffered hbuffered hrefetch haway hloc hwrite hu, State.done]
  case bufferFree =>
    intro s
    rw [exec_writebackBufferFree, execWritebackBufferFree, State.done]
  case flushStart =>
    intro s v hidle
    rw [exec_cirFlushStart, execCirFlushStart_of_idle hidle]
  case flushEnd =>
    intro s t fs left hstart hflush
    rw [exec_flushEnd, execFlushEnd_of_running hstart hflush]
  case sweepStart =>
    intro s hidle
    rw [exec_cirSweepStart, execCirSweepStart_of_idle hidle]
  case sweepEnd =>
    intro s x finds hsweep
    rw [exec_excursionSweepEnd, execExcursionSweepEnd_of_running hsweep]

end Sys2Proof.Machine

/-! ### The placement engine (R130, R133, R135, R138, R139, R141, R142, R144–R148, R150) -/

namespace Sys2Proof.Machine

theorem exec_plcApply (s : State) : exec .plcApply s = execPlcApply s := rfl

theorem exec_epochBoundary (s : State) : exec .epochBoundary s = execEpochBoundary s := rfl

theorem exec_coldScan (s : State) : exec .coldScan s = execColdScan s := rfl

theorem exec_selectionComplete (s : State) : exec .selectionComplete s = execSelectionComplete s := rfl

theorem exec_selectionWindowExpiry (s : State) : exec .selectionWindowExpiry s = execSelectionWindowExpiry s := rfl

theorem exec_incompressibleFilterExpiry (s : State) :
    exec .incompressibleFilterExpiry s = execIncompressibleFilterExpiry s := rfl

theorem exec_moveStart (explicit : Bool) (s : State) : exec (.moveStart explicit) s = execMoveStart explicit s := rfl

theorem exec_copyPassEnd (dpn : Nat) (fs : Finds) (bad : List Nat) (s : State) :
    exec (.copyPassEnd dpn fs bad) s = execCopyPassEnd dpn fs bad s := rfl

theorem exec_switchEnd (dpn : Nat) (fs : Finds) (bad : List Nat) (s : State) :
    exec (.switchEnd dpn fs bad) s = execSwitchEnd dpn fs bad s := rfl

theorem exec_switchCancel (dpn : Nat) (s : State) : exec (.switchCancel dpn) s = execSwitchCancel dpn s := rfl

/-! #### Policy, epochs, the cold scan and selection -/

section
variable {s : State}

/-- A policy that passes its check waits for the next epoch (R146). -/
theorem State.askApply_passed (h : s.policyCheck = 0) : s.askApply = (s.wr PLC_APPLY.CHECK 0).applyPolicy := by
  simp only [State.askApply, h, if_pos]

theorem execEpochBoundary_of_clear (h : s.clearState = true) : execEpochBoundary s = .next s.endEpoch.settle :=
  if_neg (by simp [h])

section
variable (hscan : s.on PLC_STATUS.SCANNING = true) (hrun : s.on PLC_STATUS.PAUSED = false) (hclear : s.clearState = true)
include hscan hrun hclear

/-- In CLEAR a scan that is not paused reads the leaf of the next page that lies in a claim (R130). -/
theorem execColdScan_of_nextPage {p : Nat} (hnext : s.nextPage s.plc.scanAt = some p) :
    execColdScan s = .next (s.scanLeaf p).settle := by
  simp [execColdScan, hscan, hrun, hclear, hnext, State.done]

/-- The scan ends behind the last page of a claim (R130). -/
theorem execColdScan_of_no_nextPage (hnext : s.nextPage s.plc.scanAt = none) : execColdScan s = .next s.endScan := by
  simp [execColdScan, hscan, hrun, hclear, hnext]

end

theorem execSelectionComplete_of_selecting (h : s.plc.selecting = true) :
    execSelectionComplete s = .next s.selectMoves.settle := if_neg (by simp [h])

/-- The window ends a selection that is still open; the second such window in a row takes it from the drift programs (R135). -/
theorem execSelectionWindowExpiry_of_selecting (h : s.plc.selecting = true) :
    execSelectionWindowExpiry s = .next (if s.plc.missed = 0 then s.missWindow else s.missWindow.fallBack) :=
  if_neg (by simp [h])

end

/-! #### Moves -/

section
variable {s : State}

/-- The first autonomous move that can start does so where a tracker is free, its page is still to be moved, and nothing freezes the
channel that it leaves (R137, R139). -/
theorem execMoveStart_of_startable {t : State} {m : Chosen} (hrun : s.on PLC_STATUS.PAUSED = false)
    (hroom : s.plc.moves.length < trackerCount)
    (hfirst : (s.plc.chosen.find? fun x => x.explicit.isSome == false && s.startable x) = some m)
    (hpage : s.rangePageStatus m.dpn m.kind = none)
    (hserving : (s.locationChannel (s.entry m.dpn).loc).any s.frozen = false) (hbegin : s.beginMove m = some t) :
    execMoveStart false s = .next (t.dropChosen m).settle := by
  have hfree : decide (trackerCount ≤ s.plc.moves.length) = false := decide_eq_false (Nat.not_le.mpr hroom)
  cases hloc : s.locationChannel (s.entry m.dpn).loc with
  | none => simp only [execMoveStart, hrun, hfree, hfirst, hpage, hloc, hbegin, Bool.false_eq_true, if_false, Bool.or_self,
      Bool.false_and, State.done]
  | some c =>
    have hchannel : s.frozen c = false := by simpa only [hloc, Option.any_some] using hserving
    simp only [execMoveStart, hrun, hfree, hfirst, hpage, hloc, hchannel, hbegin, Bool.false_eq_true, if_false, Bool.or_self,
      Bool.false_and, State.done]

variable {dpn : Nat} {m : Move} (hmove : s.move dpn = some m) (fs : Finds) (bad : List Nat)
include hmove

/-- A pass ends for a move that does not switch, where it waits neither for the pause to end, nor for a pipe, nor for a channel in
panic (R139, R181, R394). -/
theorem execCopyPassEnd_of_copying (hcopying : m.switching = false) (hrun : s.on PLC_STATUS.PAUSED = false)
    (hpipe : s.moveNeedsPipe m = false) (hcompress : m.kind = .demote → s.canCompress = true)
    (hcalm : ([m.src, m.dest].any fun l => (s.locationChannel l).any fun c => s.panicHolds masterDrift c) = false) :
    execCopyPassEnd dpn fs bad s = .next (s.endPass m dpn fs bad).settle := by
  have hgo : ¬ (m.switching || s.on PLC_STATUS.PAUSED || s.moveNeedsPipe m) = true := by simp [hcopying, hrun, hpipe]
  have hable : ¬ (m.kind = .demote && !s.canCompress) = true := by simpa using hcompress
  simp only [execCopyPassEnd, hmove, if_neg hgo, if_neg hable, hcalm, Bool.false_eq_true, if_false, State.done]

theorem execSwitchEnd_of_switching (hswitching : m.switching = true) :
    execSwitchEnd dpn fs bad s = .next (s.endSwitch m dpn fs bad).settle := by
  simp [execSwitchEnd, hmove, hswitching, State.done]

omit fs bad in
theorem execSwitchCancel_of_switching (hswitching : m.switching = true) :
    execSwitchCancel dpn s = .next (s.cancelSwitch dpn m).settle := by
  simp [execSwitchCancel, hmove, hswitching, State.done]

end

/-! #### Where each command completes -/

/-- Settles O31 (log entries 38, 40 and 41 name the model's choices): scan, selection and moves act where the engine is in the phase
that the command ends, and nothing pauses or holds it. -/
theorem placementCommands : Obligations.PlacementCommands := by
  refine ⟨?apply, ?epoch, ?scanLeaf, ?scanEnd, ?selected, ?firstMiss, ?laterMiss, ?filter, ?moveStart, ?copyPass, ?switchEnd,
    ?switchCancel⟩
  case apply =>
    intro s hcheck
    rw [exec_plcApply, execPlcApply, State.askApply_passed hcheck, State.done]
  case epoch =>
    intro s hclear
    rw [exec_epochBoundary, execEpochBoundary_of_clear hclear]
  case scanLeaf =>
    intro s p hscan hrun hclear hnext
    rw [exec_coldScan, execColdScan_of_nextPage hscan hrun hclear hnext]
  case scanEnd =>
    intro s hscan hrun hclear hnext
    rw [exec_coldScan, execColdScan_of_no_nextPage hscan hrun hclear hnext]
  case selected =>
    intro s hselecting
    rw [exec_selectionComplete, execSelectionComplete_of_selecting hselecting]
  case firstMiss =>
    intro s hselecting hmissed
    rw [exec_selectionWindowExpiry, execSelectionWindowExpiry_of_selecting hselecting, if_pos hmissed]
  case laterMiss =>
    intro s hselecting hmissed
    rw [exec_selectionWindowExpiry, execSelectionWindowExpiry_of_selecting hselecting, if_neg hmissed]
  case filter =>
    intro s
    rw [exec_incompressibleFilterExpiry, execIncompressibleFilterExpiry]
  case moveStart =>
    intro s t m hrun hroom hfirst hpage hserving hbegin
    rw [exec_moveStart, execMoveStart_of_startable hrun hroom hfirst hpage hserving hbegin]
  case copyPass =>
    intro s dpn fs bad m hmove hcopying hrun hpipe hcompress hcalm
    rw [exec_copyPassEnd, execCopyPassEnd_of_copying hmove fs bad hcopying hrun hpipe hcompress hcalm]
  case switchEnd =>
    intro s dpn fs bad m hmove hswitching
    rw [exec_switchEnd, execSwitchEnd_of_switching hmove fs bad hswitching]
  case switchCancel =>
    intro s dpn m hmove hswitching
    rw [exec_switchCancel, execSwitchCancel_of_switching hmove hswitching]

end Sys2Proof.Machine

/-! ### Queue descriptors (R136, R137, R191, R199, R211, R212, R358, R362, R364–R369) -/

namespace Sys2Proof.Machine

/-- A descriptor that runs under the command's opcode has that opcode's work done (R358, R359, R362). -/
theorem State.runDesc_of_runs {s : State} {q i op : Nat} {d : Desc} (h : s.runs q i op d = true)
    (work : State → Desc → State) : s.runDesc q i op work = .next (work s d).settle := by
  obtain ⟨⟨⟨hdesc, hop⟩, hruns⟩, hranges⟩ :
      ((s.desc q i = some d ∧ d.op = op) ∧ s.descRuns d = true) ∧ s.rangesOk d = true := by
    simpa [State.runs] using h
  simp [State.runDesc, hdesc, hop, hruns, hranges, State.done]

/-! #### Each descriptor command runs its opcode's unit of work -/

section
variable (q i : Nat) (fs : Finds) (header : List Byte) (s : State)

theorem exec_nop : exec (.nop q i) s = s.runDesc q i 0x00 fun s _ => s.finishDesc q i stOk 0 := rfl

theorem exec_copy : exec (.copy q i fs) s = s.runDesc q i 0x01 fun s d => s.copyUnit q i d fs := rfl

theorem exec_fill : exec (.fill q i) s = s.runDesc q i 0x02 fun s d => s.fillUnit q i d := rfl

theorem exec_zero : exec (.zero q i) s = s.runDesc q i 0x03 fun s d => s.zeroUnit q i d := rfl

theorem exec_compare : exec (.compare q i fs) s = s.runDesc q i 0x04 fun s d => s.compareUnit q i d fs := rfl

theorem exec_demoteRange : exec (.demoteRange q i) s = s.runDesc q i 0x08 fun s d => s.rangeUnit d .demote := rfl

theorem exec_promoteRange : exec (.promoteRange q i) s = s.runDesc q i 0x09 fun s d => s.rangeUnit d .promote := rfl

theorem exec_hintHot : exec (.hintHot q i) s = s.runDesc q i 0x0A fun s d => s.hintUnit d hintHot := rfl

theorem exec_hintCold : exec (.hintCold q i) s = s.runDesc q i 0x0B fun s d => s.hintUnit d hintCold := rfl

theorem exec_pin : exec (.pin q i fs) s = s.runDesc q i 0x0C fun s d => s.pinUnit q i d fs := rfl

theorem exec_unpin : exec (.unpin q i) s = s.runDesc q i 0x0D fun s d => s.unpinUnit q i d := rfl

theorem exec_flush : exec (.flush q i fs) s = s.runDesc q i 0x0E fun s d => s.flushUnit q i d fs := rfl

theorem exec_scrubRange : exec (.scrubRange q i) s = s.runDesc q i 0x10 fun s d => s.scrubUnit q i d := rfl

theorem exec_snapCut : exec (.snapCut q i) s = s.runDesc q i 0x18 fun s d => s.cutDesc q i d := rfl

theorem exec_snapExport : exec (.snapExport q i) s = s.runDesc q i 0x19 fun s d => s.exportDesc q i d := rfl

theorem exec_snapRelease : exec (.snapRelease q i) s = s.runDesc q i 0x1A fun s d => s.releaseDesc q i d := rfl

theorem exec_importStream :
    exec (.importStream q i header) s = s.runDesc q i 0x1B fun s d => s.importDesc q i d header := rfl

theorem exec_fence : exec (.fence q i) s =
    s.runDesc q i 0x1F fun s d => if d.waits.isEmpty then s.finishDesc q i stOk 0 else s := rfl

end

/-! #### Where each command completes -/

/-- Settles O39 (log entries 28, 44 and 45 name the model's choices): every command runs its descriptor under its own opcode, and one
that runs has the next unit of its work done. -/
theorem descriptors : Obligations.Descriptors := by
  refine ⟨?nop, ?copy, ?fill, ?zero, ?compare, ?demoteRange, ?promoteRange, ?hintHot, ?hintCold, ?pin, ?unpin, ?flush, ?scrubRange,
    ?snapCut, ?snapExport, ?snapRelease, ?importStream, ?fence⟩
  case nop => intro s q i d h; rw [exec_nop, State.runDesc_of_runs h]
  case copy => intro s q i d fs h; rw [exec_copy, State.runDesc_of_runs h]
  case fill => intro s q i d h; rw [exec_fill, State.runDesc_of_runs h]
  case zero => intro s q i d h; rw [exec_zero, State.runDesc_of_runs h]
  case compare => intro s q i d fs h; rw [exec_compare, State.runDesc_of_runs h]
  case demoteRange => intro s q i d h; rw [exec_demoteRange, State.runDesc_of_runs h]
  case promoteRange => intro s q i d h; rw [exec_promoteRange, State.runDesc_of_runs h]
  case hintHot => intro s q i d h; rw [exec_hintHot, State.runDesc_of_runs h]
  case hintCold => intro s q i d h; rw [exec_hintCold, State.runDesc_of_runs h]
  case pin => intro s q i d fs h; rw [exec_pin, State.runDesc_of_runs h]
  case unpin => intro s q i d h; rw [exec_unpin, State.runDesc_of_runs h]
  case flush => intro s q i d fs h; rw [exec_flush, State.runDesc_of_runs h]
  case scrubRange => intro s q i d h; rw [exec_scrubRange, State.runDesc_of_runs h]
  case snapCut => intro s q i d h; rw [exec_snapCut, State.runDesc_of_runs h]
  case snapExport => intro s q i d h; rw [exec_snapExport, State.runDesc_of_runs h]
  case snapRelease => intro s q i d h; rw [exec_snapRelease, State.runDesc_of_runs h]
  case importStream => intro s q i d header h; rw [exec_importStream, State.runDesc_of_runs h]
  case fence => intro s q i d h; rw [exec_fence, State.runDesc_of_runs h]

end Sys2Proof.Machine

/-! ### The codec array (R157–R164, R172, R176, R178, R179, R181) -/

namespace Sys2Proof.Machine

/-! #### Numbers as bytes, and the check value -/

@[simp] theorem length_toBytes (v n : Nat) : (toBytes v n).length = n := by
  induction n generalizing v with
  | zero => rfl
  | succ n ih => rw [toBytes, List.length_cons, ih]

/-- The bytes of a number spell it back, less what lies above them (R4). -/
theorem ofBytes_toBytes (v n : Nat) : ofBytes (toBytes v n) = v % 256 ^ n := by
  induction n generalizing v with
  | zero => simp [toBytes, ofBytes, Nat.mod_one]
  | succ n ih => rw [toBytes, ofBytes, ih, BitVec.toNat_ofNat, Nat.pow_succ' (m := 256), Nat.mod_mul]

theorem ofBytes_toBytes_four {v : Nat} (h : v < 2 ^ 32) : ofBytes (toBytes v 4) = v := by
  rw [ofBytes_toBytes]
  exact Nat.mod_eq_of_lt h

theorem crc32cByte_lt {crc : Nat} (h : crc < 2 ^ 32) (n : Nat) : crc32cByte crc n < 2 ^ 32 := by
  induction n generalizing crc with
  | zero => exact h
  | succ n ih =>
    have hhalf : crc / 2 < 2 ^ 32 := (Nat.div_le_self crc 2).trans_lt h
    refine ih ?_
    split
    · exact Nat.xor_lt_two_pow hhalf (by decide)
    · exact hhalf

theorem crc32c_lt (bytes : List Byte) : crc32c bytes < 2 ^ 32 := by
  have hfold : bytes.foldl (fun crc b => crc32cByte (Nat.xor crc b.toNat) 8) 0xFFFFFFFF < 2 ^ 32 :=
    List.foldlRecOn bytes _ (motive := (· < 2 ^ 32)) (by decide) fun _ hcrc b _ =>
      crc32cByte_lt (Nat.xor_lt_two_pow hcrc (b.isLt.trans (by decide))) 8
  exact Nat.xor_lt_two_pow hfold (by decide)

/-! #### The parts of an image (R157, R158) -/

/-- The header word of an image with a body of `tlen` bytes (R158). -/
def headerWord (raw : Bool) (tlen : Nat) : Nat := 1 + flag raw * 16 + tlen * 256

/-- FORMAT, RAW and TLEN stand at places of their own in the header, and its reserved bits are 0 (R158). -/
theorem headerWord_fields (raw : Bool) {tlen : Nat} (h : tlen < 2 ^ 11) :
    bits (headerWord raw tlen) 0 4 = 1 ∧ bit (headerWord raw tlen) 4 = raw ∧ bits (headerWord raw tlen) 5 3 = 0 ∧
      bits (headerWord raw tlen) 8 11 = tlen ∧ bits (headerWord raw tlen) 19 13 = 0 := by
  have hraw := flag_lt raw
  refine ⟨?_, bit_of_bits_eq_flag ?_, ?_, ?_, ?_⟩ <;> rw [bits_eq_div_mod, headerWord] <;> omega

section
variable (raw : Bool) {body : List Byte} (block : List Byte) {n : Nat}

theorem ofBytes_take_imageOf (h : body.length < 2 ^ 11) :
    ofBytes ((imageOf raw body block n).take 4) = headerWord raw body.length := by
  have hraw := flag_lt raw
  have hword : headerWord raw body.length < 2 ^ 32 := by rw [headerWord]; omega
  rw [imageOf, List.append_assoc, List.append_assoc, List.take_left' (length_toBytes _ 4)]
  exact ofBytes_toBytes_four hword

theorem body_imageOf : ((imageOf raw body block n).drop 4).take body.length = body := by
  rw [imageOf, List.append_assoc, List.append_assoc, List.drop_left' (length_toBytes _ 4), List.take_left]

theorem padding_imageOf : ((imageOf raw body block n).drop (4 + body.length)).take (n - 8 - body.length) =
    List.replicate (n - 8 - body.length) 0 := by
  rw [imageOf, List.append_assoc, List.drop_left' (by simp), List.take_left' List.length_replicate]

variable (hfit : 8 + body.length ≤ n)
include hfit

theorem length_imageOf : (imageOf raw body block n).length = n := by
  simp only [imageOf, List.length_append, length_toBytes, List.length_replicate]
  omega

theorem ofBytes_check_imageOf : ofBytes ((imageOf raw body block n).drop (n - 4)) = crc32c block := by
  rw [imageOf, List.drop_left' (by simp; omega), ofBytes_toBytes_four (crc32c_lt block)]

end

/-- An image in the heap whose tokens spell a block decodes to it, with any padding (R158, R162, R176). -/
theorem decodeImage_imageOf {tokens block : List Byte} {n : Nat} (htokens : expand tokens = .ok block)
    (hlen : tokens.length < 2 ^ 11) (hfit : 8 + tokens.length ≤ n) (hn : n ≤ 1032) :
    decodeImage (imageOf false tokens block n) true = .ok block := by
  obtain ⟨hformat, hraw, hlow, htlen, hhigh⟩ := headerWord_fields false hlen
  have hsize : ¬ (n < 8 ∨ 1032 < n) := by omega
  simp only [decodeImage, length_imageOf false block hfit, ofBytes_take_imageOf false block hlen, hformat, hraw, hlow, htlen, hhigh,
    body_imageOf, padding_imageOf, ofBytes_check_imageOf false block hfit, htokens, if_neg hsize, Nat.not_lt.2 hfit]
  simp

/-! #### Formed blocks (R161, R163, R164, R176) -/

/-- A block stored as the image of a token stream, in as few granules as hold it (R157, R163). -/
def compressedBlock (tokens block : List Byte) : FormedBlock :=
  ⟨ceilDiv (8 + tokens.length) 64, imageOf false tokens block (ceilDiv (8 + tokens.length) 64 * 64)⟩

/-- The pipe's tokens are taken where they spell the block and leave room for it in 15 granules (R163, R164). -/
theorem goodTokens_spell {block tokens : List Byte} (h : goodTokens block = some tokens) :
    expand tokens = .ok block ∧ tokens.length ≤ 952 := by
  simp only [goodTokens] at h
  split at h
  next b hexpand =>
    split at h
    next hgood =>
      obtain ⟨rfl, hlen⟩ := hgood
      cases h
      exact ⟨hexpand, hlen⟩
    next => cases h
  next => cases h

/-- What the pipe forms of a block is the block raw, or the image of tokens that spell it (R161, R163, R164). -/
theorem formBlock_cases (block : List Byte) : formBlock block = rawBlock block ∨
    ∃ tokens, expand tokens = .ok block ∧ tokens.length ≤ 952 ∧ formBlock block = compressedBlock tokens block := by
  cases h : goodTokens block with
  | none => exact .inl (by rw [formBlock, h])
  | some tokens =>
    obtain ⟨hexpand, hlen⟩ := goodTokens_spell h
    exact .inr ⟨tokens, hexpand, hlen, by rw [formBlock, h]; rfl⟩

theorem decodeStored_raw (block : List Byte) : decodeStored 16 block = .ok block := if_pos rfl

theorem padBlock_raw (b : FormedBlock) (block : List Byte) : padBlock b block 16 = block := if_pos rfl

section
variable {tokens : List Byte} (hlen : tokens.length ≤ 952)
include hlen

/-- 960 bytes fill 15 granules, so COUNT 16 is left for a raw block (R161, R163). -/
theorem compressedBlock_count_lt (block : List Byte) : (compressedBlock tokens block).count < 16 := by
  simp only [compressedBlock, ceilDiv]
  omega

/-- Padding takes the tokens out of the formed image and puts them into one of the place's size (R176). -/
theorem padBlock_compressedBlock (block : List Byte) {c : Nat} (hc : c ≠ 16) :
    padBlock (compressedBlock tokens block) block c = imageOf false tokens block (c * 64) := by
  have hbits : tokens.length < 2 ^ 11 := by omega
  obtain ⟨-, -, -, htlen, -⟩ := headerWord_fields false hbits
  simp only [padBlock, if_neg hc, compressedBlock, ofBytes_take_imageOf false block hbits, htlen, body_imageOf]

/-- The image of tokens that spell a block decodes in every place of fewer than 16 granules that holds it (R162, R176). -/
theorem decodeStored_imageOf {block : List Byte} (htokens : expand tokens = .ok block) {c : Nat}
    (hfit : (compressedBlock tokens block).count ≤ c) (hc : c < 16) :
    decodeStored c (imageOf false tokens block (c * 64)) = .ok block := by
  have hroom : 8 + tokens.length ≤ c * 64 := by
    simp only [compressedBlock, ceilDiv] at hfit
    omega
  rw [decodeStored, if_neg hc.ne, decodeImage_imageOf htokens (by omega) hroom (by omega)]

end

/-- Settles O9. The pipe's tokens are opaque (log entry 42): what matters of them is that the checker has taken them. A raw block is
its own image; an image of tokens decodes in every place that holds it, its own size among them. -/
theorem blockRoundTrip : Obligations.BlockRoundTrip := by
  intro block _
  obtain hraw | ⟨tokens, htokens, hlen, hformed⟩ := formBlock_cases block
  · rw [hraw]
    refine ⟨decodeStored_raw block, fun c hfit hc => ?_⟩
    obtain rfl : c = 16 := Nat.le_antisymm hc hfit
    rw [padBlock_raw, decodeStored_raw]
  · rw [hformed]
    refine ⟨decodeStored_imageOf hlen htokens le_rfl (compressedBlock_count_lt hlen block), fun c hfit hc => ?_⟩
    obtain rfl | hsmaller := hc.eq_or_lt
    · rw [padBlock_raw, decodeStored_raw]
    · rw [padBlock_compressedBlock hlen block hsmaller.ne, decodeStored_imageOf hlen htokens hfit hsmaller]

/-! #### Jobs of the decompress pipes (R162, R178, R179, R181) -/

theorem exec_nimbusDecode (job : Nat) (fs : Finds) (fault : Option Nat) (s : State) :
    exec (.nimbusDecode job fs fault) s = execNimbusDecode job fs fault s := rfl

theorem exec_decodeRetry (job : Nat) (fs : Finds) (fault : Option Nat) (s : State) :
    exec (.decodeRetry job fs fault) s = execDecodeRetry job fs fault s := rfl

theorem exec_nmbPipeFail (compressor : Bool) (pipe : Nat) (job : Option Nat) (s : State) :
    exec (.nmbPipeFail compressor pipe job) s = execNmbPipeFail compressor pipe job s := rfl

theorem exec_heapDirectoryRebuild (segment : Nat) (started : Bool) (s : State) :
    exec (.heapDirectoryRebuild segment started) s = execHeapDirectoryRebuild segment started s := rfl

section
variable {s t : State} {job : Nat} {j : DecodeJob} {fs : Finds} {fault : Option Nat} (hjob : s.nmb.jobs.find job = some j)
  (hread : s.blockReadable j.dpn = true) (hpipe : s.pipeReady j.dpn j.block = true)
include hjob hread hpipe

section
variable (hfirst : j.failed = none)
include hfirst

/-- A first attempt that decodes delivers the block (R162). -/
theorem execNimbusDecode_of_decoded {lines : List Line} (hdecode : s.decodeBlock j.dpn j.block fs fault = (.ok lines, t)) :
    execNimbusDecode job fs fault s = .next ((t.dropJob job).deliverBlock j.dpn j.block lines).settle := by
  simp [execNimbusDecode, hjob, hread, hpipe, hfirst, hdecode, State.done]

/-- A first attempt that fails, and not in the media, leaves the job to its second one (R178). -/
theorem execNimbusDecode_of_failed {k : Nat} (hdecode : s.decodeBlock j.dpn j.block fs fault = (.error k, t))
    (hkind : k ≠ DecodeFault.media.code) :
    execNimbusDecode job fs fault s = .next ((t.failJob job j k).event Ev.decodeRetries 0).settle := by
  simp [execNimbusDecode, hjob, hread, hpipe, hfirst, hdecode, hkind, State.done]

end

section
variable {first : Nat} (hfailed : j.failed = some first)
include hfailed

/-- A second attempt that decodes is counted, logged with the kind of the first failure, raised, and delivers the block (R178). -/
theorem execDecodeRetry_of_decoded {lines : List Line} (hdecode : s.decodeBlock j.dpn j.block fs fault = (.ok lines, t)) :
    execDecodeRetry job fs fault s =
      .next (((((t.inc NMB_ERRCNT.RETRY).nmbLog j.dpn j.block first ((s.entry j.dpn).loc.blockCount j.block) true).raise
        srcNmbRetry).dropJob job).deliverBlock j.dpn j.block lines).settle := by
  simp [execDecodeRetry, hjob, hread, hpipe, hfailed, hdecode, State.done]

/-- A block whose second attempt fails is bad (R179). -/
theorem execDecodeRetry_of_failed {k : Nat} (hdecode : s.decodeBlock j.dpn j.block fs fault = (.error k, t)) :
    execDecodeRetry job fs fault s = .next ((t.dropJob job).failBlock j.dpn j.block k).settle := by
  simp [execDecodeRetry, hjob, hread, hpipe, hfailed, hdecode, State.done]

end

end

/-! #### The heap directory (R172) -/

section
variable {s : State} {k : Nat} {g : Segment} (hsegment : s.nmb.segments.find k = some g)
include hsegment

theorem execHeapDirectoryRebuild_started :
    execHeapDirectoryRebuild k true s = .next (s.setSegment k { g with rebuilding := true }) := by
  simp only [execHeapDirectoryRebuild, hsegment, if_true]

/-- A scan that ends gives the segment the fill pointer and live count of the map, and frees one that holds nothing (R172, R174). -/
theorem execHeapDirectoryRebuild_of_rebuilding (hrebuilding : g.rebuilding = true) : execHeapDirectoryRebuild k false s =
    .next ((s.setSegment k (s.rebuilt k g)).heapStatus.emptySegment k (s.rebuilt k g)).settle := by
  simp [execHeapDirectoryRebuild, hsegment, hrebuilding, State.done]

end

/-! #### Where each command completes -/

/-- Settles O32 (log entry 42 names the model's choice): a job's attempts act where its block can be read and a pipe is ready for it;
the failure of a pipe needs nothing of the state; a directory entry is rebuilt where its segment is in use. -/
theorem codecCommands : Obligations.CodecCommands := by
  refine ⟨?decoded, ?failed, ?retryDecoded, ?retryFailed, ?pipeFail, ?rebuildStart, ?rebuildEnd⟩
  case decoded =>
    intro s t job fs j lines hjob hread hfirst hpipe hdecode
    rw [exec_nimbusDecode, execNimbusDecode_of_decoded hjob hread hpipe hfirst hdecode]
  case failed =>
    intro s t job k fs fault j hjob hread hfirst hpipe hdecode hkind
    rw [exec_nimbusDecode, execNimbusDecode_of_failed hjob hread hpipe hfirst hdecode hkind]
  case retryDecoded =>
    intro s t job first fs j lines hjob hfailed hread hpipe hdecode
    rw [exec_decodeRetry, execDecodeRetry_of_decoded hjob hread hpipe hfailed hdecode]
  case retryFailed =>
    intro s t job first k fs fault j hjob hfailed hread hpipe hdecode
    rw [exec_decodeRetry, execDecodeRetry_of_failed hjob hread hpipe hfailed hdecode]
  case pipeFail =>
    intro s compressor pipe
    rw [exec_nmbPipeFail, execNmbPipeFail, Option.bind_none, State.done]
  case rebuildStart =>
    intro s k g hsegment
    rw [exec_heapDirectoryRebuild, execHeapDirectoryRebuild_started hsegment]
  case rebuildEnd =>
    intro s k g hsegment hrebuilding
    rw [exec_heapDirectoryRebuild, execHeapDirectoryRebuild_of_rebuilding hsegment hrebuilding]

end Sys2Proof.Machine

/-! ### Snapshot slots (R187–R190, R193–R197, R200, R202, R209–R212) -/

namespace Sys2Proof.Machine

/-! #### A slot is armed (R189, R190) -/

theorem exec_snpArmArm (p : Path) (v : Nat) (s : State) : exec (.snpArmArm p v) s = execSnpArmArm p v s := rfl

theorem exec_armingComplete (n : Nat) (s : State) : exec (.armingComplete n) s = execArmingComplete n s := rfl

/-- A slot whose arm check finds nothing starts to arm (R189). -/
theorem State.askArm_of_passes {s : State} {n : Nat} (h : s.armCheck n false = 0) : s.askArm n = s.startArm n := by
  simp only [State.askArm, h]

/-- A write that sets ARM stores the other fields of the selected slot, then asks for the slot to be armed (R189). -/
theorem execSnpArmArm_of_set {v : Nat} (hset : SNP_ARM.ARM.set v = true) (p : Path) (s : State) :
    execSnpArmArm p v s = .next ((s.storeFields [SNP_ARM.TARGET, SNP_ARM.CLAIM] (s.rdAt SNP_SLOTSEL.SLOT (pathCopy p)) v).askArm
      (s.rdAt SNP_SLOTSEL.SLOT (pathCopy p))).settle := if_pos hset

theorem execArmingComplete_of_arming {s : State} {n : Nat} (h : s.slotState n = slotArming) :
    execArmingComplete n s = .next (s.markPages n).settle := if_pos h

/-! #### The cursor reads pages, and changes start captures (R193, R195, R210) -/

theorem exec_eagerCursorRead (n : Nat) (fs : Finds) (s : State) :
    exec (.eagerCursorRead n fs) s = execEagerCursorRead n fs s := rfl

theorem exec_captureTrackerFree (s : State) : exec .captureTrackerFree s = .next (s.giveTrackers 64).settle := rfl

theorem exec_captureEnd (n dpn : Nat) (fs : Finds) (s : State) :
    exec (.captureEnd n dpn fs) s = execCaptureEnd n dpn fs s := rfl

theorem exec_captureTime (n dpn : Nat) (s : State) : exec (.captureTime n dpn) s = execCaptureTime n dpn s := rfl

section
variable {s : State} {n : Nat} (fs : Finds)

section
variable (hruns : s.cursorRuns n = true)
include hruns

/-- A cursor that has no page left to treat ends the stream (R193, R207). -/
theorem execEagerCursorRead_of_nil (hpages : s.cursorPages n = []) :
    execEagerCursorRead n fs s = .next (s.endStream n).settle := by
  rw [execEagerCursorRead, if_neg (by simp [hruns])]
  simp only [hpages, State.done]

/-- A cursor that runs is at the first page that is left (R193). -/
theorem execEagerCursorRead_of_cons {p : Nat} {ps : List Nat} (hpages : s.cursorPages n = p :: ps) :
    execEagerCursorRead n fs s = .next (s.cursorAt n p fs).settle := by
  rw [execEagerCursorRead, if_neg (by simp [hruns])]
  simp only [hpages, State.done]

end

section
variable {dpn : Nat} (hpreserving : s.slotState n = slotPreserving)
include hpreserving

/-- A capture that holds a tracker ends while its slot preserves (R195 steps 4 to 7). -/
theorem execCaptureEnd_of_tracked (htracked : (n, dpn) ∈ s.snp.tracking) :
    execCaptureEnd n dpn fs s = .next (s.endCapture n dpn fs).settle :=
  if_pos (by simp [htracked, hpreserving])

/-- A capture that takes too long aborts its slot (R195, R210). -/
theorem execCaptureTime_of_capturing (hcapturing : s.capturing n dpn = true) :
    execCaptureTime n dpn s = .next (s.abortSlot n abortTime).settle :=
  if_pos (by simp [hcapturing, hpreserving])

end

end

/-! #### A stream is delivered or fails (R199, R200, R202) -/

theorem exec_exportDmaComplete (n : Nat) (s : State) : exec (.exportDmaComplete n) s = execExportDmaComplete n s := rfl

theorem exec_exportDmaError (n : Nat) (s : State) : exec (.exportDmaError n) s = execExportDmaError n s := rfl

theorem exec_exportLinkTimeout (n : Nat) (s : State) : exec (.exportLinkTimeout n) s = execExportLinkTimeout n s := rfl

theorem execExportDmaError_of_chunk {s : State} {n : Nat} {x : List Byte × Bool} (hchunk : s.nextChunk n = some x) :
    execExportDmaError n s = .next ((s.inc SNP_ERRCNT.DMAERR).failExport n).settle := by
  simp only [execExportDmaError, hchunk, State.done]

section
variable {s : State} {n : Nat} {bs : List Byte} {last : Bool} {b : ExportBuffer} {rest : List ExportBuffer}
  (hchunk : s.nextChunk n = some (bs, last)) (hbuffers : (s.slot n).buffers = b :: rest)
include hchunk hbuffers

/-- The next bytes of a stream go to the first buffer of the slot over a link of its mask that is up (R199, R202). -/
theorem execExportDmaComplete_of_up (hup : s.maskUp b.mask ≠ []) :
    execExportDmaComplete n s = .next (s.deliverChunk n bs last).settle := by
  simp only [execExportDmaComplete, hchunk, hbuffers, if_neg (mt List.isEmpty_iff.1 hup), State.done]

/-- A stream's delivery fails when no link of the first buffer's mask has come up in time (R200). -/
theorem execExportLinkTimeout_of_down (hdown : s.maskUp b.mask = []) :
    execExportLinkTimeout n s = .next (s.failExport n).settle := by
  simp only [execExportLinkTimeout, hchunk, hbuffers, if_pos (List.isEmpty_iff.2 hdown), State.done]

end

/-! #### Marks are cleared (R210, R211) -/

theorem exec_abortMarksCleared (n : Nat) (s : State) : exec (.abortMarksCleared n) s = execAbortMarksCleared n s := rfl

theorem exec_snapMarkClearEnd (c : Nat) (s : State) : exec (.snapMarkClearEnd c) s = execSnapMarkClearEnd c s := rfl

theorem execAbortMarksCleared_of_aborting {s : State} {n : Nat} (h : s.slotState n = slotAborting) :
    execAbortMarksCleared n s = .next (s.endAbort n).settle := if_pos h

/-- The walk that clears a claim's marks ends outside a warm reset (R210). -/
theorem execSnapMarkClearEnd_of_clearing {s : State} {c : Nat} (hwarm : s.on RST_CTL.WARM = false)
    (hclearing : s.snp.clearing.has c = true) : execSnapMarkClearEnd c s = .next (s.endMarkClear c).settle :=
  if_pos (by simp [hwarm, hclearing])

/-! #### A stream is imported (R212) -/

theorem exec_importRecord (q i : Nat) (bytes : List Byte) (s : State) :
    exec (.importRecord q i bytes) s = execImportRecord q i bytes s := rfl

/-- An import takes its next frame while its claim is committed and not being released (R212). -/
theorem execImportRecord_of_committed {s : State} {q i : Nat} {j : ImportJob} (hjob : s.importOf q i = some j)
    (hcommit : s.onAt MAP_CLAIMATTR.COMMIT j.claim = true) (hrelease : s.onAt MAP_CLAIMSTAT.RELEASING j.claim = false)
    (bytes : List Byte) : execImportRecord q i bytes s = .next (s.stepImport j bytes).settle := by
  simp [execImportRecord, hjob, hcommit, hrelease, State.done]

/-! #### Where each command completes -/

/-- Settles O33 (log entries 44 and 45 name the model's choices): each command acts in the state of its slot, stream, claim or import
that the hypotheses give; a tracker that becomes free needs nothing of the state. -/
theorem snapshotCommands : Obligations.SnapshotCommands := by
  refine ⟨?arm, ?armed, ?streamEnd, ?cursor, ?trackers, ?captured, ?captureLate, ?delivered, ?dmaError, ?linkTimeout, ?aborted,
    ?cleared, ?imported⟩
  case arm =>
    rintro s u p v n rfl rfl hset hpasses
    rw [exec_snpArmArm, execSnpArmArm_of_set hset, State.askArm_of_passes hpasses]
  case armed =>
    intro s n harming
    rw [exec_armingComplete, execArmingComplete_of_arming harming]
  case streamEnd =>
    intro s n fs hruns hpages
    rw [exec_eagerCursorRead, execEagerCursorRead_of_nil fs hruns hpages]
  case cursor =>
    intro s n p fs ps hruns hpages
    rw [exec_eagerCursorRead, execEagerCursorRead_of_cons fs hruns hpages]
  case trackers => exact exec_captureTrackerFree
  case captured =>
    intro s n dpn fs htracked hpreserving
    rw [exec_captureEnd, execCaptureEnd_of_tracked fs hpreserving htracked]
  case captureLate =>
    intro s n dpn hcapturing hpreserving
    rw [exec_captureTime, execCaptureTime_of_capturing hpreserving hcapturing]
  case delivered =>
    intro s n bs last b rest hchunk hbuffers hup
    rw [exec_exportDmaComplete, execExportDmaComplete_of_up hchunk hbuffers hup]
  case dmaError =>
    intro s n x hchunk
    rw [exec_exportDmaError, execExportDmaError_of_chunk hchunk]
  case linkTimeout =>
    intro s n x b rest hchunk hbuffers hdown
    rw [exec_exportLinkTimeout, execExportLinkTimeout_of_down hchunk hbuffers hdown]
  case aborted =>
    intro s n haborting
    rw [exec_abortMarksCleared, execAbortMarksCleared_of_aborting haborting]
  case cleared =>
    intro s c hwarm hclearing
    rw [exec_snapMarkClearEnd, execSnapMarkClearEnd_of_clearing hwarm hclearing]
  case imported =>
    intro s q i bytes j hjob hcommit hrelease
    rw [exec_importRecord, execImportRecord_of_committed hjob hcommit hrelease]

end Sys2Proof.Machine

/-! ### The pair manager (R201, R413, R439, R440, R449–R452, R456–R458, R462) -/

namespace Sys2Proof.Machine

/-! #### A pair is entered and left (R413, R439, R440) -/

theorem exec_parCtlEnable (s : State) : exec .parCtlEnable s = .next s.askPair.settle := rfl

theorem exec_parCtlLeave (s : State) : exec .parCtlLeave s = .next s.leavePair.settle := rfl

theorem exec_paramsTimeout (s : State) : exec .paramsTimeout s = execParamsTimeout s := rfl

theorem exec_rxopenTimeout (n : Nat) (s : State) : exec (.rxopenTimeout n) s = execRxopenTimeout n s := rfl

/-- Where only the partner's parameters are missing from the check, a member whose partner sent them lately runs it at once (R440). -/
theorem State.askPair_of_freshPeer {s : State} {p : PeerParams} (hcheck : s.pairCheck none = 0xC1) (hlink : s.linkUp = true)
    (hpeer : s.sendParams.freshPeer = some p) : s.askPair = s.sendParams.runPairCheck (some p) := by
  rw [State.askPair, if_neg (by simp [hcheck, hlink])]
  simp only [hpeer]

/-- A member that has taken over leaves the pair for ALONE (R439). -/
theorem State.leavePair_of_takenOver {s : State} (h : s.pairState = pairTakenOver) :
    s.leavePair = (s.clearPair.pairEnter pairAlone).put PAR_CTL.ENABLE false := by
  have hjoining : s.pairState ≠ pairJoining := by rw [h]; decide
  rw [State.leavePair, if_neg hjoining, if_pos h]

theorem execParamsTimeout_of_enabling {s : State} (h : s.pair.enabling = true) :
    execParamsTimeout s = .next (s.runPairCheck none).settle := if_pos h

theorem execRxopenTimeout_of_waitPartner {s : State} {n : Nat} (h : (s.slot n).waitPartner = true) :
    execRxopenTimeout n s = .next (s.armAnswer n none).settle := if_pos h

/-! #### Take-over and give-back (R457, R458) -/

theorem exec_parCtlTakeover (force : Bool) (s : State) :
    exec (.parCtlTakeover force) s = .next (s.put PAR_CTL.FORCE force).takeOver.settle := rfl

theorem exec_parCtlGiveback (s : State) : exec .parCtlGiveback s = .next s.giveBack.settle := rfl

theorem State.takeOver_of_passes {s : State} (h : s.takeoverCheck = 0) : s.takeOver = s.takenOver := by
  simp only [State.takeOver, h]

theorem State.giveBack_of_passes {s : State} (h : s.givebackCheck = 0) : s.giveBack = s.givenBack := by
  simp only [State.giveBack, h]

/-! #### A member is fenced, and its contents are discarded (R456) -/

theorem exec_parCtlFence (s : State) : exec .parCtlFence s = .next s.askFence.settle := rfl

theorem exec_parCtlDiscard (s : State) : exec .parCtlDiscard s = .next s.askDiscard.settle := rfl

theorem exec_discardEnd (s : State) : exec .discardEnd s = execDiscardEnd s := rfl

theorem State.askFence_of_ne {s : State} (halone : s.pairState ≠ pairAlone) (hfenced : s.pairState ≠ pairFenced) :
    s.askFence = s.fenceNow := if_neg (not_or.2 ⟨halone, hfenced⟩)

theorem State.askDiscard_of_fenced {s : State} (h : s.pairState = pairFenced) : s.askDiscard = s.discardAll := if_pos h

/-- A discard ends once no claim is committed or being released; a member that is still fenced stands alone then (R456). -/
theorem execDiscardEnd_of_released {s u : State} (hdiscarding : s.pair.discarding = true) (hcommitted : s.committed = [])
    (hreleasing : s.releasing = []) (hended : u = ({ s with pair := { s.pair with discarding := false } } : State).endDiscards) :
    execDiscardEnd s = .next (if u.pairState = pairFenced then u.standAlone else u).settle := by
  rw [hended]
  exact if_pos (by simp [hdiscarding, hcommitted, hreleasing])

/-! #### The partner does not respond (R201, R449, R450) -/

theorem exec_ptimeoutExpiry (s : State) : exec .ptimeoutExpiry s = execPtimeoutExpiry s := rfl

theorem exec_mirackStallTimeout (s : State) : exec .mirackStallTimeout s = execMirackStallTimeout s := rfl

/-- A member in MIRRORED or RESYNC whose partner has not responded for PTIMEOUT is exposed; where the link is down, exports to the
partner and receive slots abort first (R201, R449, R450). -/
theorem execPtimeoutExpiry_of_unresp {s u : State} (hunresp : s.on PAR_STAT.UNRESP = true)
    (hslots : (if s.linkUp then s else s.abortPartnerSlots) = u) (hpair : u.pairState = pairMirrored ∨ u.pairState = pairResync) :
    execPtimeoutExpiry s = .next u.exposeNow.settle := by
  rw [execPtimeoutExpiry, if_neg (by simp [hunresp])]
  simp only [hslots]
  exact if_pos hpair

theorem execMirackStallTimeout_of_journal {s : State} (h : s.pair.journal ≠ []) :
    execMirackStallTimeout s = .next ({ s with pair := { s.pair with stalled := true } } : State).settle :=
  if_neg (mt List.isEmpty_iff.1 h)

/-! #### Stripes and status go to the partner (R451, R452) -/

theorem exec_resyncStripe (fs : Finds) (s : State) : exec (.resyncStripe fs) s = execResyncStripe fs s := rfl

theorem exec_pstatSend (s : State) : exec .pstatSend s = execPstatSend s := rfl

/-- A member that sends stripes sends the first one whose bit is set and that was not sent, unless a panic holds it (R452). -/
theorem execResyncStripe_of_sends {s : State} {k : Nat} (hnext : s.pair.outbits.find? (fun k => !s.pair.sent.has k) = some k)
    (hsends : s.sendsStripes = true) (hpanic : s.stripePanics k = false) (fs : Finds) :
    execResyncStripe fs s = .next (s.sendStripe k fs).settle := by
  simp [execResyncStripe, hnext, hsends, hpanic, State.done]

theorem execPstatSend_of_paired {s : State} (hlink : s.linkUp = true) (hpair : s.pairState ≠ pairAlone) : execPstatSend s =
    .next (s.ctrl (.pstat s.pair.outbits.length s.pair.journal.length (s.rd PAR_EPOCH.CUR))).settle :=
  if_pos (by simp [hlink, hpair])

/-! #### Where each command completes -/

/-- Settles O43 (log entries 55, 57 and 58 name the model's choices): each control acts where its check passes in the state of the
pair that the hypotheses give, and each timer where what it waits for still stands. -/
theorem pairManager : Obligations.PairManager := by
  refine ⟨?enable, ?leave, ?paramsTimeout, ?takeover, ?giveback, ?fence, ?discard, ?discardEnd, ?exposed, ?exposedDown, ?stall,
    ?stripe, ?pstat, ?rxopenTimeout⟩
  case enable =>
    intro s p hcheck hlink hpeer
    rw [exec_parCtlEnable, State.askPair_of_freshPeer hcheck hlink hpeer]
  case leave =>
    intro s htaken
    rw [exec_parCtlLeave, State.leavePair_of_takenOver htaken]
  case paramsTimeout =>
    intro s henabling
    rw [exec_paramsTimeout, execParamsTimeout_of_enabling henabling]
  case takeover =>
    intro s force hpasses
    rw [exec_parCtlTakeover, State.takeOver_of_passes hpasses]
  case giveback =>
    intro s hpasses
    rw [exec_parCtlGiveback, State.giveBack_of_passes hpasses]
  case fence =>
    intro s halone hfenced
    rw [exec_parCtlFence, State.askFence_of_ne halone hfenced]
  case discard =>
    intro s hfenced
    rw [exec_parCtlDiscard, State.askDiscard_of_fenced hfenced]
  case discardEnd =>
    intro s u hdiscarding hcommitted hreleasing hended
    rw [exec_discardEnd, execDiscardEnd_of_released hdiscarding hcommitted hreleasing hended]
  case exposed =>
    intro s hunresp hlink hpair
    rw [exec_ptimeoutExpiry, execPtimeoutExpiry_of_unresp hunresp (if_pos hlink) hpair]
  case exposedDown =>
    intro s hunresp hlink hpair
    rw [exec_ptimeoutExpiry, execPtimeoutExpiry_of_unresp hunresp (if_neg (by simp [hlink])) hpair]
  case stall =>
    intro s hjournal
    rw [exec_mirackStallTimeout, execMirackStallTimeout_of_journal hjournal]
  case stripe =>
    intro s fs k hnext hsends hpanic
    rw [exec_resyncStripe, execResyncStripe_of_sends hnext hsends hpanic]
  case pstat =>
    intro s hlink hpair
    rw [exec_pstatSend, execPstatSend_of_paired hlink hpair]
  case rxopenTimeout =>
    intro s n hwait
    rw [exec_rxopenTimeout, execRxopenTimeout_of_waitPartner hwait]

end Sys2Proof.Machine

/-! ### CTRL messages of streams, seals and keys (R201, R208, R307, R311, R412, R413) -/

namespace Sys2Proof.Machine

/-- A CTRL packet that is accepted in sequence has its message handled in the state that the acceptance leaves (R412, R415). -/
theorem State.onCtrl_of_accepted {s u : State} {h : RxHead} {m : CtrlMsg} (act : State → State)
    (hseq : s.acceptSeq h .ct (Packet.ctrl m).credits = (true, u)) : s.onCtrl h m act = act u := by
  simp only [State.onCtrl, hseq]

section
variable (h : RxHead) (op slot code c ref key : Nat) (s : State)

theorem exec_rxopen (slice size sid : Nat) :
    exec (.rxopen h op slot slice size c sid) s = execRxopen h op slot slice size c sid s := rfl

theorem exec_rxresult : exec (.rxresult h op slot code) s = execRxresult h op slot code s := rfl

theorem exec_rxclose : exec (.rxclose h op slot code) s = execRxclose h op slot code s := rfl

theorem exec_sealen : exec (.sealen h op c) s = execSealen h op c s := rfl

theorem exec_sealres : exec (.sealres h op code) s = execSealres h op code s := rfl

theorem exec_refetch (level index : Nat) : exec (.refetch h op c level index) s = execRefetch h op c level index s := rfl

theorem exec_refdone (lines : Nat) : exec (.refdone h op lines) s = execRefdone h op lines s := rfl

theorem exec_xkey : exec (.xkey h ref slot key) s = execXkey h ref slot key s := rfl

theorem exec_xkeyack : exec (.xkeyack h ref code) s = execXkeyack h ref code s := rfl

end

/-- Settles O45 (log entries 45 and 56 name the model's choices): each message is accepted in sequence, and the case that it finds on
the member gives its effect. -/
theorem pairSnapshotAndSealMessages : Obligations.PairSnapshotAndSealMessages := by
  refine ⟨?rxopen, ?rxresult, ?rxcloseReceiver, ?rxcloseSender, ?sealenPasses, ?sealenFails, ?sealres, ?refetch, ?refdone, ?xkey,
    ?xkeyack⟩
  case rxopen =>
    intro s u h op slot slice size claim sid hseq
    rw [exec_rxopen, execRxopen, State.onCtrl_of_accepted _ hseq, State.done]
  case rxresult =>
    intro s u h op slot n hseq harming
    rw [exec_rxresult, execRxresult, State.onCtrl_of_accepted _ hseq, State.done]
    simp only [harming, if_true]
  case rxcloseReceiver =>
    intro s u h op n cause hseq hreceive hop
    rw [exec_rxclose, execRxclose, State.onCtrl_of_accepted _ hseq, if_pos (by simp [hreceive, hop]), State.done]
  case rxcloseSender =>
    intro s u h op n cause hseq hreceive
    rw [exec_rxclose, execRxclose, State.onCtrl_of_accepted _ hseq, if_neg (by simp [hreceive]), State.done]
  case sealenPasses =>
    intro s u h op c hseq hpasses
    rw [exec_sealen, execSealen, State.onCtrl_of_accepted _ hseq, State.done]
    simp only [hpasses, if_true]
  case sealenFails =>
    intro s u h op c hseq hfails
    rw [exec_sealen, execSealen, State.onCtrl_of_accepted _ hseq, State.done]
    simp only [if_neg hfails]
  case sealres =>
    intro s u h op c hseq henabling
    rw [exec_sealres, execSealres, State.onCtrl_of_accepted _ hseq, State.done]
    simp only [henabling, if_true]
  case refetch =>
    intro s u h op c level index hseq
    rw [exec_refetch, execRefetch, State.onCtrl_of_accepted _ hseq, State.done]
  case refdone =>
    intro s u h r lines hseq hrecord hvalid hprogress
    rw [exec_refdone, execRefdone, State.onCtrl_of_accepted _ hseq, if_pos hrecord, if_pos (by simp [hvalid, hprogress]), State.done]
  case xkey =>
    intro s u h ref slot key hseq hroom
    rw [exec_xkey, execXkey, State.onCtrl_of_accepted _ hseq, if_neg (by simp [hroom]), State.done]
  case xkeyack =>
    intro s u h ref st hseq
    rw [exec_xkeyack, execXkeyack, State.onCtrl_of_accepted _ hseq, State.done]

end Sys2Proof.Machine

/-! ### Zenith requests and DOE (R208, R291, R307, R311, R509, R543–R545) -/

namespace Sys2Proof.Machine

section
variable (h : ZenithHead) (body : List Byte) (s : State)

theorem exec_bindSlice : exec (.bindSlice h body) s = execBindSlice h body s := rfl

theorem exec_getBinding : exec (.getBinding h body) s = execGetBinding h body s := rfl

theorem exec_sealEnable : exec (.sealEnable h body) s = execSealEnable h body s := rfl

theorem exec_sealRecovery : exec (.sealRecovery h body) s = execSealRecovery h body s := rfl

theorem exec_breachList : exec (.breachList h body) s = execBreachList h body s := rfl

theorem exec_zrSalvageRead : exec (.zrSalvageRead h body) s = execZrSalvageRead h body s := rfl

theorem exec_exportKeyCreate : exec (.exportKeyCreate h body) s = execExportKeyCreate h body s := rfl

theorem exec_exportKeyGet : exec (.exportKeyGet h body) s = execExportKeyGet h body s := rfl

theorem exec_exportKeyLoad : exec (.exportKeyLoad h body) s = execExportKeyLoad h body s := rfl

theorem exec_exportKeyDrop : exec (.exportKeyDrop h body) s = execExportKeyDrop h body s := rfl

theorem exec_zrVeilRotate : exec (.zrVeilRotate h body) s = execZrVeilRotate h body s := rfl

theorem exec_doeRequest (link ld : Nat) (spdm : Bool) :
    exec (.doeRequest link ld spdm) s = execDoeRequest link ld spdm s := rfl

end

/-- Until Horizon runs, a DOE request on a link and an LD that exist is answered Busy, unless Zenith alone serves it (R509). -/
theorem execDoeRequest_of_busy {s : State} {link ld : Nat} (hlink : s.hasLink link = true) (hld : s.cciExists ld = true)
    (hhorizon : s.on ENG_STAT.HORIZON_UP = false) (hzenith : s.chip.zenithOnly = false) (spdm : Bool) :
    execDoeRequest link ld spdm s = .next (s.send (.doeBusy link ld)).settle :=
  if_neg (by simp [hlink, hld, hhorizon, hzenith])

/-- Settles O52 (log entries 82 to 84 name the model's choices): Zenith takes each request up, the request's own checks pass under the
hypotheses, and its answer goes out with the state that the clause writes out. -/
theorem zenithRequests : Obligations.ZenithRequests := by
  refine ⟨?bind, ?getBinding, ?sealEnable, ?sealRecovery, ?breachList, ?salvage, ?keyCreate, ?keyGet, ?keyLoad, ?keyDrop, ?veilRotate,
    ?doe⟩
  case bind =>
    intro s h key htaken hunbound
    rw [exec_bindSlice, execBindSlice, State.zenith_taken _ _ htaken, State.done]
    simp only [hunbound]
  case getBinding =>
    intro s h key htaken hbound
    rw [exec_getBinding, execGetBinding, State.zenith_taken _ _ htaken, State.done]
    simp only [hbound]
  case sealEnable =>
    rintro s t h body key c htaken rfl hslice hseal
    rw [exec_sealEnable, execSealEnable, State.zenith_taken _ _ htaken, if_neg (by simp [hslice]), State.done]
    simp only [hseal]
  case sealRecovery =>
    rintro s t h body key c choice htaken rfl rfl hnow hsealed hsource rfl hended
    have hmay : ¬ (field body 2 1 = recoverRefetch ∧ s.pairState ≠ pairMirrored) := fun ⟨hrefetch, hpair⟩ =>
      hsource.elim (· hrefetch) hpair
    rw [exec_sealRecovery, execSealRecovery, State.zenith_taken _ _ htaken, if_neg (by simp [hsealed]), if_neg hmay,
      if_neg (by simp [hnow]), if_neg (by simp [hended]), State.done]
  case breachList =>
    intro s h key htaken
    rw [exec_breachList, execBreachList, State.zenith_taken _ _ htaken, State.done]
  case salvage =>
    intro s h body key x htaken hrecord hslice
    rw [exec_zrSalvageRead, execZrSalvageRead, State.zenith_taken _ _ htaken, State.done]
    simp only [hrecord, if_neg (not_not.2 hslice)]
  case keyCreate =>
    rintro s t h body key n htaken rfl hfree hsealed rfl hroom
    rw [exec_exportKeyCreate, execExportKeyCreate, State.zenith_taken _ _ htaken, if_neg (by simp [hfree, hsealed, hroom]), State.done]
  case keyGet =>
    rintro s h body key ref k htaken rfl hkey
    rw [exec_exportKeyGet, execExportKeyGet, State.zenith_taken _ _ htaken, State.done]
    simp only [hkey]
  case keyLoad =>
    rintro s h body key ref htaken rfl hroom
    rw [exec_exportKeyLoad, execExportKeyLoad, State.zenith_taken _ _ htaken, if_neg fun hfull => by omega, State.done]
  case keyDrop =>
    rintro s h body key ref k htaken rfl hkey
    rw [exec_exportKeyDrop, execExportKeyDrop, State.zenith_taken _ _ htaken, State.done]
    simp only [hkey]
  case veilRotate =>
    intro s h key htaken hidle
    rw [exec_zrVeilRotate, execZrVeilRotate, State.zenith_taken _ _ htaken, if_neg (by simp [hidle]), State.done]
  case doe =>
    intro s link ld spdm hlink hld hhorizon hzenith
    rw [exec_doeRequest, execDoeRequest_of_busy hlink hld hhorizon hzenith]

end Sys2Proof.Machine

/-! ### The step without a command -/

namespace Sys2Proof.Machine

/-- Settles O2. That the step ticks, issues writes and takes up a held command is the model's choice (log entry 1). -/
theorem idleStep : Obligations.IdleStep := by
  intro s h
  simp only [step, h, State.idle]

end Sys2Proof.Machine

/-! ### Media addresses (R226, R227) -/

namespace Sys2Proof.Machine

/-- Adding a power of two that a number does not have sets that bit and no other. -/
theorem testBit_two_pow_add {x i : Nat} (h : x.testBit i = false) (j : Nat) :
    (2 ^ i + x).testBit j = (decide (j = i) || x.testBit j) := by
  obtain hlt | rfl | hgt := Nat.lt_trichotomy j i
  · simp [Nat.testBit_two_pow_add_gt hlt, hlt.ne]
  · simp [Nat.testBit_two_pow_add_eq, h]
  · have hbit : x / 2 ^ i % 2 = 0 := by simpa [Nat.testBit_eq_decide_div_mod_eq] using h
    have hlow : x % 2 ^ (i + 1) < 2 ^ i := by
      rw [Nat.mod_pow_succ, hbit]
      exact Nat.mod_lt _ (Nat.two_pow_pos i)
    have hpow : 2 ^ i < 2 ^ (i + 1) := Nat.pow_lt_pow_right (by decide) (Nat.lt_succ_self i)
    have hdiv : (2 ^ i + x) / 2 ^ (i + 1) = x / 2 ^ (i + 1) := by
      rw [Nat.add_div (Nat.two_pow_pos _), Nat.div_eq_of_lt hpow, Nat.mod_eq_of_lt hpow, if_neg (by omega), Nat.zero_add,
        Nat.add_zero]
    obtain ⟨k, rfl⟩ := Nat.exists_eq_add_of_le' hgt
    have hother : k + (i + 1) ≠ i := by omega
    rw [← Nat.testBit_div_two_pow (2 ^ i + x), hdiv, Nat.testBit_div_two_pow, decide_eq_false hother, Bool.false_or]

/-- A field of a line number has the bits that its places in the order give it: bit `i` is the line's bit at the place of bit `i`. -/
theorem testBit_pickField (f : MediaField) (i : Nat) {bs : List (MediaField × Nat)} (h : bs.Nodup) (line : Nat) :
    (pickField f bs line).testBit i = (decide ((f, i) ∈ bs) && line.testBit (bs.idxOf (f, i))) := by
  induction bs generalizing i line with
  | nil => simp [pickField]
  | cons b bs ih =>
    obtain ⟨f', i'⟩ := b
    obtain ⟨hfresh, hrest⟩ := List.nodup_cons.1 h
    rw [pickField]
    by_cases hhead : (f', i') = (f, i)
    · obtain ⟨rfl, rfl⟩ := Prod.mk.inj hhead
      by_cases hodd : line % 2 = 1 <;> simp [hodd, Nat.testBit_zero, testBit_two_pow_add, ih _ hrest, hfresh]
    · have hkeep : (decide ((f, i) ∈ (f', i') :: bs) && line.testBit (((f', i') :: bs).idxOf (f, i))) =
          (pickField f bs (line / 2)).testBit i := by
        have hmem : (f, i) ∈ (f', i') :: bs ↔ (f, i) ∈ bs := List.mem_cons.trans (or_iff_right (Ne.symm hhead))
        rw [List.idxOf_cons_ne _ hhead, Nat.testBit_succ, ih i hrest, decide_eq_decide.2 hmem]
      rw [hkeep]
      split
      next hset =>
        obtain ⟨rfl, -⟩ := hset
        have hother : i ≠ i' := fun e => hhead (by rw [e])
        rw [testBit_two_pow_add (by simp [ih _ hrest, hfresh])]
        simp [hother]
      next => rw [Nat.zero_add]

theorem orderBits_nodup (order : Nat) : (orderBits order).Nodup := by
  unfold orderBits
  split
  · decide
  · split <;> decide

theorem Geometry.bits_nodup (g : Geometry) : g.bits.Nodup := (orderBits_nodup g.order).filter _

/-- The fields of a line number determine it: each of its bits stands at a place of some field. -/
theorem eq_of_pickField_eq {bs : List (MediaField × Nat)} (h : bs.Nodup) {l1 l2 : Nat} (h1 : l1 < 2 ^ bs.length)
    (h2 : l2 < 2 ^ bs.length) (hpick : ∀ f, pickField f bs l1 = pickField f bs l2) : l1 = l2 := by
  refine Nat.eq_of_testBit_eq fun k => ?_
  obtain hk | hk := Nat.lt_or_ge k bs.length
  · have hbit (line : Nat) : (pickField bs[k].1 bs line).testBit bs[k].2 = line.testBit k := by
      simp [testBit_pickField _ _ h, h.idxOf_getElem]
    rw [← hbit l1, ← hbit l2, hpick]
  · have hpow : 2 ^ bs.length ≤ 2 ^ k := Nat.pow_le_pow_right Nat.two_pos hk
    rw [Nat.testBit_lt_two_pow (h1.trans_le hpow), Nat.testBit_lt_two_pow (h2.trans_le hpow)]

/-- A field that is mixed with equal row bits in two lines, or in both left as it is, is the same in both. -/
theorem eq_of_hash_eq {p : Prop} [Decidable p] {a b m : Nat} (h : (if p then Nat.xor a m else a) = if p then Nat.xor b m else b) :
    a = b := by
  split at h
  · exact Nat.xor_left_inj.1 h
  · exact h

/-- A media address determines every field of its line: the hash of order 3 mixes bits of the row, which the address holds
unchanged, into the bank group and the bank. -/
theorem Geometry.pickField_eq_of_decode_eq {g : Geometry} {l1 l2 : Nat} (h : g.decode l1 = g.decode l2) (f : MediaField) :
    pickField f g.bits l1 = pickField f g.bits l2 := by
  obtain ⟨hcol, hsub, hbg, hbank, hrank, hrow⟩ := MediaAddr.mk.inj h
  cases f with
  | col => exact hcol
  | sub => exact hsub
  | rank => exact hrank
  | row => exact hrow
  | bg => exact eq_of_hash_eq (hrow ▸ hbg)
  | bank => exact eq_of_hash_eq (hrow ▸ hbank)

/-- Settles O10: no order lists a bit twice, so the fields of a media address together hold every bit of the line. -/
theorem mediaAddressesDiffer : Obligations.MediaAddressesDiffer := fun g _ _ h1 h2 h =>
  eq_of_pickField_eq g.bits_nodup h1 h2 (Geometry.pickField_eq_of_decode_eq h)

end Sys2Proof.Machine

/-! ### A stored line (R231, R258, R263) -/

namespace Sys2Proof

/-! #### Lines as bytes -/

/-- Bit `j` of a line that is formed from bytes is bit `j % 8` of byte `j / 8`. -/
theorem Line.getLsbD_ofBytes (bs : List Byte) (j : Nat) (hj : j < 512) :
    (Line.ofBytes bs).getLsbD j = (bs.getD (j / 8) 0).getLsbD (j % 8) := by
  induction bs generalizing j with
  | nil => simp [Line.ofBytes]
  | cons b bs ih =>
    rw [Line.ofBytes, BitVec.getLsbD_or, BitVec.getLsbD_shiftLeft, BitVec.getLsbD_setWidth]
    obtain hlow | hhigh := Nat.lt_or_ge j 8
    · simp [hj, hlow, Nat.div_eq_of_lt hlow, Nat.mod_eq_of_lt hlow]
    · obtain ⟨k, rfl⟩ := Nat.exists_eq_add_of_le' hhigh
      simp [hj, ih k (by omega)]

theorem Line.getLsbD_byte (l : Line) (i k : Nat) (hk : k < 8) : (l.byte i).getLsbD k = l.getLsbD (8 * i + k) := by
  simp [Line.byte, hk]

@[simp] theorem Line.length_bytes (l : Line) : l.bytes.length = 64 := by simp [Line.bytes]

/-- A line is formed again from its bytes (R4). -/
@[simp] theorem Line.ofBytes_bytes (l : Line) : Line.ofBytes l.bytes = l := by
  refine BitVec.eq_of_getLsbD_eq fun j hj => ?_
  have hbyte : l.bytes.getD (j / 8) 0 = l.byte (j / 8) := by simp [Line.bytes, show j / 8 < 64 by omega]
  rw [Line.getLsbD_ofBytes _ j hj, hbyte, Line.getLsbD_byte _ _ _ (Nat.mod_lt _ (by decide)), Nat.div_add_mod]

end Sys2Proof

namespace Sys2Proof.Machine

/-! #### Sets of numbers -/

theorem NSet.mem_place {k j : Nat} {t : NSet} : j ∈ NSet.place k t ↔ j = k ∨ j ∈ t := by
  induction t with
  | nil => simp [NSet.place]
  | cons e t ih => unfold NSet.place; split <;> simp [ih, or_left_comm]

theorem NSet.mem_add {t : NSet} {k j : Nat} : j ∈ NSet.add t k ↔ j = k ∨ j ∈ t := by
  simp only [NSet.add, NSet.mem_place, List.mem_filter]
  by_cases h : j = k <;> simp [h]

theorem NSet.mem_remove {t : NSet} {k j : Nat} : j ∈ NSet.remove t k ↔ j ≠ k ∧ j ∈ t := by
  simp [NSet.remove, and_comm]

/-! #### Bytes written one after another -/

section
variable (s : State) (a : Nat) (b : Byte) (bs : List Byte)

@[simp] theorem State.memByte_setByte_self : (s.setByte a b).memByte a = b := Table.get_set_self _ _ _ _

theorem State.memByte_setByte_ne {k : Nat} (h : a ≠ k) : (s.setByte a b).memByte k = s.memByte k :=
  Table.get_set_ne _ _ _ _ h

/-- Outside its range a write of bytes leaves memory as it was. -/
theorem State.memByte_setBytes_outside {k : Nat} (h : k < a ∨ a + bs.length ≤ k) :
    (s.setBytes a bs).memByte k = s.memByte k := by
  induction bs generalizing s a with
  | nil => rfl
  | cons b bs ih =>
    rw [List.length_cons] at h
    rw [State.setBytes, ih _ _ (by omega), State.memByte_setByte_ne _ _ _ (by omega)]

/-- Inside its range a write of bytes is read back. -/
theorem State.memByte_setBytes_inside {i : Nat} (h : i < bs.length) : (s.setBytes a bs).memByte (a + i) = bs[i] := by
  induction bs generalizing s a i with
  | nil => cases h
  | cons b bs ih =>
    rw [State.setBytes]
    cases i with
    | zero => simp [State.memByte_setBytes_outside]
    | succ i =>
      have hshift : a + (i + 1) = a + 1 + i := by omega
      rw [hshift, ih _ _ (Nat.lt_of_succ_lt_succ h), List.getElem_cons_succ]

/-- A write of bytes reaches memory alone. -/
theorem State.setBytes_eq : ∃ mem, s.setBytes a bs = { s with dram := { s.dram with mem := mem } } := by
  induction bs generalizing s a with
  | nil => exact ⟨s.dram.mem, rfl⟩
  | cons b bs ih =>
    obtain ⟨mem, h⟩ := ih (s.setByte a b) (a + 1)
    exact ⟨mem, h⟩

end

/-! #### A line is stored -/

section
variable (s : State) (line : Nat) (l : Line) (poison : Bool)

theorem State.memByte_storeLine (a : Nat) :
    (s.storeLine line l poison).memByte a = (s.setBytes (line * 64) l.bytes).memByte a := by
  obtain ⟨mem, h⟩ := s.setBytes_eq (line * 64) l.bytes
  simp only [State.storeLine, State.memByte, h]

/-- The poison pattern of a line is written or removed; the patterns of other lines stay (R258). -/
theorem State.mem_poisoned_storeLine (k : Nat) :
    k ∈ (s.storeLine line l poison).dram.poisoned ↔ if k = line then poison = true else k ∈ s.dram.poisoned := by
  obtain ⟨mem, h⟩ := s.setBytes_eq (line * 64) l.bytes
  have hset : (s.storeLine line l poison).dram.poisoned =
      if poison = true then s.dram.poisoned.add line else s.dram.poisoned.remove line := by simp only [State.storeLine, h]
  rw [hset]
  cases poison <;> by_cases hk : k = line <;> simp [NSet.mem_add, NSet.mem_remove, hk]

theorem State.storedLine_storeLine : (s.storeLine line l poison).storedLine line = l := by
  have hbytes : ((List.range 64).map fun i => (s.storeLine line l poison).memByte (line * 64 + i)) = l.bytes := by
    refine List.ext_getElem (by simp) fun i _ hi => ?_
    rw [List.getElem_map, List.getElem_range, State.memByte_storeLine, State.memByte_setBytes_inside _ _ _ hi]
  rw [State.storedLine, hbytes, Line.ofBytes_bytes]

end

/-- Settles O23: the 64 bytes of the line are written and read back one by one, and its poison pattern goes with them
(R231, R258, R263). -/
theorem memoryReadsBack : Obligations.MemoryReadsBack := by
  intro s line l poison
  obtain ⟨mem, hmem⟩ := s.setBytes_eq (line * 64) l.bytes
  refine ⟨s.storedLine_storeLine line l poison, ?poison, ?bytes, ?marks, ?regs, ?out⟩
  case poison => rw [Bool.eq_iff_iff, List.contains_iff_mem, State.mem_poisoned_storeLine, if_pos rfl]
  case bytes =>
    intro a ha
    rw [State.memByte_storeLine, State.memByte_setBytes_outside _ _ _ (by rwa [Line.length_bytes])]
  case marks =>
    intro k hk
    rw [Bool.eq_iff_iff, List.contains_iff_mem, List.contains_iff_mem, State.mem_poisoned_storeLine, if_neg hk]
  case regs => simp only [State.storeLine, hmem]
  case out => simp only [State.storeLine, hmem]

end Sys2Proof.Machine

/-! ### The scheduler's register (R251) -/

namespace Sys2Proof.Machine

/-! #### Whole registers -/

/-- A write of a whole register stores into a plain RW field the bits of the word at its place, brought into the field's range. -/
theorem State.rdAt_storeBits_rw (s : State) {r : Register} (i v : Nat) {f : Fld} (hr : r ∈ registerMap) (hf : f ∈ r.fields)
    (hacc : f.acc = .rw) (hplain : f.isEnable = false) (hcopy : f.fixedCopy i = false) :
    (s.storeBits r i 0 r.bits v).rdAt f i = f.clamp.apply (bits v f.lo f.width) % 2 ^ f.width := by
  obtain ⟨-, -, hpos, hbits⟩ := (registerMap_layout r hr).2 f hf
  have hmeets : f.meets 0 r.bits = true := by simp only [Fld.meets, Bool.and_eq_true, decide_eq_true_eq]; omega
  have hwrite (t : State) (w : Nat) : t.writeField f i w = t.wrAt f i (f.clamp.apply w) := by
    simp only [State.writeField, hcopy, hacc, hplain, Bool.false_eq_true, if_false]
  obtain ⟨before, after, hsplit, -, hafter⟩ := fields_filter_split (p := fun g => g.meets 0 r.bits) hr hf hmeets
  rw [State.storeBits_eq, hsplit, List.foldl_append, List.foldl_cons, s.rdAt_foldl_storeField fun g hg => hafter g hg i,
    State.storeField_writes (by simp [hacc]), hwrite, State.rdAt_wrAt_self, Fld.overlay_whole hbits]

/-- The word that a write of a whole register leaves is put together from the bits at the fields' places. -/
theorem State.newWord_whole (s : State) {r : Register} (hr : r ∈ registerMap) (i v : Nat) :
    s.newWord r i 0 r.bits v = (r.fields.map fun f => bits v f.lo f.width * 2 ^ f.lo).sum := by
  refine congrArg List.sum (List.map_congr_left fun f hf => ?_)
  obtain ⟨-, -, -, hbits⟩ := (registerMap_layout r hr).2 f hf
  rw [Fld.overlay_whole hbits]

/-- The steward may write every field (R619). -/
theorem filter_writable_steward (fs : List Fld) : fs.filter (·.writable .steward) = fs :=
  List.filter_eq_self.2 fun _ _ => rfl

/-! #### The register at an offset -/

/-- An offset lies in a register, or in one of its copies in the register file, whatever copy a selector selects (R622). -/
def Register.spans (r : Register) (off : Nat) : Bool :=
  decide (r.addr ≤ off) &&
    if r.reach = .strided ∧ r.step ≠ 0 then decide ((off - r.addr) / r.step < r.count) && decide ((off - r.addr) % r.step < r.bytes)
    else decide (off < r.addr + r.bytes)

theorem State.copyAt_of_not_spans (s : State) (p : Path) {r : Register} {off : Nat} (h : r.spans off = false) :
    s.copyAt p r off = none := by
  unfold State.copyAt
  unfold Register.spans at h
  split
  next hreach =>
    split
    next hstep => exact if_neg fun hin => by simp [hreach, hstep, hin] at h
    next hstep => exact if_neg fun hin => by simp [hreach, hstep, hin] at h
  next hreach => exact if_neg fun hin => by simp [hreach, hin] at h
  next hreach => exact if_neg fun hin => by simp [hreach, hin] at h

/-- The register at an offset is the first of the register map that spans it, where it shows a copy there. -/
theorem State.registerAt_of_find {s : State} {p : Path} {off i : Nat} {r : Register}
    (hfind : registerMap.find? (·.spans off) = some r) (hcopy : s.copyAt p r off = some i) : s.registerAt p off = some (r, i) := by
  obtain ⟨-, before, after, hmap, hbefore⟩ := List.find?_eq_some_iff_append.1 hfind
  refine List.findSome?_eq_some_iff.2 ⟨before, r, after, hmap, by rw [hcopy, Option.map_some], fun g hg => ?_⟩
  rw [s.copyAt_of_not_spans p (by simpa using hbefore g hg), Option.map_none]

/-! #### DMC_SCHED -/

/-- The row of DMC_SCHED in the register index. -/
def schedRegister : Register :=
  ⟨"DMC_SCHED", 0xC0018, 0x0, 1, 64, .strided,
    [DMC_SCHED.WQ_LOW, DMC_SCHED.WQ_HIGH, DMC_SCHED.WQ_PANIC, DMC_SCHED.PANIC_WAIT, DMC_SCHED.AGEMAX]⟩

theorem find_spans_schedRegister : registerMap.find? (·.spans 0xC0018) = some schedRegister := by decide +kernel

theorem schedRegister_mem : schedRegister ∈ registerMap := List.mem_of_find?_eq_some find_spans_schedRegister

/-- The fields of DMC_SCHED, summed one by one. -/
theorem sum_map_schedFields (g : Fld → Nat) : (schedRegister.fields.map g).sum =
    g DMC_SCHED.WQ_LOW + (g DMC_SCHED.WQ_HIGH + (g DMC_SCHED.WQ_PANIC + (g DMC_SCHED.PANIC_WAIT + g DMC_SCHED.AGEMAX))) := rfl

/-- The word of a whole write of DMC_SCHED holds the watermarks that are written. -/
theorem bits_newWord_sched (s : State) (v : Nat) : ∃ w, s.newWord schedRegister 0 0 schedRegister.bits v = w ∧
    bits w 0 7 = bits v 0 7 ∧ bits w 8 7 = bits v 8 7 ∧ bits w 16 7 = bits v 16 7 := by
  have hword : s.newWord schedRegister 0 0 schedRegister.bits v = bits v 0 7 * 2 ^ 0 + (bits v 8 7 * 2 ^ 8 +
      (bits v 16 7 * 2 ^ 16 + (bits v 32 10 * 2 ^ 32 + bits v 48 10 * 2 ^ 48))) :=
    (s.newWord_whole schedRegister_mem 0 v).trans (sum_map_schedFields _)
  refine ⟨_, hword, ?_⟩
  simp only [bits_eq_div_mod]
  omega

/-- Among the writes that do more than store, a write of DMC_SCHED acts only where it leaves the watermarks in order (R251). -/
theorem find_schedWrite (p : Path) (i w : Nat) (bme msix : Bool) (store : State → State) :
    (systemWrites p w store ++ memoryWrites i w store ++ mediaWrites i w store ++ hostWrites i w bme msix store ++
      pairWrites w store ++ stewardWrites i w store).find? (fun e => e.1 == schedRegister.addr) =
    some (DMC_SCHED.WQ_LOW.addr, fun s => if DMC_SCHED.WQ_LOW.of w < DMC_SCHED.WQ_HIGH.of w ∧
      DMC_SCHED.WQ_HIGH.of w < DMC_SCHED.WQ_PANIC.of w then store s else s) := by rfl

theorem State.writeRegister_sched (s : State) (i lo n v : Nat) (bme msix : Bool) :
    s.writeRegister .steward schedRegister i lo n v bme msix =
      if DMC_SCHED.WQ_LOW.of (s.newWord schedRegister i lo n v) < DMC_SCHED.WQ_HIGH.of (s.newWord schedRegister i lo n v) ∧
          DMC_SCHED.WQ_HIGH.of (s.newWord schedRegister i lo n v) < DMC_SCHED.WQ_PANIC.of (s.newWord schedRegister i lo n v) then
        s.storeBits schedRegister i lo n v
      else s := by
  have hfields : schedRegister.fields.isEmpty = false := rfl
  simp only [State.writeRegister, filter_writable_steward, hfields, Bool.false_eq_true, if_false, find_schedWrite]

/-- A write of the whole of DMC_SCHED is stored where it leaves the watermarks in order, and ignored as a whole otherwise (R251). -/
theorem State.writeOffset_sched (s : State) (v : Nat) (bme msix : Bool) :
    s.writeOffset .steward 0xC0018 8 v bme msix =
      if bits v 0 7 < bits v 8 7 ∧ bits v 8 7 < bits v 16 7 then s.storeBits schedRegister 0 0 schedRegister.bits v else s := by
  have hregister : s.registerAt .steward 0xC0018 = some (schedRegister, 0) := State.registerAt_of_find find_spans_schedRegister rfl
  have hlo : 8 * (0xC0018 - schedRegister.base 0) = 0 := by decide
  have hn : min (8 * 8) (schedRegister.bits - 0) = schedRegister.bits := by decide
  obtain ⟨w, hw, hlow, hhigh, hpanic⟩ := bits_newWord_sched s v
  have hof : DMC_SCHED.WQ_LOW.of w = bits v 0 7 ∧ DMC_SCHED.WQ_HIGH.of w = bits v 8 7 ∧ DMC_SCHED.WQ_PANIC.of w = bits v 16 7 :=
    ⟨hlow, hhigh, hpanic⟩
  rw [State.writeOffset, if_neg (by decide), if_neg (by decide), hregister]
  simp only [hlo, hn, State.writeRegister_sched, hw, hof]

/-- The clamp of a time field of DMC_SCHED gives a value that fits the field (R251). -/
theorem schedTime_clamp (v lo : Nat) : (Clamp.range 10 1000).apply (bits v lo 10) % 2 ^ 10 = max 10 (min (bits v lo 10) 1000) := by
  simp only [Clamp.apply]
  split
  · omega
  · split <;> omega

/-- Settles O17: the write is compared before it is stored, and each field stores the bits at its place, clamped to its range. -/
theorem schedulerWatermarks : Obligations.SchedulerWatermarks := by
  have hexec (s : State) (fn v : Nat) (bme msix : Bool) : exec (.registerWrite .steward fn 0xC0018 8 v bme msix) s =
      .next (s.writeOffset .steward 0xC0018 8 v bme msix).settle := by
    rw [exec_registerWrite, execRegisterWrite_shown (by simp)]
  constructor
  · intro s fn v bme msix hdisorder
    rw [hexec, State.writeOffset_sched, if_neg hdisorder]
  · intro s fn v bme msix hlow hhigh
    have hstored {f : Fld} (hf : f ∈ schedRegister.fields) (hacc : f.acc = .rw) (hplain : f.isEnable = false)
        (hcopy : f.fixedCopy 0 = false) := s.rdAt_storeBits_rw 0 v schedRegister_mem hf hacc hplain hcopy
    have hmark (lo : Nat) : Clamp.asWritten.apply (bits v lo 7) % 2 ^ 7 = bits v lo 7 := Nat.mod_mod _ _
    refine ⟨s.storeBits schedRegister 0 0 schedRegister.bits v, ?stored, ?low, ?high, ?panic, ?wait, ?age⟩
    case stored => rw [hexec, State.writeOffset_sched, if_pos ⟨hlow, hhigh⟩]
    case low => exact (hstored (by simp [schedRegister]) rfl rfl rfl).trans (hmark 0)
    case high => exact (hstored (by simp [schedRegister]) rfl rfl rfl).trans (hmark 8)
    case panic => exact (hstored (by simp [schedRegister]) rfl rfl rfl).trans (hmark 16)
    case wait => exact (hstored (by simp [schedRegister]) rfl rfl rfl).trans (schedTime_clamp v 32)
    case age => exact (hstored (by simp [schedRegister]) rfl rfl rfl).trans (schedTime_clamp v 48)

end Sys2Proof.Machine

/-! ### DRAM channels (R230–R239, R243–R246, R248) -/

namespace Sys2Proof.Machine

section
variable (c : Nat) (s : State)

theorem exec_channelCommit : exec .channelCommit s = execChannelCommit s := rfl

theorem exec_channelUncommit : exec .channelUncommit s = execChannelUncommit s := rfl

theorem exec_backgroundInitialization : exec .backgroundInitialization s = execBackgroundInitialization s := rfl

theorem exec_dramDataReturn (id : Nat) (f : MediaFind) : exec (.dramDataReturn id f) s = execDramDataReturn id f s := rfl

theorem exec_panicWaitExpiry (read : Bool) : exec (.panicWaitExpiry c read) s = execPanicWaitExpiry c read s := rfl

theorem exec_panicEnd : exec (.panicEnd c) s = execPanicEnd c s := rfl

theorem exec_refresh : exec (.refresh c) s = execRefresh c s := rfl

theorem exec_dimmTemperatureRead (t0 t1 : Nat) : exec (.dimmTemperatureRead c t0 t1) s = execDimmTemperatureRead c t0 t1 s := rfl

theorem exec_powerDownEntry (rank : Nat) : exec (.powerDownEntry c rank) s = execPowerDownEntry c rank s := rfl

theorem exec_dramPllLock (k : Nat) : exec (.dramPllLock k) s = execDramPllLock k s := rfl

theorem exec_trainingStepEnd (t : TrainStep) : exec (.trainingStepEnd c t) s = execTrainingStepEnd c t s := rfl

theorem exec_caParityError (retries : Nat) : exec (.caParityError c retries) s = execCaParityError c retries s := rfl

theorem exec_dmcFrzctlRelease : exec (.dmcFrzctlRelease c) s = execDmcFrzctlRelease c s := rfl

theorem exec_channelReleaseEnd (fs : Finds) : exec (.channelReleaseEnd c fs) s = execChannelReleaseEnd c fs s := rfl

theorem exec_dmcSparectlStart (v : Nat) : exec (.dmcSparectlStart c v) s = execDmcSparectlStart c v s := rfl

theorem exec_sparingCopy (f : Ecc) : exec (.sparingCopy c f) s = execSparingCopy c f s := rfl

end

/-! #### The channel commit and background initialization (R230, R248) -/

section
variable {s : State}

/-- Channels that are not committed and pass the check are committed (R248). -/
theorem State.askChannels_of_passes (hcommit : s.on DMC_COMMIT.COMMIT = false) (hcheck : s.channelCheck = 0) :
    s.askChannels = (s.wr DMC_COMMIT.CHECK 0).commitChannels := by
  simp only [State.askChannels, hcommit, hcheck, Bool.false_eq_true, if_false, if_true]

/-- Initialization zeroes its next region unless a panic of that channel holds master SERVICE (R230, R233). -/
theorem execBackgroundInitialization_of_running (hrun : s.dram.init.running = true)
    (hpanic : s.panicHolds masterService (s.regionAt s.dram.init.next).1 = false) :
    execBackgroundInitialization s = .next s.initRegion.settle := by
  simp only [execBackgroundInitialization, hrun, hpanic, Bool.not_true, Bool.false_eq_true, if_false, State.done]

/-! #### Read data (R231) -/

/-- The data of a read from a frame is used where neither Cirrus nor the writeback buffer holds its line, and the poison list does
not (R231). -/
theorem execDramDataReturn_of_frame {t : State} {id mfn : Nat} {r : OpenReq} (hreq : s.req id = some r) (hstage : r.stage = .dram)
    (hread : isRead r.op = true) (ht : t = { s with dram := { s.dram with master := r.link } })
    (hcir : t.cirLine r.dpaLine = none) (hbuffer : t.buffered r.dpaLine = none) (hloc : (t.entry (r.dpaLine / 64)).loc = .frame mfn)
    (hlisted : t.listed r.dpaLine = false) (f : MediaFind) :
    execDramDataReturn id f s = .next (t.dataReturned r mfn f).settle := by
  subst ht
  have htaken : ¬ ((r.stage != .dram || !isRead r.op) = true) := by simp [hstage, hread]
  simp only [execDramDataReturn, hreq, if_neg htaken, hcir, hbuffer, hloc, hlisted, Bool.or_false, Bool.false_eq_true, if_false,
    State.done]

/-! #### Panic, refresh and power-down (R233–R236) -/

/-- The first cause of a panic is counted and shown (R233). -/
theorem execPanicWaitExpiry_of_calm {c : Nat} (hpanic : (s.chan c).panic = false) (read : Bool) :
    execPanicWaitExpiry c read s = .next ((((s.setChan c (if read then { s.chan c with panicRead := true }
      else { s.chan c with panicWrite := true })).event Ev.panics c).showPanic c true).settle) := by
  simp only [execPanicWaitExpiry, hpanic, Bool.false_eq_true, if_false, State.done]

/-- In panic a refresh is postponed, at most 4 times in a row (R233). -/
theorem execRefresh_of_panic {c : Nat} (hself : (s.chan c).selfRefresh = false) (hpop : s.populated c = true)
    (hpanic : (s.chan c).panic = true) (hdebt : (s.chan c).refreshDebt < 4) :
    execRefresh c s =
      .next ((s.setChan c { s.chan c with refreshDebt := (s.chan c).refreshDebt + 1 }).event Ev.postponements c) := by
  have hactive : ¬ (((s.chan c).selfRefresh || !s.populated c) = true) := by simp [hself, hpop]
  have hpostponed : ((s.chan c).panic && decide ((s.chan c).refreshDebt < 4)) = true := by simp [hpanic, hdebt]
  rw [execRefresh, if_neg hactive, if_pos hpostponed]

/-- Out of panic an all-bank refresh closes every row and makes up for what was postponed (R234). -/
theorem execRefresh_allBank {c : Nat} (hself : (s.chan c).selfRefresh = false) (hpop : s.populated c = true)
    (hpanic : (s.chan c).panic = false) (hmode : s.rdAt DMC_CHCFG.REFMODE c ≠ 2) :
    execRefresh c s = .next ((s.setChan c { s.chan c with
        refreshDebt := 0, refreshes := (s.chan c).refreshes + (s.chan c).refreshDebt + 1, openRows := [] }).recordCmd
      c cmdRefAb noAddr 0 0 15) := by
  have hactive : ¬ (((s.chan c).selfRefresh || !s.populated c) = true) := by simp [hself, hpop]
  have hdue : ¬ (((s.chan c).panic && decide ((s.chan c).refreshDebt < 4)) = true) := by simp [hpanic]
  have hall : (s.rdAt DMC_CHCFG.REFMODE c == 2) = false := beq_false_of_ne hmode
  rw [execRefresh, if_neg hactive, if_neg hdue]
  simp only [hall, Bool.false_eq_true, if_false]

/-- An idle rank of the channel is powered down, and its open rows are closed (R236). -/
theorem execPowerDownEntry_of_idle {c rank : Nat} (htimer : s.rd DMC_PWR.PDTIMER ≠ 0) (hself : (s.chan c).selfRefresh = false)
    (hup : (s.chan c).poweredDown.has rank = false) (hrank : rank < s.rdAt DMC_CHSTAT.RANKS c) :
    execPowerDownEntry c rank s = .next (((s.setChan c { s.chan c with
        poweredDown := (s.chan c).poweredDown.add rank
        openRows := (s.chan c).openRows.filter fun e => e.1 / 64 != rank }).recordCmd
      c cmdPde { noAddr with rank := rank } 0 0 15).event Ev.powerDowns c) :=
  if_neg (by simp [htimer, hself, hup, hrank])

/-! #### Training (R237) -/

/-- The SPDs of a channel in training are read: its DIMMs and ranks are shown (R237 step 1). -/
theorem execTrainingStepEnd_of_spd {c : Nat} {dimms : List Dimm} {g : Geometry} (hpll : bit (s.rd CLK_STAT.DRAM) (c / 2) = true)
    (htrained : s.onAt DMC_CHSTAT.TRAINED c = false) (hfail : s.onAt DMC_TRAIN.FAIL c = false)
    (hphase : s.rdAt DMC_TRAIN.PHASE c = 0) (hdimms : dimms ≠ []) (hexclude : bit (s.rd DMC_CFG.EXCLUDE) c = false)
    (hgeometry : (s.setChan c { s.chan c with dimms := dimms }).geometry c = some g) :
    execTrainingStepEnd c (.spd dimms) s = .next ((((s.setChan c { s.chan c with dimms := dimms }).putAt DMC_CHSTAT.POP c true).wrAt
      DMC_CHSTAT.RANKS c g.ranks).wrAt DMC_TRAIN.PHASE c 1) := by
  have htraining : ¬ ((!bit (s.rd CLK_STAT.DRAM) (c / 2) || s.onAt DMC_CHSTAT.TRAINED c || s.onAt DMC_TRAIN.FAIL c) = true) := by
    simp [hpll, htrained, hfail]
  have hfirst : ¬ (s.rdAt DMC_TRAIN.PHASE c ≠ 0 ∨ dimms = [] ∨ bit (s.rd DMC_CFG.EXCLUDE) c = true) := by
    simp [hphase, hdimms, hexclude]
  rw [execTrainingStepEnd, if_neg htraining]
  simp only [if_neg hfirst, hgeometry]

/-! #### Release and sparing (R243–R246) -/

/-- A release that KEPT allows is accepted where neither a repair nor a hot channel in self-refresh holds it (R243 step 1). -/
theorem State.askChannelRelease_of_kept {c : Nat} (hfrozen : s.frozen c = true) (hreleasing : s.onAt DMC_CHSTAT.RELEASING c = false)
    (hkept : s.onAt DMC_CHSTAT.KEPT c = true) (hrepair : (s.putAt DMC_FRZCTL.RELEASE c true).repairBusy c = false)
    (hself : ((s.putAt DMC_FRZCTL.RELEASE c true).chan c).selfRefresh = false) :
    s.askChannelRelease c = (s.putAt DMC_FRZCTL.RELEASE c true).acceptRelease c := by
  simp only [State.askChannelRelease, hfrozen, hreleasing, hkept, hrepair, hself, Bool.not_true, Bool.or_false, Bool.false_and,
    Bool.false_eq_true, if_false]

/-- The sparing copy moves its next line while it runs and nothing holds it (R245). -/
theorem execSparingCopy_of_copying {c : Nat} {g : Geometry} (hgeometry : s.geometry c = some g)
    (hcopying : s.rdAt DMC_CHSTAT.SPARESTAT c = spareCopying) (hfrozen : s.frozen c = false)
    (hpanic : s.panicHolds masterService c = false) (f : Ecc) : execSparingCopy c f s = .next ((s.spareStep c g f).settle) := by
  have hruns : ¬ (s.rdAt DMC_CHSTAT.SPARESTAT c ≠ spareCopying ∨ s.frozen c = true) := by simp [hcopying, hfrozen]
  simp only [execSparingCopy, hgeometry, if_neg hruns, hpanic, Bool.false_eq_true, if_false, State.done]

end

/-! #### Where each command completes -/

/-- Settles O34 (log entries 31 to 33 and 37 name the model's choices): each command takes effect on a channel in the condition that
its rule asks for. -/
theorem channelCommands : Obligations.ChannelCommands := by
  refine ⟨?commit, ?uncommit, ?zeroFill, ?data, ?panicRead, ?panicWrite, ?panicEnd, ?postpone, ?refresh, ?temperature, ?powerDown,
    ?pllLock, ?spd, ?parityFreeze, ?parity, ?release, ?releaseEnd, ?sparing, ?copy⟩
  case commit =>
    intro s hcommit hcheck
    rw [exec_channelCommit, execChannelCommit, State.askChannels_of_passes hcommit hcheck, State.done]
  case uncommit =>
    intro s _ _
    rw [exec_channelUncommit, execChannelUncommit, State.done]
  case zeroFill =>
    intro s hrun hpanic
    rw [exec_backgroundInitialization, execBackgroundInitialization_of_running hrun hpanic]
  case data =>
    intro s t id mfn f r hreq hstage hread ht hcir hbuffer hloc hlisted
    rw [exec_dramDataReturn, execDramDataReturn_of_frame hreq hstage hread ht hcir hbuffer hloc hlisted]
  case panicRead =>
    intro s c hpanic
    rw [exec_panicWaitExpiry, execPanicWaitExpiry_of_calm hpanic, if_pos rfl]
  case panicWrite =>
    intro s c hpanic
    rw [exec_panicWaitExpiry, execPanicWaitExpiry_of_calm hpanic, if_neg Bool.false_ne_true]
  case panicEnd =>
    intro s c
    rw [exec_panicEnd, execPanicEnd, State.done]
  case postpone =>
    intro s c hself hpop hpanic hdebt
    rw [exec_refresh, execRefresh_of_panic hself hpop hpanic hdebt]
  case refresh =>
    intro s c hself hpop hpanic hmode
    rw [exec_refresh, execRefresh_allBank hself hpop hpanic hmode]
  case temperature =>
    intro s c t0 t1
    rw [exec_dimmTemperatureRead, execDimmTemperatureRead, State.done]
  case powerDown =>
    intro s c rank htimer hself hup hrank
    rw [exec_powerDownEntry, execPowerDownEntry_of_idle htimer hself hup hrank]
  case pllLock =>
    intro s k
    rw [exec_dramPllLock, execDramPllLock]
  case spd =>
    rintro s t c dimms g hpll htrained hfail hphase hdimms hexclude rfl hgeometry
    rw [exec_trainingStepEnd, execTrainingStepEnd_of_spd hpll htrained hfail hphase hdimms hexclude hgeometry]
  case parityFreeze =>
    intro s c retries hthird
    rw [exec_caParityError, execCaParityError, Nat.min_eq_right hthird, State.done]
    simp only [hthird, if_true]
  case parity =>
    intro s c retries hfew
    rw [exec_caParityError, execCaParityError, Nat.min_eq_left hfew.le, State.done]
    simp only [hfew.not_ge, if_false]
  case release =>
    intro s c hfrozen hreleasing hkept hrepair hself
    rw [exec_dmcFrzctlRelease, execDmcFrzctlRelease, State.askChannelRelease_of_kept hfrozen hreleasing hkept hrepair hself,
      State.done]
  case releaseEnd =>
    intro s c fs hreleasing
    rw [exec_channelReleaseEnd, execChannelReleaseEnd, if_neg (by simp [hreleasing]), State.done]
  case sparing =>
    rintro s u c v rfl _ _
    rw [exec_dmcSparectlStart, execDmcSparectlStart]
  case copy =>
    intro s c f g hgeometry hcopying hfrozen hpanic
    rw [exec_sparingCopy, execSparingCopy_of_copying hgeometry hcopying hfrozen hpanic]

end Sys2Proof.Machine

/-! ### Scrubs and repairs (R268–R275, R285) -/

namespace Sys2Proof.Machine

section
variable (s : State)

theorem exec_medScrubctlStart (v : Nat) : exec (.medScrubctlStart v) s = execMedScrubctlStart v s := rfl

theorem exec_medScrubctlStop : exec .medScrubctlStop s = execMedScrubctlStop s := rfl

theorem exec_scrubRead (k : Nat) (fs : Finds) (metaUes : Nat) : exec (.scrubRead k fs metaUes) s = execScrubRead k fs metaUes s := rfl

theorem exec_scrubPolicyPass : exec .scrubPolicyPass s = execScrubPolicyPass s := rfl

theorem exec_hpprRowEnd (c : Nat) (ok : Bool) : exec (.hpprRowEnd c ok) s = execHpprRowEnd c ok s := rfl

theorem exec_medPprctlStart (v : Nat) : exec (.medPprctlStart v) s = execMedPprctlStart v s := rfl

theorem exec_pprEnd (noResource : Bool) (ues mismatches : List Nat) :
    exec (.pprEnd noResource ues mismatches) s = execPprEnd noResource ues mismatches s := rfl

end

section
variable {s : State}

/-! #### Scrubs (R268–R272) -/

/-- With START 0 the write is taken, and context 0 is asked for (R268). -/
theorem execMedScrubctlStart_of_idle (hstart : s.on MED_SCRUBCTL.START = false) (v : Nat) : execMedScrubctlStart v s =
    .next ((s.storeFields [MED_SCRUBCTL.SCOPE, MED_SCRUBCTL.VERIFY, MED_SCRUBCTL.CHANNEL] 0 v).askScrub.settle) :=
  if_neg (by simp [hstart])

/-- While START is 1 a write of STOP ends context 0 (R269). -/
theorem execMedScrubctlStop_of_running (hstart : s.on MED_SCRUBCTL.START = true) :
    execMedScrubctlStop s = .next (s.stopScrub .registers).settle :=
  if_pos hstart

/-- A physical scrub reads its next frame unless a panic of its channel holds master SCRUB (R233, R269). -/
theorem execScrubRead_of_physical {k : Nat} {w : Scrub} (hfind : s.med.scrubs.find k = some w) (hphysical : w.logical = false)
    (hpanic : s.panicHolds masterScrub w.channel = false) (fs : Finds) (metaUes : Nat) :
    execScrubRead k fs metaUes s = .next (s.scrubStep k w (some w.channel) fs metaUes).settle := by
  simp only [execScrubRead, hfind, hphysical, Bool.false_eq_true, if_false, Option.any_some, hpanic, State.done]

/-- The policy goes on where it is enabled, Horizon is up and context 0 is idle (R272). -/
theorem execScrubPolicyPass_of_idle (hpolicy : s.med.policyOn = true) (hup : s.on ENG_STAT.HORIZON_UP = true)
    (hstart : s.on MED_SCRUBCTL.START = false) : execScrubPolicyPass s = .next s.policyPass.settle :=
  if_neg (by simp [hpolicy, hup, hstart])

/-! #### Row repair (R273–R275) -/

/-- The oldest listed row of a channel in hard repair is logged; after the fourth row or the last, training passes (R273). -/
theorem execHpprRowEnd_of_repairing {c : Nat} {r : RepairRow} {rs : List RepairRow} (hrepairing : s.chip.repairing.has c = true)
    (hrows : s.repairRows c = r :: rs) (ok : Bool) : execHpprRowEnd c ok s =
      .next (if ((s.noteRepair c r ok).repairRows c).isEmpty || decide (4 ≤ (s.noteRepair c r ok).chip.repaired.get 0 c) then
        (s.noteRepair c r ok).trainingPassed c
      else s.noteRepair c r ok).settle := by
  simp only [execHpprRowEnd, hrepairing, hrows, Bool.not_true, Bool.false_eq_true, if_false, List.head?_cons, State.done]

/-- A named row that lies in the geometry of a channel frozen for a UE begins its repair (R274 step 1). -/
theorem State.startRepair_of_ready (hready : s.repairReady s.namedRow.channel = true) (hrow : s.rowOk s.namedRow = true) :
    s.startRepair = s.beginRepair s.namedRow := by
  simp only [State.startRepair, hready, hrow, Bool.not_true, Bool.false_eq_true, if_false]

/-- With BUSY 0 the write is taken, and the row that it names is asked for (R274). -/
theorem execMedPprctlStart_of_idle (hbusy : s.on MED_PPRSTAT.BUSY = false) (v : Nat) : execMedPprctlStart v s =
    .next (s.storeFields [MED_PPRCTL.CHANNEL, MED_PPRCTL.SUBCH, MED_PPRCTL.RANK, MED_PPRCTL.BG, MED_PPRCTL.BANK,
      MED_PPRCTL.ROW] 0 v).startRepair.settle :=
  if_neg (by simp [hbusy])

/-- The repair under way ends (R274 steps 2 to 6). -/
theorem execPprEnd_of_repair {r : RepairRow} (hrow : s.med.pprRow = some r) (noResource : Bool) (ues mismatches : List Nat) :
    execPprEnd noResource ues mismatches s = .next (s.endRepair r noResource ues mismatches).settle := by
  simp only [execPprEnd, hrow, State.done]

end

/-! #### Where each command completes -/

/-- Settles O35 (log entries 34 to 36 name the model's choices): each command takes effect on a scrub or a repair in the condition
that its rule asks for. -/
theorem mediaCommands : Obligations.MediaCommands := by
  refine ⟨?scrubStart, ?scrubStop, ?scrubRead, ?policy, ?hardRepair, ?repairStart, ?repairEnd⟩
  case scrubStart =>
    intro s v hstart
    rw [exec_medScrubctlStart, execMedScrubctlStart_of_idle hstart]
  case scrubStop =>
    intro s hstart
    rw [exec_medScrubctlStop, execMedScrubctlStop_of_running hstart]
  case scrubRead =>
    intro s k ues fs x hfind hphysical hpanic
    rw [exec_scrubRead, execScrubRead_of_physical hfind hphysical hpanic]
  case policy =>
    intro s hpolicy hup hstart
    rw [exec_scrubPolicyPass, execScrubPolicyPass_of_idle hpolicy hup hstart]
  case hardRepair =>
    intro s c ok r rs hrepairing hrows
    rw [exec_hpprRowEnd, execHpprRowEnd_of_repairing hrepairing hrows]
  case repairStart =>
    rintro s u v hbusy rfl hready hrow
    rw [exec_medPprctlStart, execMedPprctlStart_of_idle hbusy, State.startRepair_of_ready hready hrow]
  case repairEnd =>
    intro s r bad ues mis hrow
    rw [exec_pprEnd, execPprEnd_of_repair hrow]

end Sys2Proof.Machine

/-! ### Veil and seal (R288–R319) -/

namespace Sys2Proof.Machine

/-! #### What a fault source leaves: the fields of every window but the fault unit's (R568–R574, R622) -/

/-- The window of the register file that a key lies in (R622); the copies that a selector selects lie a bank apart (R618). -/
def windowOfKey (key : Nat) : Nat := windowOf (key / 64 % bank)

/-- Where the fault unit's window begins (R622). -/
def fltWindow : Nat := 0x160000

/-- All copies of a field that a selector selects lie in one window. -/
theorem Fld.windowOfKey_bank {f : Fld} (hstep : f.step = bank) (hlo : f.lo < 64) (i : Nat) :
    windowOfKey (f.key i) = windowOf (f.addr % bank) := by
  have hkey : f.key i / 64 % bank = f.addr % bank := by
    simp only [Fld.key, hstep, bank]
    omega
  rw [windowOfKey, hkey]

/-- The sticky bits of the 128 sources lie in the fault unit (R568). -/
theorem windowOfKey_sticky {src : Nat} (hsrc : src < 128) : windowOfKey (FLT_STICKY.SRC.key (src / 64)) = fltWindow := by
  obtain h | h : src / 64 = 0 ∨ src / 64 = 1 := by omega
  · rw [h]; rfl
  · rw [h]; rfl

section
variable {f : Fld} {i : Nat} (hf : windowOfKey (f.key i) ≠ fltWindow) (s : State)
include hf

/-- A field outside the fault unit keeps its value when one of the fault unit's is written. -/
theorem State.rdAt_wrAt_flt {g : Fld} {k : Nat} (hg : windowOfKey (g.key k) = fltWindow) (v : Nat) :
    (s.wrAt g k v).rdAt f i = s.rdAt f i :=
  s.rdAt_wrAt_ne v fun hkey => hf (hkey ▸ hg)

theorem State.rdAt_setSticky {src : Nat} (hsrc : src < 128) (b : Bool) : (s.setSticky src b).rdAt f i = s.rdAt f i :=
  s.rdAt_wrAt_flt hf (windowOfKey_sticky hsrc) _

theorem State.rdAt_driveErrn : s.driveErrn.rdAt f i = s.rdAt f i := s.rdAt_wrAt_flt hf rfl _

theorem State.rdAt_interrupt : s.interrupt.rdAt f i = s.rdAt f i := by
  unfold State.interrupt
  split
  · rfl
  · exact s.rdAt_wrAt_flt hf rfl _

theorem State.rdAt_heartStop (cause : Nat) : (s.heartStop cause).rdAt f i = s.rdAt f i := by
  unfold State.heartStop
  split
  · exact s.rdAt_wrAt_flt hf rfl _
  · rfl

theorem State.rdAt_chipReset (src : Nat) : (s.chipReset src).rdAt f i = s.rdAt f i := by
  unfold State.chipReset
  rw [State.rdAt_heartStop hf]
  exact (State.rdAt_wrAt_flt hf _ rfl _).trans (s.rdAt_wrAt_flt hf rfl _)

theorem State.rdAt_capture {src : Nat} (hsrc : src < 128) : (s.capture src).rdAt f i = s.rdAt f i := by
  have hcount : windowOfKey (FLT_SRCCFG.COUNT.key src) = fltWindow := Fld.windowOfKey_bank rfl (by decide) src
  have hstamp : windowOfKey (FLT_SRCTS.TS.key src) = fltWindow := Fld.windowOfKey_bank rfl (by decide) src
  unfold State.capture
  extract_lets counted first _ listed levelled
  have hcounted : counted.rdAt f i = s.rdAt f i :=
    (State.rdAt_wrAt_flt hf _ hstamp _).trans (s.rdAt_wrAt_flt hf hcount _)
  have hfirst : first.rdAt f i = counted.rdAt f i := by
    simp only [first]
    split
    · rfl
    · exact (State.rdAt_wrAt_flt hf _ rfl _).trans
        ((State.rdAt_wrAt_flt hf _ rfl _).trans (counted.rdAt_wrAt_flt hf rfl _))
  have hlisted : listed.rdAt f i = first.rdAt f i := by
    simp only [listed]
    split
    · rfl
    · exact first.rdAt_wrAt_flt hf rfl _
  have hlevelled : levelled.rdAt f i = listed.rdAt f i := listed.rdAt_wrAt_flt hf rfl _
  rw [State.rdAt_setSticky hf _ hsrc, hlevelled, hlisted, hfirst, hcounted]

theorem State.rdAt_reactRising (src : Nat) : (s.reactRising src).rdAt f i = s.rdAt f i := by
  unfold State.reactRising
  extract_lets interrupted _ notified
  have hinterrupted : interrupted.rdAt f i = s.rdAt f i := by
    simp only [interrupted]
    split
    · exact s.rdAt_interrupt hf
    · rfl
  have hnotified : notified.rdAt f i = interrupted.rdAt f i := by
    simp only [notified]
    split <;> rfl
  rw [State.rdAt_driveErrn hf, hnotified, hinterrupted]

theorem State.rdAt_reactAlways (src core : Nat) : (s.reactAlways src core).rdAt f i = s.rdAt f i := by
  unfold State.reactAlways
  extract_lets _ asked
  have hasked : asked.rdAt f i = s.rdAt f i := by
    simp only [asked]
    split
    · split
      · split <;> rfl
      · exact s.rdAt_interrupt hf
    · rfl
  split
  · rw [State.rdAt_driveErrn hf, State.rdAt_chipReset hf, hasked]
  · exact hasked

/-- A fault source that fires leaves every field outside the fault unit. -/
theorem State.rdAt_raiseFor {src : Nat} (hsrc : src < 128) (core : Nat) : (s.raiseFor src core).rdAt f i = s.rdAt f i := by
  unfold State.raiseFor
  extract_lets rising captured reacted
  have hreacted : reacted.rdAt f i = captured.rdAt f i := by
    simp only [reacted]
    split
    · exact captured.rdAt_reactRising hf src
    · rfl
  rw [State.rdAt_reactAlways hf, hreacted, s.rdAt_capture hf hsrc]

theorem State.rdAt_raise {src : Nat} (hsrc : src < 128) : (s.raise src).rdAt f i = s.rdAt f i := s.rdAt_raiseFor hf hsrc 0

end

/-! #### The counter allocator of a KeyID (R300, R308) -/

theorem keyAlloc_key_ne {j k : Nat} (h : k ≠ j) : SEC_KEYALLOC.NEXT.key k ≠ SEC_KEYALLOC.NEXT.key j := by
  simp only [Fld.key, SEC_KEYALLOC.NEXT, bank]
  omega

theorem rekey_key_ne_keyAlloc (k j : Nat) : SEC_KEYSTAT.REKEY.key k ≠ SEC_KEYALLOC.NEXT.key j := by
  simp only [Fld.key, SEC_KEYSTAT.REKEY, SEC_KEYALLOC.NEXT, bank]
  omega

theorem windowOfKey_keyAlloc (j : Nat) : windowOfKey (SEC_KEYALLOC.NEXT.key j) ≠ fltWindow := by
  rw [Fld.windowOfKey_bank rfl (by decide)]
  decide

/-- What the allocator does when it is not exhausted: it gives its value and steps, and asks for a re-key at most (R300, R308). -/
theorem State.nextCounter_eq_some {s t : State} {k v : Nat} (h : s.nextCounter k = some (v, t)) :
    v = s.rdAt SEC_KEYALLOC.NEXT k ∧ v < lastCounter ∧ (t = s.wrAt SEC_KEYALLOC.NEXT k (v + 1) ∨
      t = ((s.wrAt SEC_KEYALLOC.NEXT k (v + 1)).putAt SEC_KEYSTAT.REKEY k true).raise srcRekey) := by
  unfold State.nextCounter at h
  extract_lets value stepped at h
  split at h
  case isTrue => cases h
  case isFalse hroom =>
    obtain ⟨rfl, rfl⟩ := Prod.mk.inj (Option.some.inj h)
    refine ⟨rfl, Nat.lt_of_not_le hroom, ?_⟩
    split
    · exact .inr rfl
    · exact .inl rfl

/-- A value that is handed out changes no allocator but its own: the re-key that it may ask for touches none (R308). -/
theorem State.rdAt_keyAlloc_nextCounter {s t : State} {k v : Nat} (h : s.nextCounter k = some (v, t)) (j : Nat) :
    t.rdAt SEC_KEYALLOC.NEXT j = (s.wrAt SEC_KEYALLOC.NEXT k (v + 1)).rdAt SEC_KEYALLOC.NEXT j := by
  obtain ⟨-, -, rfl | rfl⟩ := State.nextCounter_eq_some h
  · rfl
  · rw [State.rdAt_raise (windowOfKey_keyAlloc j) _ (by decide), State.rdAt_putAt_ne _ _ (rekey_key_ne_keyAlloc k j)]

/-- The allocator steps by one, within its 56 bits. -/
theorem State.rdAt_keyAlloc_nextCounter_self {s t : State} {k v : Nat} (h : s.nextCounter k = some (v, t)) :
    t.rdAt SEC_KEYALLOC.NEXT k = v + 1 := by
  obtain ⟨-, hlast, -⟩ := State.nextCounter_eq_some h
  have hfits : v + 1 < 2 ^ SEC_KEYALLOC.NEXT.width := by
    simp only [lastCounter, SEC_KEYALLOC.NEXT] at hlast ⊢
    omega
  rw [State.rdAt_keyAlloc_nextCounter h, State.rdAt_wrAt_self, Nat.mod_eq_of_lt hfits]

/-- Settles O24: the next value is read from the allocator, which has stepped past the last one. -/
theorem counterValuesRise : Obligations.CounterValuesRise := by
  intro s k v t _ h
  obtain ⟨hvalue, -, -⟩ := State.nextCounter_eq_some h
  have hstep : t.rdAt SEC_KEYALLOC.NEXT k = v + 1 := State.rdAt_keyAlloc_nextCounter_self h
  refine ⟨hvalue, hstep, fun j _ hne => ?_, fun w t' hnext => ?_⟩
  · rw [State.rdAt_keyAlloc_nextCounter h, State.rdAt_wrAt_ne s _ (keyAlloc_key_ne hne.symm)]
  · obtain ⟨hw, -, -⟩ := State.nextCounter_eq_some hnext
    omega

/-! #### What each command runs -/

section
variable (s : State)

theorem exec_secVeilcfgRotate (v : Nat) : exec (.secVeilcfgRotate v) s = execSecVeilcfgRotate v s := rfl

theorem exec_veilSweepPage : exec .veilSweepPage s = execVeilSweepPage s := rfl

theorem exec_rotationEnd (fs : Finds) : exec (.rotationEnd fs) s = execRotationEnd fs s := rfl

theorem exec_rewriteTrackerItem (dpn item : Nat) (f : MediaFind) :
    exec (.rewriteTrackerItem dpn item f) s = execRewriteTrackerItem dpn item f s := rfl

theorem exec_counterFetch (dpn : Nat) (finds : List (Nat × EntryFind)) (evicts spoilt : List (Nat × Nat × Nat)) :
    exec (.counterFetch dpn finds evicts spoilt) s = execCounterFetch dpn finds evicts spoilt s := rfl

theorem exec_secRegionctlEnable (v : Nat) : exec (.secRegionctlEnable v) s = execSecRegionctlEnable v s := rfl

theorem exec_rekeySweepPage (k : Nat) : exec (.rekeySweepPage k) s = execRekeySweepPage k s := rfl

theorem exec_keyidRetirement (k : Nat) (fs : Finds) : exec (.keyidRetirement k fs) s = execKeyidRetirement k fs s := rfl

theorem exec_breachRecoveryEnd (k : Nat) (record : Option Nat) :
    exec (.breachRecoveryEnd k record) s = execBreachRecoveryEnd k record s := rfl

theorem exec_secRngFail : exec .secRngFail s = execSecRngFail s := rfl

theorem exec_secPipePar (line : Nat) (again : Bool) : exec (.secPipePar line again) s = execSecPipePar line again s := rfl

end

/-! #### The veil (R291, R292) -/

/-- A write of SEC_VEILCFG with ROTATE set stores RATE and asks for a rotation (R316). -/
theorem execSecVeilcfgRotate_of_set {v : Nat} (hrotate : SEC_VEILCFG.ROTATE.set v = true) (s : State) :
    execSecVeilcfgRotate v s = .next (s.storeFields [SEC_VEILCFG.RATE] 0 v).startRotation.settle :=
  if_pos hrotate

section
variable {s : State} (hrotating : s.on SEC_VEILSTAT.ROTATING = true)
include hrotating

/-- The sweep takes the first page from its place on that is still under the old veil key (R291 step 2). -/
theorem execVeilSweepPage_of_next {p : Nat}
    (hnext : s.committedPages.find? (fun p => decide (s.sec.sweepAt ≤ p) && s.underOldKey p) = some p) :
    execVeilSweepPage s = .next ((s.rotatePage p).sweptTo p).settle := by
  simp only [execVeilSweepPage, hrotating, hnext, Bool.not_true, Bool.false_eq_true, if_false, State.done]

/-- The sweep ends when it has passed every page and none is left to come back to (R291 step 2). -/
theorem execVeilSweepPage_of_passed
    (hnext : s.committedPages.find? (fun p => decide (s.sec.sweepAt ≤ p) && s.underOldKey p) = none)
    (hback : s.sec.comeBack.find? (fun p => s.underOldKey p && (s.entry p).state != .inFlight && !s.tracked p) = none) :
    execVeilSweepPage s = .next (s.endPassOver.wr SEC_VEILSTAT.PCT 100).settle := by
  simp only [execVeilSweepPage, hrotating, hnext, hback, Bool.not_true, Bool.false_eq_true, if_false, State.done]

/-- The rotation ends once the sweep has ended and no page carries the old generation (R291 step 3). -/
theorem execRotationEnd_of_swept (hswept : s.sec.swept = true) (hnew : s.committedPages.any s.underOldKey = false) (fs : Finds) :
    execRotationEnd fs s = .next (s.endRotation fs).settle :=
  if_pos (by simp only [hrotating, hswept, hnew, Bool.and_self, Bool.not_false])

end

/-- A tracker rewrites an item of its page that is not done, on a channel that serves and that no panic holds back (R292). -/
theorem execRewriteTrackerItem_of_tracker {s : State} {dpn item c : Nat} {t : RewriteTracker}
    (htracker : s.sec.trackers.find? (fun t => t.dpn == dpn) = some t) (hchannel : s.locationChannel (s.entry dpn).loc = some c)
    (hserving : s.serving c = true) (hpanic : s.panicHolds masterService c = false) (hdone : t.done.has item = false)
    (hitem : (pageItems (s.entry dpn).loc).contains item = true) (f : MediaFind) :
    execRewriteTrackerItem dpn item f s = .next (s.rewriteItem t (s.entry dpn).loc dpn item f).settle := by
  simp only [execRewriteTrackerItem, htracker, hchannel, hserving, hpanic, hdone, hitem, Option.any_some, Bool.not_true,
    Bool.or_self, Bool.false_eq_true, if_false, State.done]

/-! #### Counters, regions and re-keys (R301, R307, R308) -/

/-- Once the cache has let its entries go, the path of a sealed page that can be reached is fetched and verified (R301). -/
theorem execCounterFetch_of_sealed {s u : State} {dpn : Nat} {evicts spoilt : List (Nat × Nat × Nat)}
    (hu : u = (s.spoilNodes spoilt).evictNodes evicts) (hkey : (u.entry dpn).keyid ≠ 0) (hreach : u.treeUnreachable dpn = false)
    (finds : List (Nat × EntryFind)) : execCounterFetch dpn finds evicts spoilt s =
      .next (u.verifyPath (u.entry dpn).keyid dpn finds (u.missing dpn)).settle := by
  subst hu
  exact if_neg (by simp [hkey, hreach])

/-- A region that passes its check is enabled at once, outside a MIRRORED pair (R307). -/
theorem State.askSeal_passed {s : State} {c : Nat} (hcheck : s.sealCheck c = 0) (hpair : s.pairState ≠ pairMirrored) :
    s.askSeal c = (some 0, s.enableRegion c) := by
  simp only [State.askSeal, hcheck, hpair, if_false]

/-- A write of SEC_REGIONCTL with ENABLE set stores CLAIM and asks for the region of that claim (R318). -/
theorem execSecRegionctlEnable_of_set {v : Nat} (henable : SEC_REGIONCTL.ENABLE.set v = true) (s : State) :
    execSecRegionctlEnable v s =
      .next ((s.storeFields [SEC_REGIONCTL.CLAIM] 0 v).askSeal (SEC_REGIONCTL.CLAIM.of v)).2.settle :=
  if_pos henable

section
variable {s : State} {k : Nat} (hrekey : s.onAt SEC_KEYSTAT.REKEY k = true) (hactive : s.rdAt SEC_KEYSTAT.STATE k = keyActive)
include hrekey hactive

/-- A re-key that is asked for and has no new KeyID starts (R308 step 1). -/
theorem execRekeySweepPage_of_asked (hnew : s.sec.rekeyTo.find k = none) :
    execRekeySweepPage k s = .next (s.startRekey k).settle := by
  simp only [execRekeySweepPage, hrekey, hactive, hnew, beq_self_eq_true, Bool.and_self, Bool.not_true, Bool.false_eq_true,
    if_false, State.done]

section
variable {new : Nat} (hnew : s.sec.rekeyTo.find k = some new)
include hnew

/-- The sweep gives its next page a leaf of the new KeyID (R308 step 2). -/
theorem execRekeySweepPage_of_next {t : State} {p : Nat} {ps : List Nat} {l : SealLeaf} (hqueue : s.rekeyQueue k = p :: ps)
    (hleaf : s.freshLeaf new = some (l, t)) : execRekeySweepPage k s = .next (t.rekeyPage k new p l).settle := by
  simp only [execRekeySweepPage, hrekey, hactive, hnew, hqueue, hleaf, beq_self_eq_true, Bool.and_self, Bool.not_true,
    Bool.false_eq_true, if_false, State.done]

/-- The sweep ends when no page names the old KeyID (R308 step 3). -/
theorem execRekeySweepPage_of_swept (hpages : s.keyPages k = []) (hqueue : s.rekeyQueue k = []) :
    execRekeySweepPage k s = .next (s.endRekey k).settle := by
  simp only [execRekeySweepPage, hrekey, hactive, hnew, hpages, hqueue, List.isEmpty_nil, beq_self_eq_true, Bool.and_self,
    Bool.not_true, Bool.false_eq_true, if_false, if_true, State.done]

end

end

/-! #### Retirement, recovery and faults (R306, R311, R314) -/

/-- A RETIRING KeyID that nothing names becomes FREE (R306). -/
theorem execKeyidRetirement_of_free {s : State} {k : Nat} (hfree : s.keyFree k = true) (fs : Finds) :
    execKeyidRetirement k fs s = .next (s.retireKey k fs).settle :=
  if_pos hfree

/-- The REINIT of a held breach record ends for the KeyID that the record names (R311). -/
theorem execBreachRecoveryEnd_of_reinit {s : State} {r : Nat} (hvalid : s.onAt SEC_BREACH.VALID r = true)
    (hreinit : s.rdAt SEC_BREACH.PROGRESS r = recoverReinit) (k : Nat) : execBreachRecoveryEnd k (some r) s =
      .next (s.endRecovery (s.rdAt SEC_BREACH.KEYID r) (some r) recoverReinit).settle := by
  simp only [execBreachRecoveryEnd, hvalid, hreinit, if_true, State.done]

/-- The second failure of an item loses its line (R314). -/
theorem execSecPipePar_again (line : Nat) (s : State) :
    execSecPipePar line true s = .next ((s.raise srcPipePar).loseStored line).settle := rfl

/-- After the first failure the item is redone, and only the source fires (R314). -/
theorem execSecPipePar_first (line : Nat) (s : State) : execSecPipePar line false s = .next (s.raise srcPipePar).settle := rfl

/-! #### Where each command completes -/

/-- Settles O36 (log entries 47 to 49 name the model's choices): sweeps, trackers and fetches act in the condition that their rule
asks for, and the region enable passes its check; a fault of the unit needs none. -/
theorem protectionCommands : Obligations.ProtectionCommands := by
  refine ⟨?rotate, ?sweep, ?sweepEnd, ?rotationEnd, ?rewrite, ?fetch, ?enable, ?rekeyStart, ?rekeyPage, ?rekeyEnd, ?retire,
    ?recovery, ?rng, ?parityAgain, ?parityFirst⟩
  case rotate =>
    intro s v hrotate
    rw [exec_secVeilcfgRotate, execSecVeilcfgRotate_of_set hrotate]
  case sweep =>
    intro s p hrotating hnext
    rw [exec_veilSweepPage, execVeilSweepPage_of_next hrotating hnext]
  case sweepEnd =>
    intro s hrotating hnext hback
    rw [exec_veilSweepPage, execVeilSweepPage_of_passed hrotating hnext hback]
  case rotationEnd =>
    intro s fs hrotating hswept hnew
    rw [exec_rotationEnd, execRotationEnd_of_swept hrotating hswept hnew]
  case rewrite =>
    intro s dpn item f t c htracker hchannel hserving hpanic hdone hitem
    rw [exec_rewriteTrackerItem, execRewriteTrackerItem_of_tracker htracker hchannel hserving hpanic hdone hitem]
  case fetch =>
    intro s u dpn finds evicts spoilt hu hkey hreach
    rw [exec_counterFetch, execCounterFetch_of_sealed hu hkey hreach]
  case enable =>
    rintro s v c henable rfl hcheck hpair
    rw [exec_secRegionctlEnable, execSecRegionctlEnable_of_set henable, State.askSeal_passed hcheck hpair]
  case rekeyStart =>
    intro s k hrekey hactive hnew
    rw [exec_rekeySweepPage, execRekeySweepPage_of_asked hrekey hactive hnew]
  case rekeyPage =>
    intro s t k new p l ps hrekey hactive hnew hqueue hleaf
    rw [exec_rekeySweepPage, execRekeySweepPage_of_next hrekey hactive hnew hqueue hleaf]
  case rekeyEnd =>
    intro s k new hrekey hactive hnew hpages hqueue
    rw [exec_rekeySweepPage, execRekeySweepPage_of_swept hrekey hactive hnew hpages hqueue]
  case retire =>
    intro s k fs hfree
    rw [exec_keyidRetirement, execKeyidRetirement_of_free hfree]
  case recovery =>
    intro s k r hvalid hreinit
    rw [exec_breachRecoveryEnd, execBreachRecoveryEnd_of_reinit hvalid hreinit]
  case rng =>
    intro s
    rw [exec_secRngFail, execSecRngFail, State.done]
  case parityAgain =>
    intro s line
    rw [exec_secPipePar, execSecPipePar_again]
  case parityFirst =>
    intro s line
    rw [exec_secPipePar, execSecPipePar_first]

end Sys2Proof.Machine

/-! ### The halo directory (R327, R328, R331, R333–R336, R345) -/

namespace Sys2Proof.Machine

/-- Settles O37 (log entries 21 and 50 name the model's choices): an answer, a conflict and the timer act where a tracker awaits them, the
background eviction where ways run short and its victim is free of waiting requests. -/
theorem haloCommands : Obligations.HaloCommands := by
  refine ⟨?answer, ?conflictAcked, ?conflictHeld, ?timer, ?hold, ?evict, ?fence, ?unfence, ?sweep, ?peaks⟩
  case answer =>
    intro s link ld line shared t hawaited
    change execBirsp link ld line shared s = _
    simp only [execBirsp, hawaited, State.done]
  case conflictAcked =>
    intro s link ld line t hawaited hnone
    change execBiconflict link ld line s = _
    simp only [execBiconflict, hawaited, hnone, State.done]
  case conflictHeld =>
    intro s link ld line t r hawaited hopen
    change execBiconflict link ld line s = _
    simp only [execBiconflict, hawaited, hopen, State.done]
  case timer =>
    intro s line t htracker
    change execTBiExpiry line s = _
    simp only [execTBiExpiry, htracker, State.done]
  case hold =>
    intro s line
    rfl
  case evict =>
    intro s t set k e hshort hfree hvictim hentry hwaits hevicted
    have hgo : ¬ (s.rd HAL_TIMING.FREEWAYS ≤ (s.freeDirWays set).length || !s.trackerFree) = true := by
      simp [hfree, hshort]
    change execBackgroundEviction set s = _
    rw [execBackgroundEviction, if_neg hgo]
    simp only [hvictim, hentry, hwaits, hevicted, List.isEmpty_nil, Bool.not_true, Bool.false_eq_true, if_false, State.done]
  case fence =>
    intro s mask
    rfl
  case unfence =>
    intro s mask
    rfl
  case sweep =>
    intro s n hsweep
    change execFenceSweepEnd n s = _
    rw [execFenceSweepEnd, if_pos hsweep, State.done]
  case peaks =>
    intro s
    rfl

end Sys2Proof.Machine

/-! ### Slices, doorbell pages and queues (R348, R350, R352–R355, R373–R377) -/

namespace Sys2Proof.Machine

/-! #### Slices -/

/-- A slice whose check passes is enabled (R348). -/
theorem State.askSlice_of_passes {s : State} {n : Nat} (hoff : s.onAt SLC_CTL.ENABLE n = false) (hcheck : s.sliceCheck n = 0) :
    s.askSlice n = (s.wrAt SLC_CTL.CHECK n 0).putAt SLC_CTL.ENABLE n true := by
  simp [State.askSlice, hoff, hcheck]

/-- A slice that is enabled and not in reset starts one (R373). -/
theorem State.askSliceReset_of_enabled {s : State} {n : Nat} (hon : s.onAt SLC_CTL.ENABLE n = true)
    (hreset : s.onAt SLC_STAT.RESETTING n = false) : s.askSliceReset n = s.startSliceReset n false :=
  if_neg (by simp [hon, hreset])

/-- An enabled slice other than slice 0 that nothing uses is removed (R374). -/
theorem State.askRemove_of_unused {s : State} {n : Nat} (hn : n ≠ 0) (hon : s.onAt SLC_CTL.ENABLE n = true)
    (hunused : s.sliceInUse n = false) : s.askRemove n = s.removeSlice n := by
  rw [State.askRemove, if_neg (by simp [hn, hon]), if_neg (by simp [hunused])]

/-! #### Doorbell pages -/

/-- A page whose check passes is owned by the slice that is named for it (R350). -/
theorem State.assignPage_of_passes {s : State} {page : Nat} (hcheck : s.assignCheck page = 0) :
    s.assignPage page =
      ((s.wrAt SLC_DBOWN.CHECK page 0).putAt SLC_DBOWN.OWNED page true).wrAt SLC_DBOWN.OWNER page (s.rdAt SLC_DBOWN.SLICE page) := by
  simp only [State.assignPage, hcheck, if_true]

/-- A page that no queue uses is freed (R350). -/
theorem State.freePage_of_idle {s : State} {page : Nat} (hidle : s.pageBusy page = false) :
    s.freePage page = ((s.wrAt SLC_DBOWN.CHECK page 0).putAt SLC_DBOWN.OWNED page false).wrAt SLC_DBOWN.OWNER page 0 := by
  simp only [State.freePage, hidle, Bool.false_eq_true, if_false]

/-! #### Queues -/

/-- A disabled queue whose check passes opens (R352). -/
theorem State.askQueue_of_passes {s : State} {q : Nat} {bme msix : Bool} (hoff : s.onAt QUE_CTL.ENABLE q = false)
    (hstate : s.rdAt QUE_STAT.STATE q = queDisabled) (hcheck : s.enableCheck q bme msix = 0) :
    s.askQueue q bme msix = (s.wrAt QUE_CTL.CHECK q 0).openQueue q := by
  simp [State.askQueue, hoff, hstate, hcheck]

/-- A queue that is enabled or in error stops (R376). -/
theorem State.disableQueue_of_running {s : State} {q : Nat}
    (hstate : s.rdAt QUE_STAT.STATE q = queEnabled ∨ s.rdAt QUE_STAT.STATE q = queError) : s.disableQueue q = s.stopQueue q :=
  if_pos hstate

/-- A resize whose check passes is pending until the queue drains (R375). -/
theorem State.askResize_of_passes {s : State} {q : Nat} {bme msix : Bool} (hcheck : s.resizeCheck q bme msix = 0) :
    s.askResize q bme msix = (s.wrAt QUE_CTL.CHECK q 0).putAt QUE_CTL.RESIZE q true := by
  simp only [State.askResize, hcheck, if_true]

/-! #### Where each command completes -/

/-- Settles O38 (log entry 51 names the model's choice): each control acts where its check passes, each end where what it ends is under
way, and a descriptor moves where its queue may fetch or has one done. -/
theorem slicesAndQueues : Obligations.SlicesAndQueues := by
  refine ⟨?enable, ?reset, ?resetEnd, ?remove, ?removeEnd, ?assign, ?free, ?queueEnable, ?queueDisable, ?queueDisabled, ?resize,
    ?switch, ?parity, ?sqTail, ?cqHead, ?fetch, ?fetchFails, ?completion, ?completionLate, ?completionDma⟩
  case enable =>
    rintro s p n rfl hoff hcheck
    change execSlcEnable p s = _
    rw [execSlcEnable, State.askSlice_of_passes hoff hcheck, State.done]
  case reset =>
    rintro s p n rfl hon hreset
    change execSlcReset p s = _
    rw [execSlcReset, State.askSliceReset_of_enabled hon hreset, State.done]
  case resetEnd =>
    intro s n hreset hstays
    change execSliceResetEnd n s = _
    rw [execSliceResetEnd, if_pos (by simp [hreset, hstays]), State.done]
  case remove =>
    rintro s p n rfl hn hon hunused
    change execSlcRemove p s = _
    rw [execSlcRemove, State.askRemove_of_unused hn hon hunused, State.done]
  case removeEnd =>
    intro s n hremoving
    change execSliceRemoveEnd n s = _
    rw [execSliceRemoveEnd, if_pos hremoving, State.done]
  case assign =>
    rintro s u p v page rfl rfl hcheck
    change execDbAssign p v s = _
    rw [execDbAssign, State.assignPage_of_passes hcheck, State.done]
  case free =>
    rintro s u p v page rfl rfl hidle
    change execDbFree p v s = _
    rw [execDbFree, State.freePage_of_idle hidle, State.done]
  case queueEnable =>
    rintro s p q bme msix rfl hoff hstate hcheck
    change execQueCtlEnable p bme msix s = _
    rw [execQueCtlEnable, State.askQueue_of_passes hoff hstate hcheck, State.done]
  case queueDisable =>
    rintro s p q rfl hstate
    change execQueCtlDisable p s = _
    rw [execQueCtlDisable, State.disableQueue_of_running hstate, State.done]
  case queueDisabled =>
    intro s q hstopping hempty
    change execQueueDisabled q s = _
    rw [execQueueDisabled, if_pos ⟨hstopping, hempty⟩, State.done]
  case resize =>
    rintro s p q bme msix rfl hcheck
    change execQueCtlResize p bme msix s = _
    rw [execQueCtlResize, State.askResize_of_passes hcheck, State.done]
  case switch =>
    intro s q hresize hstate hdrained
    change execResizeSwitch q s = _
    rw [execResizeSwitch, if_pos (by simp [hresize, hstate, hdrained]), State.done]
  case parity => exact fun _ _ => rfl
  case sqTail => exact fun _ _ _ _ => rfl
  case cqHead => exact fun _ _ _ _ => rfl
  case fetch =>
    intro s q ws hfetch
    change execDescriptorFetch q (some ws) s = _
    rw [execDescriptorFetch, if_neg (by simp [hfetch]), State.done]
  case fetchFails =>
    intro s q hfetch
    change execDescriptorFetch q none s = _
    rw [execDescriptorFetch, if_neg (by simp [hfetch]), State.done]
  case completion =>
    intro s q d hdone hgen hwritable
    change execDescriptorCompletion q s = _
    simp only [execDescriptorCompletion, hdone, if_neg (not_not.2 hgen), if_neg hwritable, State.done]
  case completionLate =>
    intro s q d hdone hgen
    change execDescriptorCompletion q s = _
    simp only [execDescriptorCompletion, hdone, if_pos hgen, State.done]
  case completionDma =>
    intro s q hstate
    change execCmplDma q s = _
    rw [execCmplDma, if_neg hstate, State.done]

end Sys2Proof.Machine

/-! ### The regulator (R387, R388, R390, R392, R396) -/

namespace Sys2Proof.Machine

/-- A profile whose check passes is applied (R396). -/
theorem State.askProfile_of_passes {s : State} (hcheck : s.profileCheck = 0) :
    s.askProfile =
      ({ s.wr QOS_PROFILE.CHECK 0 with qos := { s.qos with applying := true } } : State).put QOS_PROFILE.ENABLE true := by
  simp only [State.askProfile, hcheck, if_true, State.wr_qos]

/-- Settles O40 (log entry 46 names the model's choice): the window and the priorities have no guard, and a profile is applied where its
check passes. -/
theorem regulatorCommands : Obligations.RegulatorCommands := by
  refine ⟨?window, ?priorities, ?profile⟩
  case window => exact fun _ => rfl
  case priorities => exact fun _ => rfl
  case profile =>
    intro s hcheck
    change execQosProfileEnable s = _
    rw [execQosProfileEnable, State.askProfile_of_passes hcheck, State.done]

end Sys2Proof.Machine

/-! ### The Contrail link (R406–R410, R414, R418–R421, R423, R424, R426–R428, R430) -/

namespace Sys2Proof.Machine

/-! #### What CON_CTL asks for (R406, R430) -/

theorem State.askLinkOn_of_off {s : State} (h : s.on CON_CTL.LINKEN = false) :
    s.askLinkOn = (s.put CON_CTL.LINKEN true).startLink := if_neg (by simp [h])

theorem State.askLinkOff_of_on {s : State} (h : s.on CON_CTL.LINKEN = true) :
    s.askLinkOff = (s.put CON_CTL.LINKEN false).conDropTo conOff downLinken := if_pos h

theorem State.askRetrain_of_up {s : State} (h : s.linkUp = true) : s.askRetrain = s.conRetrainNow := if_pos h

theorem State.askLinkDown_of_ne {s : State} (hoff : s.rd CON_STAT.STATE ≠ conOff) (hdown : s.rd CON_STAT.STATE ≠ conDown) :
    s.askLinkDown = s.conDropTo conDown downSoftware := if_neg (not_or.2 ⟨hoff, hdown⟩)

/-! #### Training runs in the order of its steps (R407) -/

/-- A step of the training is due: the link trains or retrains, and the step follows the last one. -/
def State.trainingDue (s : State) (t : ConStep) : Prop :=
  (s.rd CON_STAT.STATE = conTraining ∨ s.rd CON_STAT.STATE = conRetrain) ∧ stepNumber t = max 1 s.con.trainStep + 1

theorem State.trainingDue_iff (s : State) (t : ConStep) : s.trainingDue t ↔
    ¬ ((s.rd CON_STAT.STATE ≠ conTraining ∧ s.rd CON_STAT.STATE ≠ conRetrain) ∨ stepNumber t ≠ max 1 s.con.trainStep + 1) := by
  rw [State.trainingDue, not_or, not_and_or, not_not, not_not, not_not]

theorem execContrailTrainingStep_marker {s : State} {rx tx : List Nat} (h : s.trainingDue (.marker rx tx)) :
    execContrailTrainingStep (.marker rx tx) s =
      (({ s with con := { s.con with trainStep := 3 } } : State).keepBundles (keptBundles rx (s.rd CON_STAT.RXSPARE))
        (keptBundles tx (s.rd CON_STAT.TXSPARE))).done := if_neg ((s.trainingDue_iff _).1 h)

theorem execContrailTrainingStep_init {s : State} {h : RxHead} (hdue : s.trainingDue (.init h)) :
    execContrailTrainingStep (.init h) s =
      (({ s with con := { s.con with trainStep := 6 } } : State).takeInit h (s.rd CON_STAT.STATE == conRetrain)).done :=
  if_neg ((s.trainingDue_iff _).1 hdue)

/-! #### Where each command completes -/

/-- Settles O41 (log entry 53 names the model's choices): each command finds the link in the state that its rule names, and each timer
finds what it waits for. -/
theorem contrailLink : Obligations.ContrailLink := by
  refine ⟨?linken, ?linkenOff, ?retrain, ?down, ?readd, ?readdEnd, ?retry, ?marker, ?initTraining, ?initRetrain, ?codeword,
    ?uncorrectable, ?replay, ?retrainTimeout, ?keyingTimeout, ?ackTimer, ?mwClose, ?heartbeat, ?heartbeatLost, ?swapRequest,
    ?lockLoss, ?swapRepeat, ?dropRequest⟩
  case linken =>
    intro s hoff
    change execConCtlLinken s = _
    rw [execConCtlLinken, State.askLinkOn_of_off hoff, State.done]
  case linkenOff =>
    intro s hon
    change execConCtlLinkenOff s = _
    rw [execConCtlLinkenOff, State.askLinkOff_of_on hon, State.done]
  case retrain =>
    intro s hup
    change execConCtlRetrain s = _
    rw [execConCtlRetrain, State.askRetrain_of_up hup, State.done]
  case down =>
    intro s hoff hdown
    change execConCtlDown s = _
    rw [execConCtlDown, State.askLinkDown_of_ne hoff hdown, State.done]
  case readd => exact fun _ _ _ => rfl
  case readdEnd =>
    intro s b hup hreadding
    change execBundleReaddEnd b s = _
    rw [execBundleReaddEnd, if_pos (by simp [hup, hreadding]), State.done]
  case retry =>
    intro s hdown hlinken hpower
    change execTrainingRetry s = _
    rw [execTrainingRetry, if_pos (by simp [hdown, hlinken, hpower]), State.done]
  case marker =>
    rintro s - rx tx hstate hstep
    change execContrailTrainingStep _ s = _
    rw [execContrailTrainingStep_marker ⟨hstate, by simp [stepNumber, hstep]⟩, State.done]
  case initTraining =>
    intro s h hstate hstep
    change execContrailTrainingStep _ s = _
    rw [execContrailTrainingStep_init ⟨.inl hstate, by simp [stepNumber, hstep]⟩, hstate, State.done]
    rfl
  case initRetrain =>
    intro s h hstate hstep
    change execContrailTrainingStep _ s = _
    rw [execContrailTrainingStep_init ⟨.inr hstate, by simp [stepNumber, hstep]⟩, hstate, State.done]
    rfl
  case codeword =>
    intro s b n x hup hcorrected
    change execCodeword b x s = _
    rw [execCodeword, if_neg (by simp [hup])]
    simp only [hcorrected, State.done]
  case uncorrectable =>
    intro s b x hup hcorrected
    change execCodeword b x s = _
    rw [execCodeword, if_neg (by simp [hup])]
    simp only [hcorrected, State.done]
  case replay =>
    intro s hup hunacked
    change execReplayTimeout s = _
    rw [execReplayTimeout, if_pos (by simp [hup, hunacked]), State.done]
  case retrainTimeout =>
    intro s hstate
    change execRetrainTimeout s = _
    rw [execRetrainTimeout, if_pos hstate, State.done]
  case keyingTimeout =>
    intro s hstate
    change execKeyingTimeout s = _
    rw [execKeyingTimeout, if_pos hstate, State.done]
  case ackTimer =>
    intro s hup haccepted
    change execAckTimer s = _
    rw [execAckTimer, if_pos (by simp [hup, haccepted]), State.done]
  case mwClose => exact fun _ => rfl
  case heartbeat =>
    intro s hup hgood
    change execHbSend s = _
    rw [execHbSend, if_pos (by simp [hup, hgood]), State.done]
  case heartbeatLost =>
    intro s hup
    change execConHbLost s = _
    rw [execConHbLost, if_pos hup, State.done]
  case swapRequest =>
    intro s b lane locked hup hbundle hspare
    change execLaneSwapRequest b lane locked s = _
    rw [execLaneSwapRequest, if_pos (by simp [hup, hbundle, hspare]), State.done]
  case lockLoss =>
    intro s b lane locked hup hbundle hspare
    change execLaneLockLoss b lane locked s = _
    rw [execLaneLockLoss, if_pos (by simp [hup, hbundle]), if_neg (by simp [hspare]), State.done]
  case swapRepeat =>
    intro s b lane hup hasked
    change execSwapRequestRepeat b s = _
    simp only [execSwapRequestRepeat, hasked, if_pos hup, State.done]
  case dropRequest =>
    intro s b hup hbundle
    change execBundleDropRequest b s = _
    rw [execBundleDropRequest, if_pos (by simp [hup, hbundle]), State.done]

end Sys2Proof.Machine

/-! ### Contrail packets (R412–R415, R418, R423–R425, R427, R428, R452, R453) -/

namespace Sys2Proof.Machine

/-- A LANE packet for a bundle in use drops it while another bundle remains (R424). -/
theorem execLane_drop {s : State} {h : RxHead} {b : Nat} (hup : s.linkUp = true)
    (hbundle : bit ((s.takeHead h).rd CON_STAT.BUNDLES) b = true) (hother : (s.takeHead h).rd CON_STAT.BUNDLES ≠ 2 ^ b) (lane : Nat) :
    execLane h b lane true s = ((s.takeHead h).dropTxBundle b).done := by
  rw [execLane, if_neg (by simp [hup]), if_neg (by simp [hbundle]), if_pos rfl, if_neg hother]

/-- A LANE packet for a bundle in use moves a lane to the spare that is still free (R423). -/
theorem execLane_swap {s : State} {h : RxHead} {b : Nat} (hup : s.linkUp = true)
    (hbundle : bit ((s.takeHead h).rd CON_STAT.BUNDLES) b = true)
    (hspare : spareOf ((s.takeHead h).rd CON_STAT.TXSPARE) b = 0xF) (lane : Nat) :
    execLane h b lane false s = ((s.takeHead h).useSpare b lane).done := by
  rw [execLane, if_neg (by simp [hup]), if_neg (by simp [hbundle]), if_neg Bool.false_ne_true, if_pos hspare]

/-- Settles O42 (log entries 52 and 54 name the model's choices): a sequenced packet is accepted in sequence and handled in the state
that the acceptance leaves; the others find the link up. -/
theorem contrailPackets : Obligations.ContrailPackets := by
  refine ⟨?mw, ?rsw, ?stream, ?keyx, ?ack, ?heartbeat, ?laneDrop, ?laneSwap, ?reserved, ?keyRenew, ?keyRenewAck, ?renewal⟩
  case mw =>
    intro s t h jseq lines hseq
    change execMw h jseq lines s = _
    simp only [execMw, hseq, State.done]
  case rsw =>
    intro s t h lines hseq
    change execRsw h lines s = _
    simp only [execRsw, hseq, State.done]
  case stream =>
    intro s t h n offset bytes hseq hreceive hdraining hoffset
    change execStream h n offset bytes s = _
    simp only [execStream, hseq]
    rw [if_neg (by simp [hreceive, hdraining, hoffset]), State.done]
  case keyx =>
    intro s t h reply hkeying hseq
    change execKeyx h reply true s = _
    rw [execKeyx, if_neg (not_not.2 hkeying)]
    simp only [hseq, if_true, State.done]
  case ack =>
    intro s h hup
    change execAck h s = _
    rw [execAck, if_pos (by simp [hup]), State.done]
  case heartbeat =>
    intro s h ts peer epoch hup
    change execHb h ts peer epoch s = _
    rw [execHb, if_neg (by simp [hup]), State.done]
  case laneDrop =>
    intro s h b lane hup hbundle hother
    change execLane h b lane true s = _
    rw [execLane_drop hup hbundle hother, State.done]
  case laneSwap =>
    intro s h b lane hup hbundle hspare
    change execLane h b lane false s = _
    rw [execLane_swap hup hbundle hspare, State.done]
  case reserved => exact fun _ _ _ => rfl
  case keyRenew =>
    intro s t h phase dir hseq
    change execKeyrenew h phase dir s = _
    simp only [execKeyrenew, hseq, State.done]
  case keyRenewAck =>
    intro s t h phase dir hseq hrenewing hphase
    change execKeyrenewack h phase dir s = _
    simp only [execKeyrenewack, hseq]
    rw [if_pos (by simp [hrenewing, hphase]), State.done]
  case renewal =>
    intro s hup hidle hcount
    change execKeyRenewal s = _
    rw [execKeyRenewal, if_pos (by rw [hup, hidle, decide_eq_true hcount]; rfl), State.done]

end Sys2Proof.Machine

/-! ### CTRL messages of the pair (R412, R413, R440–R444, R447, R451–R454, R458, R460) -/

namespace Sys2Proof.Machine

/-- A mirrored member that waits for no claim operation of its own runs its partner's at once (R443). -/
theorem State.takeClaimOp_of_mirrored {s : State} (hpair : s.pairState = pairMirrored) (hfwd : s.pair.fwd = []) (o : ClaimOp) :
    s.takeClaimOp o = s.answerClaimOp o := by
  rw [State.takeClaimOp, if_neg (by simp [hpair]), if_neg (by simp [hfwd])]

/-- Settles O44 (log entries 55 and 57 to 59 name the model's choices): each message is accepted in sequence, and what it finds on the
member gives its effect. -/
theorem pairMessages : Obligations.PairMessages := by
  refine ⟨?mirack, ?stripeDone, ?stripeAck, ?unback, ?fetch, ?pstat, ?params, ?slicemap, ?giveback, ?claimdef, ?claimrel, ?result⟩
  case mirack =>
    intro s u h jseq hseq
    change execMirack h jseq s = _
    rw [execMirack, State.onCtrl_of_accepted _ hseq, State.done]
  case stripeDone =>
    intro s u h k hseq
    change execStripeDone h k s = _
    rw [execStripeDone, State.onCtrl_of_accepted _ hseq, State.done]
  case stripeAck =>
    intro s u h k hseq hsent
    change execStripeAck h k s = _
    rw [execStripeAck, State.onCtrl_of_accepted _ hseq, if_pos hsent, State.done]
  case unback =>
    intro s u h dpn n hseq
    change execUnback h dpn n s = _
    rw [execUnback, State.onCtrl_of_accepted _ hseq, State.done]
  case fetch =>
    intro s u h line hseq hfenced
    change execFetch h line s = _
    rw [execFetch, State.onCtrl_of_accepted _ hseq, if_neg hfenced, State.done]
  case pstat =>
    intro s u h outbits journal epoch hseq
    change execPstat h outbits journal epoch s = _
    rw [execPstat, State.onCtrl_of_accepted _ hseq, State.done]
  case params =>
    intro s u h p hseq
    change execParams h p s = _
    rw [execParams, State.onCtrl_of_accepted _ hseq, State.done]
  case slicemap =>
    intro s u h piece owners slices hseq
    change execSlicemap h piece owners slices s = _
    rw [execSlicemap, State.onCtrl_of_accepted _ hseq, State.done]
  case giveback =>
    intro s u h epoch hseq hpair
    change execGiveback h epoch s = _
    rw [execGiveback, State.onCtrl_of_accepted _ hseq, if_pos hpair, State.done]
  case claimdef =>
    intro s u h c base size attr hseq hpair hfwd
    change execClaimdef h c base size attr s = _
    rw [execClaimdef, State.onCtrl_of_accepted _ hseq, State.takeClaimOp_of_mirrored hpair hfwd, State.done]
  case claimrel =>
    intro s u h c hseq hpair hfwd
    change execClaimrel h c s = _
    rw [execClaimrel, State.onCtrl_of_accepted _ hseq, State.takeClaimOp_of_mirrored hpair hfwd, State.done]
  case result =>
    intro s u h op code f hseq hforward
    change execResult h op code s = _
    rw [execResult, State.onCtrl_of_accepted _ hseq, State.done]
    simp only [hforward]

end Sys2Proof.Machine

/-! ### The engines (R471, R474–R486, R490, R491) -/

namespace Sys2Proof.Machine

/-! #### World calls (R482, R484) -/

/-- A world call made at S runs its handler at H, in the state that the entry leaves, and returns the handler's status and result. -/
theorem State.worldCall_of_calls {s t : State} {n : Nat} {w : CoreWork} {status result : Nat} {handler : State → Nat × Nat × State}
    (hcalls : s.calls n w = true) (hhandler : handler ((s.doWork n w).enterCall n) = (status, result, t)) :
    s.worldCall n w handler = t.leaveCall n status result := by
  simp only [State.calls, Bool.and_eq_true, bne_iff_ne, beq_iff_eq] at hcalls
  obtain ⟨⟨hruns, hcore⟩, hlevel⟩ := hcalls
  rw [State.worldCall, if_neg (by simp [hruns, hcore])]
  simp only [hlevel, hhandler]

/-! #### Walks (R474, R477) -/

/-- The guard of a walk is passed by a core that runs below H. -/
theorem State.walks_guard {s : State} {n : Nat} (h : s.walks n = true) :
    ¬ (!s.coreRuns n || n == steward || (s.core n).level == .hypervisor || (s.core n).stop.isSome) = true := by
  simp only [State.walks, Bool.and_eq_true, bne_iff_ne, Option.isNone_iff_eq_none] at h
  obtain ⟨⟨⟨hruns, hcore⟩, hlevel⟩, hstop⟩ := h
  simp [hruns, hcore, hlevel, hstop]

/-- A core enters H from below. -/
theorem entry_guard {s : State} {n : Nat} (hruns : s.coreRuns n = true) (hcore : n ≠ steward)
    (hlevel : (s.core n).level ≠ .hypervisor) :
    ¬ (!s.coreRuns n || n == steward || (s.core n).level == .hypervisor) = true := by
  simp [hruns, hcore, hlevel]

/-! #### Where each command completes -/

/-- Settles O46 (log entries 60 to 63 name the model's choices): each core runs at the level that its command needs, and the case that
the hypotheses name gives the effect. -/
theorem engineCommands : Obligations.EngineCommands := by
  refine ⟨?dpaWrite, ?dpaRead, ?tlbHit, ?walkLeaf, ?memUe, ?spdm, ?veilRotate, ?fwCheck, ?svnCommit, ?coreRestart, ?worldReturn,
    ?interrupt, ?stage2, ?mapUpdate, ?coreInval, ?invalidate, ?invalidationEnd, ?pet, ?watchdog, ?lockstep, ?hold⟩
  case dpaWrite =>
    intro s n line c data mask fs hruns hclaim hsealed
    change execEngineDpaAccess n line (some (data, mask)) fs s = _
    rw [execEngineDpaAccess, if_neg (by simp [hruns])]
    simp only [hclaim, hsealed, Bool.false_eq_true, if_false, State.done]
  case dpaRead =>
    intro s n line c fs l t hruns hclaim hsealed hread
    change execEngineDpaAccess n line none fs s = _
    rw [execEngineDpaAccess, if_neg (by simp [hruns])]
    simp only [hclaim, hsealed, Bool.false_eq_true, if_false, hread, State.done]
  case tlbHit =>
    rintro s u n w va stag a handler finds fs e rfl hwalks hva hwindow rfl hhit
    change execStage1Walk n w va a handler finds fs s = _
    rw [execStage1Walk, if_neg (State.walks_guard hwalks), if_neg (Nat.not_le.2 hva)]
    simp only [hwindow, hhit, State.done]
  case walkLeaf =>
    rintro s u v t n w va root stag a handler finds fs d rfl hwalks hva hwindow rfl rfl hmiss hmiss2 rfl hwalk
    change execStage1Walk n w va a handler finds fs s = _
    rw [execStage1Walk, if_neg (State.walks_guard hwalks), if_neg (Nat.not_le.2 hva)]
    simp only [hwindow, hmiss, hmiss2, hwalk, State.done]
  case memUe => exact fun _ _ => rfl
  case spdm =>
    intro s n w length hcalls
    change execSpdmMsg n w length s = _
    rw [execSpdmMsg, State.worldCall_of_calls hcalls rfl, State.done]
  case veilRotate =>
    intro s n w hcalls hidle
    change execVeilRotateCall n w s = _
    rw [execVeilRotateCall, State.worldCall_of_calls hcalls (if_neg (by simp [hidle])), State.done]
  case fwCheck =>
    intro s n w x type hcalls htype hpasses
    have hknown : ¬ (type = 0 ∨ 3 < type) := by omega
    change execFwCheck n w x type s = _
    rw [execFwCheck, State.worldCall_of_calls hcalls ((if_neg hknown).trans (if_pos hpasses)), State.done]
  case svnCommit =>
    intro s n w type hcalls
    change execSvnCommitCall n w type s = _
    rw [execSvnCommitCall]
    exact congrArg State.done (State.worldCall_of_calls hcalls rfl)
  case coreRestart =>
    intro s n w target hcalls htarget hhalted
    change execCoreRestart n w target s = _
    rw [execCoreRestart, State.worldCall_of_calls hcalls (if_pos ⟨htarget, hhalted⟩), State.done]
  case worldReturn =>
    intro s n hruns hcore hlevel
    change execWorldReturn n s = _
    rw [execWorldReturn, if_neg (by simp [hruns, hcore, hlevel]), State.done]
  case interrupt =>
    rintro s u n w rfl hruns hcore hlevel
    change execAsyncEntry n w .interrupt s = _
    rw [execAsyncEntry, if_neg (entry_guard hruns hcore hlevel), State.done]
  case stage2 =>
    rintro s u n w ipa cause rfl hruns hcore hlevel
    change execAsyncEntry n w (.stage2 ipa cause) s = _
    rw [execAsyncEntry, if_neg (entry_guard hruns hcore hlevel), State.done]
  case mapUpdate =>
    rintro s u n w rfl hruns hstop hlevel hfree
    change execMupGo n w s = _
    rw [execMupGo, if_neg (by simp [hruns, hstop]), if_neg hlevel, if_neg (by simp [hfree]), State.done]
  case coreInval =>
    rintro s u n w v rfl hruns hcore hstop hlevel hscope
    change execCoreInval n w v s = _
    rw [execCoreInval, if_neg (by simp [hruns, hcore, hstop]), if_neg hlevel, if_neg (fun ⟨hall, hs⟩ => hscope hall hs), State.done]
  case invalidate =>
    intro s mask hidle
    change execEngTlbinv mask s = _
    rw [execEngTlbinv, State.startInvalidation, if_pos hidle, State.done]
  case invalidationEnd =>
    intro s n hrunning
    change execTlbInvalidationEnd n s = _
    rw [execTlbInvalidationEnd, if_neg (by simp [hrunning]), State.done]
  case pet => exact fun _ => rfl
  case watchdog => exact fun s hawake => if_neg hawake
  case lockstep => exact fun _ => rfl
  case hold => exact fun _ _ => rfl

end Sys2Proof.Machine

/-! ### Start-up and resets (R488, R500, R502, R505, R508, R513–R519) -/

namespace Sys2Proof.Machine

/-! #### Firmware images (R488) -/

/-- The image of slot A is chosen where nothing is wrong with it. -/
theorem State.chooseImage_of_passes {s : State} {a : Image} {type : Nat} (h : s.imageCause a type = 0) (b : Image) :
    s.chooseImage a b type = (some (false, a), s) := if_pos h

/-- No image is chosen where both slots are rejected. -/
theorem State.chooseImage_none {s : State} {a b : Image} {type : Nat} (ha : s.imageCause a type ≠ 0)
    (hb : (s.rejectImage false (s.imageCause a type)).imageCause b type ≠ 0) :
    s.chooseImage a b type = (none, (s.rejectImage false (s.imageCause a type)).rejectImage true
      ((s.rejectImage false (s.imageCause a type)).imageCause b type)) := by
  rw [State.chooseImage, if_neg ha]
  exact if_neg hb

/-! #### The device enable (R518, R519) -/

theorem State.askDevEnable_of_passes {s : State} (hoff : s.on SYS_CTL.DEV_ENABLE = false) (hcheck : s.devEnableCheck = 0) :
    s.askDevEnable = (s.wr SYS_CHECK.CODE 0).enableDevice := by
  rw [State.askDevEnable, if_neg (by simp [hoff])]
  simp only [hcheck, if_true]

theorem State.askDevDisable_of_unused {s : State} (hon : s.on SYS_CTL.DEV_ENABLE = true) (hunused : s.inUse = false) :
    s.askDevDisable = ((s.put SYS_CTL.DEV_ENABLE false).putAt SLC_CTL.ENABLE 0 false).wr SYS_CHECK.CODE 0 := by
  rw [State.askDevDisable, if_neg (by simp [hon]), if_neg (by simp [hunused])]

/-! #### Resets that software asks for (R514–R516) -/

theorem State.askWarm_of_passes {s : State} (h : s.warmCheck = 0) : s.askWarm = s.startWarm := if_pos h

/-- A block reset of a block that the table names starts outside a warm reset, where Zenith holds none of its domains. -/
theorem State.askBlockReset_of_free {s : State} {who : Asker} {block index k : Nat} {b : ResetBlock} {ds : List Nat}
    (hblock : blockNamed block index = some (b, k, ds)) (hwarm : s.on RST_CTL.WARM = false) (hheld : ds.find? s.held = none) :
    s.askBlockReset who block index = ((s.wr RST_CTL.CHECK 0).put RST_CTL.GO true).addBlockReset b k := by
  simp only [State.askBlockReset, hblock, hwarm, hheld, Bool.false_eq_true, if_false]

/-! #### Where each command completes -/

/-- Settles O47 (log entries 64 to 67 name the model's choices): each step of the start finds the one before it done, each request passes
its check, and a fault of a rail or a clock resets the device in any state. -/
theorem startUpAndResets : Obligations.StartUpAndResets := by
  refine ⟨?powerGood, ?rootPll, ?selfTestPasses, ?selfTestFails, ?calibration, ?bundlePll, ?hostPll, ?zenith, ?zenithHalts, ?horizon,
    ?aonLost, ?supplyLost, ?refclk, ?dramPll, ?hostPllLost, ?thermtrip, ?devEnable, ?devDisable, ?cold, ?warm, ?warmCut, ?warmFails,
    ?warmEnds, ?blockReset, ?blockResetEnd⟩
  case powerGood =>
    rintro s straps t hoff htripped htest rfl
    change execPowerGood straps none s = _
    rw [execPowerGood, if_neg (by simp [hoff, htripped]), if_neg (by simp [htest]), State.done]
  case rootPll =>
    intro s hpowered
    change execRootPllLock s = _
    rw [execRootPllLock, if_pos hpowered, State.done]
  case selfTestPasses =>
    intro s hroot htested hfailed
    change execSelfTestEnd true s = _
    rw [execSelfTestEnd, if_neg (by simp [hroot, htested, hfailed]), if_pos rfl, State.done]
  case selfTestFails =>
    intro s hroot htested hfailed
    change execSelfTestEnd false s = _
    rw [execSelfTestEnd, if_neg (by simp [hroot, htested, hfailed]), if_neg Bool.false_ne_true, State.done]
  case calibration =>
    intro s htested
    change execHostReceiverCalibration s = _
    rw [execHostReceiverCalibration, if_pos htested, State.done]
  case bundlePll =>
    intro s b hpowered
    change execSerdesPllLock false b s = _
    rw [execSerdesPllLock, if_neg (by simp [hpowered]), if_neg Bool.false_ne_true, State.done]
  case hostPll =>
    intro s k hpowered
    change execSerdesPllLock true k s = _
    rw [execSerdesPllLock, if_neg (by simp [hpowered]), if_pos rfl, State.done]
  case zenith =>
    intro s a b htested hdown hstage hpasses
    change execZenithVerifyEnd a b s = _
    rw [execZenithVerifyEnd, if_neg (by simp [htested, hdown, hstage])]
    simp only [State.chooseImage_of_passes hpasses, State.done]
  case zenithHalts =>
    rintro s a b t htested hdown hstage rfl ha hb
    change execZenithVerifyEnd a b s = _
    rw [execZenithVerifyEnd, if_neg (by simp [htested, hdown, hstage])]
    simp only [State.chooseImage_none ha hb, State.done]
  case horizon =>
    intro s a b drift hup hdown hboth hpasses
    change execHorizonVerifyEnd a b drift s = _
    rw [execHorizonVerifyEnd, if_neg (by simp [hup, hdown, hboth])]
    simp only [State.chooseImage_of_passes hpasses, State.done]
  case aonLost => exact fun _ _ => rfl
  case supplyLost => exact fun _ _ => rfl
  case refclk => exact fun _ => rfl
  case dramPll => exact fun _ _ _ _ => rfl
  case hostPllLost => exact fun _ _ _ _ => rfl
  case thermtrip => exact fun _ => rfl
  case devEnable =>
    intro s hoff hcheck
    change execDevEnableCheck s = _
    rw [execDevEnableCheck, State.askDevEnable_of_passes hoff hcheck, State.done]
  case devDisable =>
    intro s hon hunused
    change execDevDisable s = _
    rw [execDevDisable, State.askDevDisable_of_unused hon hunused, State.done]
  case cold => exact fun _ => rfl
  case warm =>
    intro s hcheck
    change execRstCtlWarm s = _
    rw [execRstCtlWarm, State.askWarm_of_passes hcheck, State.done]
  case warmCut =>
    intro s fs ok hstep
    change execWarmResetStep fs ok s = _
    simp only [execWarmResetStep, hstep]
  case warmFails =>
    intro s fs hstep
    change execWarmResetStep fs false s = _
    simp only [execWarmResetStep, hstep, Bool.false_eq_true, if_false, State.done]
  case warmEnds =>
    intro s fs ok hstep
    change execWarmResetStep fs ok s = _
    simp only [execWarmResetStep, hstep, State.done]
  case blockReset =>
    intro s p b k ds hblock hwarm hheld
    change execRstCtlGo p s = _
    rw [execRstCtlGo, State.askBlockReset_of_free hblock hwarm hheld, State.done]
  case blockResetEnd =>
    intro s b k d hrunning
    change execBlockResetEnd b k d s = _
    rw [execBlockResetEnd, if_neg (by simp [hrunning]), State.done]

end Sys2Proof.Machine

/-! ### The fault unit's registers (R570, R571, R573, R574, R577–R579, R588) -/

namespace Sys2Proof.Machine

/-- The FIFO is popped by a read through any view but BAR2's (R588). -/
theorem execFltFifoRead_pops {s t : State} {p : Path} {x : Nat × Nat} (hp : p ≠ .bar2) (hpop : s.popFault = (some x, t)) :
    execFltFifoRead p s = (t.send (.regData (fifoWord x))).done := by
  rw [execFltFifoRead, if_neg hp]
  simp only [hpop]

/-- Settles O55 (log entries 63 and 74 name the model's choices): a register of the fault unit acts on the copy that exists, a recorded
event while Horizon runs, and HBEAT toggles while what it stands for is good. -/
theorem faultRegisters : Obligations.FaultRegisters := by
  refine ⟨?sticky, ?chipReset, ?fifo, ?fifoBar2, ?heartbeat, ?event, ?reactions, ?interrupt⟩
  case sticky =>
    intro s k v hk
    change execFltStickyClear k v s = _
    rw [execFltStickyClear, State.clearSticky, if_neg (Nat.not_lt.2 hk), State.done]
  case chipReset =>
    intro s src hsrc
    change execChiprst s = _
    simp only [execChiprst, hsrc, State.done]
  case fifo =>
    intro s p x t hp hpop
    change execFltFifoRead p s = _
    rw [execFltFifoRead_pops hp hpop, State.done]
  case fifoBar2 => exact fun _ => rfl
  case heartbeat =>
    intro s hgood
    have hbeats : (s.heartGood || (s.chip.petted && s.rd PWR_STAT.STATE == 3)) = true := by simpa [pwrNight] using hgood
    change execHbeatToggle s = _
    rw [execHbeatToggle, if_pos hbeats, State.done]
  case event =>
    intro s e hup
    change execEventRecord e s = _
    rw [execEventRecord, if_pos hup, State.done]
  case reactions => exact fun _ _ _ => rfl
  case interrupt => exact fun _ _ => rfl

end Sys2Proof.Machine

/-! ### Standard commands (R528–R532, R541, R542) -/

namespace Sys2Proof.Machine

/-- Settles O50 (log entries 71 to 73 and 75 name the model's choices): the interface takes each command up, and the command's own checks
pass. -/
theorem mailboxCommands : Obligations.MailboxCommands := by
  refine ⟨?identify, ?statusRunning, ?statusEnded, ?getLimit, ?setLimit, ?abort, ?getEvents, ?clearEvents, ?clearAll, ?getPolicy,
    ?setPolicy, ?fwInfo, ?transferFw, ?activateFw, ?getTimestamp, ?setTimestamp, ?supportedLogs, ?getLog, ?unsupported, ?timeout,
    ?sanitizeEnd, ?eraseEnd⟩
  case identify =>
    intro s cci htaken
    change execCciIdentify cci s = _
    rw [execCciIdentify, State.standard_taken _ htaken, State.done]
  case statusRunning =>
    intro s u cci n b hexists hready hrunning hpercent
    change execBackgroundOperationStatus cci s = _
    rw [execBackgroundOperationStatus, State.received_taken _ hexists hready rfl, State.done]
    simp only [hrunning, hpercent]
  case statusEnded =>
    intro s cci code op hexists hready hidle hlast
    change execBackgroundOperationStatus cci s = _
    rw [execBackgroundOperationStatus, State.received_taken _ hexists hready rfl, State.done]
    simp only [hidle, hlast]
  case getLimit =>
    intro s cci htaken
    change execGetResponseMessageLimit cci s = _
    rw [execGetResponseMessageLimit, State.standard_taken _ htaken, State.done]
  case setLimit =>
    intro s cci e htaken hrange
    change execSetResponseMessageLimit cci e s = _
    rw [execSetResponseMessageLimit, State.standard_taken _ htaken, if_pos hrange, State.done]
  case abort =>
    intro s cci b hexists hready hrunning hop
    change execRequestAbortBackgroundOperation cci s = _
    rw [execRequestAbortBackgroundOperation, State.received_taken _ hexists hready rfl, State.done]
    simp only [hrunning, hop]
  case getEvents =>
    intro s cci log htaken hlog
    change execGetEventRecords cci log s = _
    rw [execGetEventRecords, State.standard_taken _ htaken, if_neg (Nat.not_lt.2 hlog), State.done]
  case clearEvents =>
    intro s cci log hs htaken hlog hfirst hsome
    change execClearEventRecords cci log false hs s = _
    rw [execClearEventRecords, State.standard_taken _ htaken, if_neg (Nat.not_lt.2 hlog), if_neg Bool.false_ne_true,
      if_neg (not_not.2 hfirst), if_neg (mt List.isEmpty_iff.1 hsome), State.done]
  case clearAll =>
    intro s cci log hs htaken hlog hlost
    change execClearEventRecords cci log true hs s = _
    rw [execClearEventRecords, State.standard_taken _ htaken, if_neg (Nat.not_lt.2 hlog), if_pos rfl, if_neg hlost, State.done]
  case getPolicy =>
    intro s cci htaken
    change execGetEventInterruptPolicy cci s = _
    rw [execGetEventInterruptPolicy, State.standard_taken _ htaken, State.done]
  case setPolicy =>
    rintro s cci policy p htaken rfl hmodes
    change execSetEventInterruptPolicy cci policy s = _
    rw [execSetEventInterruptPolicy, State.standard_taken _ htaken, if_neg (ne_true_of_eq_false hmodes), State.done]
  case fwInfo =>
    intro s cci htaken
    change execGetFwInfo cci s = _
    rw [execGetFwInfo, State.standard_taken _ htaken, State.done]
  case transferFw =>
    intro s cci action slot pkg htaken hrun hoperands hfree
    have hvalid : ¬ (4 < action ∨ slot = 0 ∨ 2 < slot) := by omega
    change execTransferFw cci action slot pkg s = _
    rw [execTransferFw, State.standard_taken _ htaken, State.inBackground_taken _ hrun, if_neg hvalid, if_neg (by simp [hfree]),
      State.done]
  case activateFw =>
    intro s cci htaken
    change execActivateFw cci 1 1 s = _
    rw [execActivateFw, State.standard_taken _ htaken, if_pos ⟨rfl, rfl⟩, State.done]
  case getTimestamp =>
    intro s cci htaken
    change execGetTimestamp cci s = _
    rw [execGetTimestamp, State.standard_taken _ htaken, State.done]
  case setTimestamp =>
    intro s cci t htaken
    change execSetTimestamp cci t s = _
    rw [execSetTimestamp, State.standard_taken _ htaken, State.done]
  case supportedLogs =>
    intro s cci htaken
    change execGetSupportedLogs cci s = _
    rw [execGetSupportedLogs, State.standard_taken _ htaken, State.done]
  case getLog =>
    intro s cci htaken
    change execGetLog cci true s = _
    rw [execGetLog, State.standard_taken _ htaken, if_pos rfl, State.done]
  case unsupported =>
    intro s cci htaken
    simp only [State.takesMail, Bool.and_eq_true] at htaken
    obtain ⟨⟨⟨hexists, hready⟩, hmgmt⟩, -⟩ := htaken
    change execUnsupportedCommand cci s = _
    rw [execUnsupportedCommand, State.received_taken _ hexists hready hmgmt, State.done]
  case timeout =>
    intro s cci w hwaiting
    change execCommandTimeout cci s = _
    simp only [execCommandTimeout, hwaiting, if_true, State.done]
  case sanitizeEnd =>
    intro s cci b ok hrunning hop
    change execBackgroundOperationEnd cci ok s = _
    simp only [execBackgroundOperationEnd, hrunning, hop, State.done]
  case eraseEnd =>
    intro s cci b ok hrunning hop
    change execBackgroundOperationEnd cci ok s = _
    simp only [execBackgroundOperationEnd, hrunning, hop, State.done]

end Sys2Proof.Machine

/-! ### Power states (R547–R550, R553) -/

namespace Sys2Proof.Machine

/-- Settles O53 (log entry 68 names the model's choice): each state is entered where its conditions hold and left from where the device
stands, and a link leaves L0 from L0. -/
theorem powerStates : Obligations.PowerStates := by
  refine ⟨?haze, ?hazeExit, ?hazeExitLate, ?overcast, ?overcastWake, ?linkL1, ?linkL2⟩
  case haze =>
    intro s hclear hon hidle hquiet hnight
    change execHazeEntry s = _
    rw [execHazeEntry, if_pos (by simp [hclear, hon, hidle, hquiet, hnight]), State.done]
  case hazeExit =>
    intro s hstate
    change execHazeExit false s = _
    rw [execHazeExit, if_pos hstate]
    rfl
  case hazeExitLate =>
    intro s hstate
    change execHazeExit true s = _
    rw [execHazeExit, if_pos hstate]
    rfl
  case overcast =>
    intro s hstate hon hidle hquiet hlinks hcon hsweep hnight
    change execOvercastEntry s = _
    rw [execOvercastEntry, if_pos (by simp [hstate, hon, hidle, hquiet, hlinks, hcon, hsweep, hnight]), State.done]
  case overcastWake =>
    intro s source hstate hselected
    change execOvercastWake source s = _
    rw [execOvercastWake, if_pos ⟨hstate, hselected⟩, State.done]
  case linkL1 =>
    intro s n hl0
    change execLinkLowPowerEntry n .l1 s = _
    rw [execLinkLowPowerEntry, if_pos hl0, State.done]
  case linkL2 =>
    intro s n hl0
    change execLinkLowPowerEntry n .l2 s = _
    rw [execLinkLowPowerEntry, if_pos hl0, State.done]

end Sys2Proof.Machine

/-! ### NIGHT and domains (R551, R552, R554–R556, R558, R560) -/

namespace Sys2Proof.Machine

theorem State.on_wr_ne (s : State) {f g : Fld} (v : Nat) (h : f.key 0 ≠ g.key 0) : (s.wr f v).on g = s.on g :=
  congrArg (· == 1) (s.rd_wr_ne v h)

theorem State.askNight_of_passes {s : State} (h : s.nightCheck = 0) :
    s.askNight = ((s.wr PWR_CTL.CHECK 0).put PWR_STAT.PENDING true).put PWR_CTL.NIGHT true := by
  simp only [State.askNight, h, if_true]

/-- A device in HAZE or OVERCAST that waits for no NIGHT goes to CLEAR when it is asked to (R551). -/
theorem State.askClear_of_light {s : State} (hstate : s.rd PWR_STAT.STATE = pwrOvercast ∨ s.rd PWR_STAT.STATE = pwrHaze)
    (hpending : s.on PWR_STAT.PENDING = false) : s.askClear = (s.wr PWR_CTL.CHECK 0).toClear wakeClear := by
  have hkept : (s.wr PWR_CTL.CHECK 0).rd PWR_STAT.STATE = s.rd PWR_STAT.STATE := s.rd_wr_ne 0 (by decide)
  have hwaits : (s.wr PWR_CTL.CHECK 0).on PWR_STAT.PENDING = false := (s.on_wr_ne 0 (by decide)).trans hpending
  have hnight : s.rd PWR_STAT.STATE ≠ pwrNight := by rcases hstate with h | h <;> rw [h] <;> decide
  have hclear : s.rd PWR_STAT.STATE ≠ pwrClear := by rcases hstate with h | h <;> rw [h] <;> decide
  simp only [State.askClear, hkept, if_neg hnight, hwaits, Bool.false_eq_true, if_false, if_neg hclear]

/-- A gate or off request that nothing refuses is due until the domain is free of accesses (R556, R558). -/
theorem State.askDomain_accepts {s : State} {who : Asker} {d a : Nat} (hd : d ≤ 32) (ha : a = actGate ∨ a = actOff)
    (hfree : s.refuserOf who d a = 0) :
    s.askDomain who d a = (0, 0, { s with pow := { s.pow with gates := s.pow.gates.put d a } }) := by
  have hvalid : ¬ (32 < d ∨ 2 < a) := by rcases ha with rfl | rfl <;> simp [actGate, actOff, hd]
  have hdown : a ≠ actOn := by rcases ha with rfl | rfl <;> decide
  rw [State.askDomain, if_neg hvalid, if_neg (not_not.2 hfree), if_neg hdown]

/-- Settles O54 (log entries 68 and 69 name the model's choices): NIGHT and its steps act in the step that the device is in, a request
passes its check, and a domain changes where a change is due. -/
theorem nightAndDomains : Obligations.NightAndDomains := by
  refine ⟨?night, ?clear, ?entry, ?stops, ?flush, ?fall, ?wake, ?wakeDrops, ?exitClear, ?exitFails, ?domainWake, ?domainWakeEnd,
    ?domainRequest, ?gate, ?supply, ?guardLift⟩
  case night =>
    intro s hcheck
    change execPwrCtlNight s = _
    rw [execPwrCtlNight, State.askNight_of_passes hcheck, State.done]
  case clear =>
    intro s hstate hpending
    change execPwrCtlClear s = _
    rw [execPwrCtlClear, State.askClear_of_light hstate hpending, State.done]
  case entry =>
    intro s hpending hnight hasleep
    change execNightEntry s = _
    rw [execNightEntry, if_pos (by simp [hpending, hnight, hasleep]), State.done]
  case stops =>
    intro s fs hstep
    change execNightEntryStep fs s = _
    simp only [execNightEntryStep, hstep, State.done]
  case flush =>
    intro s fs hstep
    change execNightEntryStep fs s = _
    simp only [execNightEntryStep, hstep, State.done]
  case fall =>
    intro s fs hstep
    change execNightEntryStep fs s = _
    simp only [execNightEntryStep, hstep, State.done]
  case wake =>
    intro s source hentered hnight hleaving hselected
    change execNightWake source s = _
    rw [execNightWake, if_neg (not_not.2 hentered), if_pos ⟨hnight, hleaving, hselected⟩, State.done]
  case wakeDrops =>
    intro s hentering
    change execNightWake .link s = _
    rw [execNightWake, if_pos hentering, if_pos rfl, State.done]
  case exitClear =>
    intro s ok hstep
    change execNightExitStep ok s = _
    simp only [execNightExitStep, hstep, State.done]
  case exitFails =>
    intro s hstep
    change execNightExitStep false s = _
    simp only [execNightExitStep, hstep, Bool.false_eq_true, if_false, State.done]
  case domainWake =>
    intro s d hclass hstate
    change execDomainWake d s = _
    rw [execDomainWake, if_pos (by simpa [hstate] using hclass), State.done]
  case domainWakeEnd =>
    intro s d hwaking hstate
    change execDomainWakeEnd d false s = _
    rw [execDomainWakeEnd, if_pos hwaking]
    simp only [beq_eq_false_iff_ne.2 hstate, Bool.false_eq_true, if_false, State.done]
  case domainRequest =>
    rintro s p d a rfl rfl hd ha hfree
    change execPwrDomctlGo p s = _
    rw [execPwrDomctlGo, State.askNamedDomain, State.askDomain_accepts hd ha hfree]
    rfl
  case gate =>
    intro s d a hdue
    change execDomainGateEffect d s = _
    simp only [execDomainGateEffect, hdue, State.done]
  case supply =>
    intro s rail hrail
    change execSupplyWarning rail s = _
    rw [execSupplyWarning, if_neg (Nat.not_lt.2 hrail), State.done]
  case guardLift =>
    intro s hguarded
    change execGuardLift s = _
    rw [execGuardLift, if_neg (by simp [hguarded]), State.done]

end Sys2Proof.Machine

/-! ### Counters and telemetry (R592, R597, R599–R608) -/

namespace Sys2Proof.Machine

theorem State.startSweepRead_of_idle {s : State} (h : s.tel.sweep = none) : s.startSweepRead = s.openSweep := by
  simp only [State.startSweepRead, h]

/-- A sweep that is asked for while one runs is counted as skipped (R599). -/
theorem State.startSweepRead_of_running {s : State} (h : s.tel.sweep ≠ none) :
    s.startSweepRead = s.inc TEL_SWEEPSTAT.SKIPPED := by
  obtain ⟨x, hx⟩ := Option.ne_none_iff_exists'.1 h
  simp only [State.startSweepRead, hx]

/-- Settles O56 (log entries 85 to 88 name the model's choices): a sweep opens where none runs, and a counter, a sensor, a lane and the
throttle act where they exist and their conditions hold. -/
theorem telemetryCommands : Obligations.TelemetryCommands := by
  refine ⟨?start, ?skipped, ?period, ?sweepEnd, ?clear, ?load, ?reader, ?sensorFails, ?readings, ?release, ?rails, ?eye, ?held,
    ?occupancy⟩
  case start =>
    intro s hidle
    change execTelCtlStart s = _
    rw [execTelCtlStart, State.startSweepRead_of_idle hidle, State.done]
  case skipped =>
    intro s hrunning
    change execTelCtlStart s = _
    rw [execTelCtlStart, State.startSweepRead_of_running hrunning, State.done]
  case period =>
    intro s hperiod
    change execSweepPeriod s = _
    rw [execSweepPeriod, if_neg hperiod, State.done]
  case sweepEnd =>
    intro s ts span values failed hsweep
    change execSweepEnd span failed s = _
    simp only [execSweepEnd, hsweep, State.done]
  case clear => exact fun _ => rfl
  case load =>
    intro s p v hcounter
    change execTelCntvalWrite p v s = _
    rw [execTelCntvalWrite, if_neg (Nat.not_lt.2 hcounter), State.done]
  case reader => exact fun _ _ => rfl
  case sensorFails =>
    intro s n hn
    change execThermSensor n s = _
    rw [execThermSensor, if_pos hn, State.done]
  case readings => exact fun _ _ => rfl
  case release =>
    intro s hthrottle hvalid hcool
    change execThrottleRelease s = _
    rw [execThrottleRelease, if_pos (by simp [hthrottle, hvalid, hcool]), State.done]
  case rails => exact fun _ _ => rfl
  case eye =>
    rintro s contrail unit lane height width k rfl hlane hreports
    change execEyeEstimate contrail unit lane height width false s = _
    rw [execEyeEstimate, if_neg (by simp [hlane]), if_neg (by simp [hreports]), if_neg (by simp), State.done]
  case held =>
    intro s unit lane height width hlane hreports
    change execEyeEstimate false unit lane height width true s = _
    rw [execEyeEstimate, if_neg (by simp [hlane]), if_neg (by simp [hreports]), if_pos (by simp), State.done]
  case occupancy => exact fun _ => rfl

end Sys2Proof.Machine

/-! ### Kamcon: device and resources (R533–R537) -/

namespace Sys2Proof.Machine

/-- A Kamcon command that Horizon takes up does not wait behind another one. -/
theorem State.arrive_taken {s : State} {cci len : Nat} {input : List Byte} {fields : List (Nat × Nat × Nat)} (i : Instr)
    (run : State → State) (h : s.takesKamcon cci input len fields = true) : s.arrive cci i run = run s := by
  simp only [State.takesKamcon, State.takesMail, Bool.and_eq_true, Bool.not_eq_true', Option.isNone_iff_eq_none] at h
  obtain ⟨⟨⟨⟨⟨⟨hexists, hready⟩, hmgmt⟩, herasing⟩, hwaiting⟩, -⟩, -⟩ := h
  rw [State.arrive, State.received_taken _ hexists hready hmgmt, hwaiting, herasing]
  rfl

/-- A Kamcon command that Horizon takes up has the length and the bits of its payload. -/
theorem State.framed_taken {s : State} {cci len : Nat} {input : List Byte} {fields : List (Nat × Nat × Nat)} (blen : Nat)
    (run : State → State) (h : s.takesKamcon cci input len fields = true) : s.framed cci input len blen fields run = run s := by
  simp only [State.takesKamcon, Bool.and_eq_true, Bool.not_eq_true', decide_eq_true_eq] at h
  obtain ⟨⟨-, hlength⟩, hbits⟩ := h
  rw [State.framed, if_neg (not_not.2 hlength), if_neg (ne_true_of_eq_false hbits)]

/-- A list of items that are all in range has none out of range. -/
theorem any_itemOk_of_all {items : List (Nat × Nat)} (h : (items.all fun x => itemOk x.1 x.2) = true) :
    ¬ (items.any fun x => !itemOk x.1 x.2) = true := by
  simp only [List.all_eq_true, List.any_eq_true, Bool.not_eq_true', not_exists, not_and, Bool.not_eq_false] at h ⊢
  exact h

/-- Settles O48 (log entries 79 and 80 name the model's choices): Horizon takes each command up, and what it answers is the result of the
same control that the command's register runs. -/
theorem kamconResources : Obligations.KamconResources := by
  refine ⟨?identify, ?read, ?readSelected, ?devEnable, ?configRead, ?configWrite, ?resetCold, ?resetWarm, ?resetBlock, ?decoders,
    ?claimCommit, ?claimRelease, ?claimGrant, ?sliceEnable, ?sliceSet, ?sliceReset, ?sliceRemove, ?pageAssign, ?pageFree, ?policy,
    ?claimMode, ?arm, ?armWaits, ?profile⟩
  case identify =>
    intro s cci input htaken
    change execIdentify cci input s = _
    rw [execIdentify, State.kamcon_taken _ _ _ htaken, State.done]
  case read =>
    rintro s cci input n htaken rfl hcount halign hplain
    change execRegRead cci input s = _
    rw [execRegRead, State.kamcon_taken _ _ _ htaken, if_neg (by simp [hcount, halign]), if_pos hplain, State.done]
  case readSelected =>
    rintro s cci input n r htaken rfl hcount halign hselects hregister
    change execRegRead cci input s = _
    rw [execRegRead, State.kamcon_taken _ _ _ htaken, if_neg (by simp [hcount, halign]), if_neg hselects, State.done]
    simp only [hregister]
  case devEnable =>
    intro s cci input htaken hwant hoff hcheck hcode
    change execDevEnable cci input s = _
    rw [execDevEnable, State.kamcon_taken _ _ _ htaken, State.done]
    simp only [hwant, hoff, BEq.rfl, Bool.true_beq, Bool.false_eq_true, if_false, if_true,
      State.askDevEnable_of_passes hoff hcheck, hcode]
  case configRead =>
    intro s cci input htaken
    change execConfigRead cci input s = _
    rw [execConfigRead, State.kamcon_taken _ _ _ htaken, State.done]
  case configWrite =>
    rintro s cci input n htaken hrun rfl hcount hitems hfree
    have hlength : ¬ input.length < 8 := by
      have hlen : input.length = 8 + 8 * field input 0 1 := by
        simp only [State.takesKamcon, Bool.and_eq_true, decide_eq_true_eq] at htaken
        exact htaken.1.2
      omega
    have hcounted : ¬ (field input 0 1 = 0 ∨ 64 < field input 0 1) := by omega
    change execConfigWrite cci input s = _
    rw [execConfigWrite, State.arrive_taken _ _ htaken, if_neg hlength, if_neg hcounted, State.framed_taken _ _ htaken,
      State.inBackground_taken _ hrun, if_neg (by simp [hfree]), if_neg (any_itemOk_of_all hitems), State.done]
  case resetCold =>
    intro s cci input htaken hkind
    change execReset cci input s = _
    rw [execReset, State.kamcon_taken _ _ _ htaken, State.done]
    simp only [hkind]
  case resetWarm =>
    intro s cci input htaken hkind hcheck hwarm
    change execReset cci input s = _
    rw [execReset, State.kamcon_taken _ _ _ htaken, State.done]
    simp only [hkind, State.askWarm_of_passes hcheck, hwarm, if_true]
  case resetBlock =>
    rintro s cci input t block index htaken hkind rfl rfl rfl hcheck
    change execReset cci input s = _
    rw [execReset, State.kamcon_taken _ _ _ htaken, State.done]
    simp only [hkind, hcheck, ne_eq, not_true_eq_false, if_false]
  case decoders =>
    intro s cci input htaken hcheck
    change execDecoderAlloc cci input s = _
    rw [execDecoderAlloc, State.kamcon_taken _ _ _ htaken, if_neg (not_not.2 hcheck), State.done]
  case claimCommit =>
    rintro s cci input c t htaken rfl hfree ht hlocal hcheck
    change execClaimCommit cci input s = _
    rw [execClaimCommit, State.kamcon_taken _ _ _ htaken, State.done]
    simp only [hfree, ← ht, hlocal, hcheck, Bool.false_eq_true, if_false]
  case claimRelease =>
    rintro s cci input c t htaken rfl hcommitted rfl hlocal hcheck
    change execClaimRelease cci input s = _
    rw [execClaimRelease, State.kamcon_taken _ _ _ htaken, State.done]
    simp only [hcommitted, hlocal, hcheck, Bool.not_true, Bool.false_eq_true, if_false]
  case claimGrant =>
    rintro s cci input c t htaken rfl hcommitted rfl hcheck
    change execClaimGrant cci input s = _
    rw [execClaimGrant, State.kamcon_taken _ _ _ htaken, State.done]
    simp only [hcommitted, hcheck, Bool.not_true, Bool.false_eq_true, if_false]
  case sliceEnable =>
    rintro s cci input n t htaken rfl hoff rfl hcheck
    change execSliceEnable cci input s = _
    rw [execSliceEnable, State.kamcon_taken _ _ _ htaken, State.done]
    simp only [hoff, hcheck, Bool.false_eq_true, if_false, if_true]
  case sliceSet =>
    rintro s cci input n htaken rfl hon
    change execSliceSet cci input s = _
    rw [execSliceSet, State.kamcon_taken _ _ _ htaken, if_neg (by simp [hon]), State.done]
  case sliceReset =>
    rintro s cci input n htaken rfl hon hreset
    change execSliceReset cci input s = _
    rw [execSliceReset, State.kamcon_taken _ _ _ htaken, if_neg (by simp [hon]), if_neg (by simp [hreset]), State.done]
  case sliceRemove =>
    rintro s cci input n t htaken rfl hn hon rfl hcheck
    change execSliceRemove cci input s = _
    rw [execSliceRemove, State.kamcon_taken _ _ _ htaken, if_neg hn, if_neg (by simp [hon]), State.done]
    simp only [hcheck]
  case pageAssign =>
    rintro s cci input page t htaken rfl rfl hkind hcheck
    change execDoorbell cci input s = _
    rw [execDoorbell, State.kamcon_taken _ _ _ htaken, State.done]
    simp only [if_pos hkind, hcheck]
  case pageFree =>
    rintro s cci input page t htaken rfl rfl hkind hcheck
    change execDoorbell cci input s = _
    rw [execDoorbell, State.kamcon_taken _ _ _ htaken, State.done]
    simp only [hkind, one_ne_zero, if_false, hcheck]
  case policy =>
    rintro s cci input t htaken rfl hcheck
    change execPlcPolicy cci input s = _
    rw [execPlcPolicy, State.kamcon_taken _ _ _ htaken, State.done]
    simp only [hcheck]
  case claimMode =>
    rintro s cci input c htaken rfl hmode
    change execPlcClaimMode cci input s = _
    rw [execPlcClaimMode, State.kamcon_taken _ _ _ htaken, if_neg hmode, State.done]
  case arm =>
    rintro s cci input n t htaken rfl hpasses rfl hlocal hcheck
    change execSnapArm cci input s = _
    rw [execSnapArm, State.kamcon_taken _ _ _ htaken, State.done]
    simp only [State.askArm_of_passes hpasses, hlocal, hcheck, Bool.false_eq_true, if_false]
  case armWaits =>
    rintro s cci input n t htaken rfl hpasses rfl hwaits
    change execSnapArm cci input s = _
    rw [execSnapArm, State.kamcon_taken _ _ _ htaken, State.done]
    simp only [State.askArm_of_passes hpasses, hwaits, if_true]
  case profile =>
    rintro s cci input t htaken rfl hcheck
    change execQosProfile cci input s = _
    rw [execQosProfile, State.kamcon_taken _ _ _ htaken, State.done]
    simp only [hcheck]

end Sys2Proof.Machine

/-! ### Kamcon: channels, RAS, pair and power (R538–R540) -/

namespace Sys2Proof.Machine

/-- Settles O49 (log entries 36, 79 and 80 name the model's choices): Horizon takes each command up, the control that it runs passes its
check, and the answer carries what the control left. -/
theorem kamconService : Obligations.KamconService := by
  refine ⟨?channels, ?release, ?spare, ?poisonList, ?poisonClear, ?scrubRange, ?scrubResult, ?policySet, ?policyGet, ?repairs,
    ?repairAdd, ?repairRun, ?salvage, ?pairEnable, ?pairLeave, ?takeover, ?giveback, ?fence, ?discard, ?link, ?clear, ?night, ?wake,
    ?domain, ?fwSlots, ?svnCommit, ?salvageFree⟩
  case channels =>
    intro s cci input t htaken hidle ht hcheck
    change execDmcCommit cci input s = _
    rw [execDmcCommit, State.kamcon_taken _ _ _ htaken, if_neg (by simp [hidle]), State.done]
    simp only [← ht, hcheck]
  case release =>
    rintro s cci input c htaken rfl hfrozen hkept
    change execChannelRelease cci input s = _
    rw [execChannelRelease, State.kamcon_taken _ _ _ htaken, if_neg (by simp [hfrozen]), State.done]
    simp only [hkept, if_true]
  case spare =>
    rintro s cci input c rank htaken rfl rfl hready hrank
    have hpasses : ¬ (s.rdAt DMC_CHSTAT.SPARESTAT (field input 0 1) ≠ spareReady ∨
        s.spareRank (field input 0 1) ≤ field input 1 1) := by simp [hready, hrank]
    change execSpareStart cci input s = _
    rw [execSpareStart, State.kamcon_taken _ _ _ htaken, if_neg hpasses, State.done]
  case poisonList =>
    intro s cci input htaken halign
    change execPoisonList cci input s = _
    rw [execPoisonList, State.kamcon_taken _ _ _ htaken, if_neg (not_not.2 halign), State.done]
  case poisonClear =>
    rintro s cci input dpa c htaken rfl halign hclaim hlisted hkept
    change execPoisonClear cci input s = _
    rw [execPoisonClear, State.kamcon_taken _ _ _ htaken, if_neg (by simp [halign, hclaim]), if_neg (by simp [hlisted, hkept]),
      State.done]
  case scrubRange =>
    rintro s cci input f c base len htaken hrun rfl rfl rfl rfl hrange
    change execKamconScrubRange cci input s = _
    rw [execKamconScrubRange, State.kamcon_taken _ _ _ htaken, State.inBackground_taken _ hrun, if_neg (by simp [hrange]), State.done]
  case scrubResult =>
    intro s cci input x htaken hsummary
    change execScrubResult cci input s = _
    rw [execScrubResult, State.kamcon_taken _ _ _ htaken, State.done]
    simp only [hsummary]
  case policySet =>
    intro s cci input htaken hset hhours
    have hpasses : ¬ (field input 1 1 = 0 ∨ 168 < field input 1 1 ∨ field input 2 1 = 0 ∨ field input 1 1 ≤ field input 2 1) := by
      omega
    change execScrubPolicy cci input s = _
    rw [execScrubPolicy, State.kamcon_taken _ _ _ htaken, if_neg (by simp [hset]), if_neg hpasses, State.done]
  case policyGet =>
    intro s cci input htaken hget
    change execScrubPolicy cci input s = _
    rw [execScrubPolicy, State.kamcon_taken _ _ _ htaken, if_pos (by simp [hget]), State.done]
  case repairs =>
    intro s cci input htaken hkind
    change execRepairList cci input s = _
    rw [execRepairList, State.kamcon_taken _ _ _ htaken, State.done]
    simp only [hkind]
  case repairAdd =>
    rintro s cci input r htaken hkind rfl hinside hroom hnew
    have hpasses : firstCode [(!s.rowInside (s.rowAt input 1 8), 0x02), (decide (32 ≤ s.med.repairList.length), 0x6D),
        (s.med.repairList.any fun x => x.same (s.rowAt input 1 8), 0x03)] = 0 := by
      simp [firstCode, hinside, hroom, hnew]
    change execRepairList cci input s = _
    rw [execRepairList, State.kamcon_taken _ _ _ htaken, State.done]
    simp only [hkind, hpasses, ne_eq, not_true_eq_false, if_false]
  case repairRun =>
    rintro s cci input t htaken hidle rfl hbusy
    change execPprRun cci input s = _
    rw [execPprRun, State.kamcon_taken _ _ _ htaken, if_neg (by simp [hidle]), State.done]
    simp only [hbusy, if_true]
  case salvage =>
    intro s cci input x htaken hrecord
    change execSalvageRead cci input s = _
    rw [execSalvageRead, State.kamcon_taken _ _ _ htaken, State.done]
    simp only [hrecord]
  case pairEnable =>
    intro s cci input htaken hkind henabling
    change execPairEnable cci input s = _
    rw [execPairEnable, State.kamcon_taken _ _ _ htaken, State.done]
    simp only [hkind, henabling, if_true]
  case pairLeave =>
    rintro s cci input t htaken hkind rfl hpair
    change execPairEnable cci input s = _
    rw [execPairEnable, State.kamcon_taken _ _ _ htaken, State.done]
    simp only [hkind, zero_ne_one, if_false, if_pos (Or.inr hpair)]
  case takeover =>
    rintro s cci input t htaken hpasses rfl hcheck
    change execPairTakeover cci input s = _
    rw [execPairTakeover, State.kamcon_taken _ _ _ htaken, State.takeOver_of_passes hpasses, State.done]
    simp only [hcheck]
  case giveback =>
    rintro s cci input t htaken hpasses rfl hcheck
    change execPairGiveback cci input s = _
    rw [execPairGiveback, State.kamcon_taken _ _ _ htaken, State.giveBack_of_passes hpasses, State.done]
    simp only [hcheck]
  case fence =>
    intro s cci input htaken halone hfenced
    change execPairFence cci input s = _
    rw [execPairFence, State.kamcon_taken _ _ _ htaken, if_neg (not_or.2 ⟨halone, hfenced⟩), State.askFence_of_ne halone hfenced,
      State.done]
  case discard =>
    rintro s cci input t htaken hrun hpair rfl
    change execPairDiscard cci input s = _
    rw [execPairDiscard, State.kamcon_taken _ _ _ htaken, State.inBackground_taken _ hrun, if_neg (not_not.2 hpair), State.done]
  case link =>
    intro s cci input htaken
    change execLinkCtl cci input s = _
    rw [execLinkCtl, State.kamcon_taken _ _ _ htaken, State.done]
  case clear =>
    intro s cci input htaken hkind
    change execPowerRequest cci input s = _
    rw [execPowerRequest, State.kamcon_taken _ _ _ htaken, State.done]
    simp only [hkind]
  case night =>
    rintro s cci input t htaken hkind - rfl hcheck
    change execPowerRequest cci input s = _
    rw [execPowerRequest, State.kamcon_taken _ _ _ htaken, State.done]
    simp only [hkind, hcheck]
  case wake =>
    intro s cci input htaken hsome
    change execWakeCfg cci input s = _
    rw [execWakeCfg, State.kamcon_taken _ _ _ htaken, if_neg hsome, State.done]
  case domain =>
    intro s cci input t htaken haccepted
    change execDomainRequest cci input s = _
    rw [execDomainRequest, State.kamcon_taken _ _ _ htaken, haccepted]
    rfl
  case fwSlots =>
    intro s cci input htaken
    change execFwSlots cci input s = _
    rw [execFwSlots, State.kamcon_taken _ _ _ htaken, State.done]
  case svnCommit =>
    rintro s cci input type t htaken rfl htype hcommit
    change execSvnCommit cci input s = _
    rw [execSvnCommit, State.kamcon_taken _ _ _ htaken, if_neg htype, hcommit, State.done]
    simp only [if_true]
  case salvageFree =>
    rintro s cci input held htaken rfl
    change execSalvageFree cci input s = _
    rw [execSalvageFree, State.kamcon_taken _ _ _ htaken, State.done]

end Sys2Proof.Machine

/-! ### A calm state settles (log entry 3) -/

namespace Sys2Proof.Machine

theorem State.freezeAll_of_noneDue {s : State} (h : ∀ c ∈ List.range 16, (s.chan c).freezeDue = none) : s.freezeAll = s :=
  List.foldlRecOn _ _ (motive := fun t => t = s) rfl fun t ht c hc => by simp only [ht, h c hc]

theorem State.serveReady_of_none {s : State} (h : s.hal.ready = []) : s.serveReady = s := by
  simp only [State.serveReady, h, List.foldl_nil]
  rw [← h]

theorem State.applyReleased_of_none {s : State} (h : s.snp.released = []) : s.applyReleased = s := by
  simp only [State.applyReleased, h, List.foldl_nil]
  rw [← h]

theorem State.retry_of_none {s : State} (h : s.reqs = []) : s.retry = s := by
  simp only [State.retry, State.byPriority, h, List.filter_nil, List.map_nil, List.append_nil, List.foldl_nil]

theorem State.askRepairs_of_none {s : State} (h : s.cir.repair = []) : s.askRepairs = s := by
  simp only [State.askRepairs, h, List.foldl_nil]
  rw [← h]

theorem State.pumpSlots_of_none {s : State} (h : s.snp.slots = []) : s.pumpSlots = s := by
  simp only [State.pumpSlots, h, List.map_nil, List.foldl_nil]

theorem State.sendMirack_of_notDue {s : State} (h : s.pair.mirackDue = false) : s.sendMirack = s := by
  simp only [State.sendMirack, h, Bool.false_and, Bool.false_eq_true, if_false]

theorem State.flow_of_none {s : State} (h : s.con.queue = []) : s.flow = s := by
  rw [State.flow, h]
  rfl

theorem State.answerWaiting_of_none {s : State} (h : s.mbx.waiting = none) : s.answerWaiting = s := by
  simp only [State.answerWaiting, h]

theorem State.answerZenith_of_none {s : State} (h : s.mbx.running = []) : s.answerZenith = s := by
  simp only [State.answerZenith, h, List.foldl_nil]

/-- Settles O6: nothing waits in a calm state, so each part of `settle`, in its turn, leaves the state as it is. -/
theorem calmSettles : Obligations.CalmSettles := by
  intro s hcalm
  simp only [State.calm, Bool.and_eq_true, List.all_eq_true, Option.isNone_iff_eq_none, List.isEmpty_iff, Bool.not_eq_true',
    beq_iff_eq] at hcalm
  obtain ⟨⟨⟨⟨⟨⟨⟨⟨⟨⟨hfreeze, hready⟩, hreleased⟩, hreqs⟩, hrepair⟩, hslots⟩, hmirack⟩, hqueue⟩, hpeer⟩, hwaiting⟩, hrunning⟩ := hcalm
  rw [State.settle, State.freezeAll_of_noneDue hfreeze, State.serveReady_of_none hready, State.applyReleased_of_none hreleased,
    State.retry_of_none hreqs, State.serveReady_of_none hready, State.askRepairs_of_none hrepair, State.pumpSlots_of_none hslots,
    State.sendMirack_of_notDue hmirack, State.flow_of_none hqueue, hpeer, State.answerWaiting_of_none hwaiting,
    State.answerZenith_of_none hrunning]

end Sys2Proof.Machine

/-! ### Boundary scan (R647) -/

namespace Sys2Proof.Machine

/-- The balls are free while every PERSTp_N is asserted, the device and Contrail are disabled and no channel has read a DIMM's SPD (log
entry 90). -/
theorem State.ballsFree_iff (s : State) : s.ballsFree = true ↔ s.chip.perstOff = [] ∧ s.on SYS_CTL.DEV_ENABLE = false ∧
    s.on CON_CTL.LINKEN = false ∧ ∀ c, c < 16 → (s.chan c).dimms = [] := by
  simp [State.ballsFree, and_assoc]

theorem State.jtagActs_of_free {s : State} (h : s.ballsFree = true) : s.jtagActs = s.chip.jtag := by
  simp [State.jtagActs, h]

/-- An instruction that takes control of balls acts as BYPASS while they are not free. -/
theorem State.jtagActs_of_taken {s : State} (htakes : takesBalls s.chip.jtag = true) (h : s.ballsFree = false) :
    s.jtagActs = .bypass := by
  simp [State.jtagActs, htakes, h]

/-- Balls are taken only while they are free: BYPASS takes none. -/
theorem State.ballsFree_of_jtagActs {s : State} (h : takesBalls s.jtagActs = true) : s.ballsFree = true := by
  by_contra hfree
  rw [Bool.not_eq_true] at hfree
  by_cases htakes : takesBalls s.chip.jtag = true
  · rw [State.jtagActs_of_taken htakes hfree] at h
    cases h
  · rw [State.jtagActs, if_neg (by simp [htakes])] at h
    exact htakes h

/-- Settles O26. That no DIMM PMIC has been enabled is the model's reading of a channel that has read no SPD (log entry 90). -/
theorem boundaryScan : Obligations.BoundaryScan := by
  refine ⟨?command, ?onlyFree, ?whileFree, ?otherwise⟩
  case command => exact fun _ _ => rfl
  case onlyFree => exact fun s htakes => s.ballsFree_iff.1 (State.ballsFree_of_jtagActs htakes)
  case whileFree =>
    intro s _ hperst hdevice hlinken hdimms
    exact State.jtagActs_of_free (s.ballsFree_iff.2 ⟨hperst, hdevice, hlinken, hdimms⟩)
  case otherwise =>
    intro s htakes hbypassed
    refine State.jtagActs_of_taken htakes (Bool.eq_false_iff.2 fun hfree => ?_)
    rw [State.jtagActs_of_free hfree, htakes] at hbypassed
    cases hbypassed

end Sys2Proof.Machine

/-! ### Fields that share no key (R618, R622) -/

namespace Sys2Proof.Machine

/-- The copies of a field, if it has more than one, lie a bank apart, so all stand at one offset of a bank (R618). -/
def Fld.isBanked (f : Fld) : Bool := f.step % bank == 0 && decide (f.lo < 64)

/-- Two fields stand at different places of a bank. -/
def Fld.apart (f g : Fld) : Bool :=
  f.isBanked && g.isBanked && (f.addr % bank != g.addr % bank || f.lo != g.lo)

theorem Fld.key_div_bank {f : Fld} (h : f.isBanked = true) (i : Nat) : f.key i / 64 % bank = f.addr % bank ∧ f.key i % 64 = f.lo := by
  simp only [Fld.isBanked, Bool.and_eq_true, beq_iff_eq, decide_eq_true_eq] at h
  obtain ⟨hstep, hlo⟩ := h
  have hkey : f.key i / 64 = f.addr + f.step * i := by rw [Fld.key]; omega
  have hmul : f.step * i % bank = 0 := by rw [Nat.mul_mod, hstep, Nat.zero_mul, Nat.zero_mod]
  refine ⟨?_, by rw [Fld.key]; omega⟩
  rw [hkey, Nat.add_mod, hmul, Nat.add_zero, Nat.mod_mod]

/-- Fields at different places of a bank share no key, whatever copies are meant. -/
theorem Fld.key_ne_of_apart {f g : Fld} (h : f.apart g = true) (i j : Nat) : f.key i ≠ g.key j := by
  simp only [Fld.apart, Bool.and_eq_true, Bool.or_eq_true, bne_iff_ne] at h
  obtain ⟨⟨hf, hg⟩, hplace⟩ := h
  obtain ⟨hfaddr, hflo⟩ := Fld.key_div_bank hf i
  obtain ⟨hgaddr, hglo⟩ := Fld.key_div_bank hg j
  intro hkey
  rw [hkey] at hfaddr hflo
  exact hplace.elim (· (hfaddr.symm.trans hgaddr)) (· (hflo.symm.trans hglo))

/-- A copy at another offset of its bank than a field's shares no key with that field's copies. -/
theorem Fld.key_ne_of_offset {f g : Fld} {i : Nat} (hlo : f.lo < 64) (hg : g.isBanked = true)
    (h : (f.addr + f.step * i) % bank ≠ g.addr % bank) (j : Nat) : f.key i ≠ g.key j := by
  have hkey : f.key i / 64 = f.addr + f.step * i := by rw [Fld.key]; omega
  obtain ⟨hgaddr, -⟩ := Fld.key_div_bank hg j
  intro he
  rw [he] at hkey
  exact h (hkey ▸ hgaddr)

/-- Copy `i` of a field shares its key with no copy of the fields listed. -/
def Fld.outside (f : Fld) (i : Nat) (l : List Fld) : Prop := ∀ g ∈ l, ∀ j, g.key j ≠ f.key i

theorem Fld.outside_of_apart {f : Fld} {l : List Fld} (h : ∀ g ∈ l, g.apart f = true) (i : Nat) : f.outside i l :=
  fun g hg j => Fld.key_ne_of_apart (h g hg) j i

theorem State.rdAt_wrAt_outside (s : State) {f g : Fld} {i : Nat} {l : List Fld} (h : f.outside i l) (hg : g ∈ l) (j v : Nat) :
    (s.wrAt g j v).rdAt f i = s.rdAt f i := s.rdAt_wrAt_ne v (h g hg j)

theorem State.rdAt_wrAt_apart (s : State) {f g : Fld} (h : g.apart f = true) (i j v : Nat) :
    (s.wrAt g j v).rdAt f i = s.rdAt f i := s.rdAt_wrAt_ne v (Fld.key_ne_of_apart h j i)

/-- Two copies of a field whose copies lie apart have keys of their own. -/
theorem Fld.key_ne_of_copy {f : Fld} (h : 0 < f.step) {i j : Nat} (hne : i ≠ j) : f.key i ≠ f.key j := by
  simp only [Fld.key, ne_eq]
  intro hkey
  exact hne (Nat.eq_of_mul_eq_mul_left h (by omega))

theorem State.rdAt_wrAt_copy (s : State) {f : Fld} (h : 0 < f.step) {i j : Nat} (hne : j ≠ i) (v : Nat) :
    (s.wrAt f j v).rdAt f i = s.rdAt f i := s.rdAt_wrAt_ne v (Fld.key_ne_of_copy h hne)

/-! #### Several fields written one after another -/

/-- Values are written to copy `i` of fields, one after another. -/
def State.wrAll (s : State) (i : Nat) (l : List (Fld × Nat)) : State := l.foldl (fun t x => t.wrAt x.1 i x.2) s

theorem State.rdAt_wrAll_ne (s : State) {l : List (Fld × Nat)} {f : Fld} {i k : Nat} (h : ∀ x ∈ l, x.1.key i ≠ f.key k) :
    (s.wrAll i l).rdAt f k = s.rdAt f k :=
  List.foldlRecOn l _ (motive := fun t : State => t.rdAt f k = s.rdAt f k) rfl fun t ht x hx => (t.rdAt_wrAt_ne _ (h x hx)).trans ht

/-- Fields at places of their own read what was written to them. -/
theorem State.rdAt_wrAll_mem (s : State) {l : List (Fld × Nat)} {f : Fld} {v : Nat} (hmem : (f, v) ∈ l)
    (hapart : l.Pairwise fun x y => y.1.apart x.1 = true) (i : Nat) : (s.wrAll i l).rdAt f i = v % 2 ^ f.width := by
  induction l generalizing s with
  | nil => cases hmem
  | cons x xs ih =>
    obtain ⟨hhead, htail⟩ := List.pairwise_cons.1 hapart
    obtain rfl | hmem := List.mem_cons.1 hmem
    · exact (State.rdAt_wrAll_ne _ fun y hy => Fld.key_ne_of_apart (hhead y hy) i i).trans (s.rdAt_wrAt_self f i v)
    · exact ih _ hmem htail

end Sys2Proof.Machine

/-! ### Bits of a vector -/

namespace Sys2Proof

/-- A bit is set: that bit reads 1, and the others read as before. -/
theorem testBit_setBit_true (v i k : Nat) : (setBit v i true).testBit k = (v.testBit k || decide (k = i)) := by
  unfold setBit
  by_cases hset : v.testBit i = true
  · by_cases hk : k = i
    · simp [hset, hk]
    · simp [hset, hk]
  · rw [if_neg hset, if_pos rfl, Nat.add_comm]
    have heven : v / 2 ^ i % 2 = 0 := by
      have := Nat.testBit_eq_decide_div_mod_eq (x := v) (i := i)
      simp only [this, decide_eq_true_eq] at hset
      omega
    obtain hk | rfl | hk := Nat.lt_trichotomy k i
    · rw [Nat.testBit_two_pow_add_gt hk, decide_eq_false (by omega), Bool.or_false]
    · rw [Nat.testBit_two_pow_add_eq]
      simp [hset]
    · have hhigh : (2 ^ i + v) / 2 ^ (i + 1) = v / 2 ^ (i + 1) := by
        rw [Nat.pow_succ, ← Nat.div_div_eq_div_mul, ← Nat.div_div_eq_div_mul, Nat.add_div_left _ (Nat.two_pow_pos i)]
        omega
      have hshift : ∀ x : Nat, x.testBit k = (x / 2 ^ (i + 1)).testBit (k - (i + 1)) := fun x => by
        rw [Nat.testBit_div_two_pow, Nat.sub_add_cancel hk]
      rw [hshift, hhigh, ← hshift, decide_eq_false (by omega), Bool.or_false]

end Sys2Proof

/-! ### What a fault event captures (R568, R569) -/

namespace Sys2Proof.Machine

/-! #### The parts of the capture -/

/-- The event is counted, and the source is stamped. -/
def State.countFault (s : State) (src : Nat) : State := (s.incAt FLT_SRCCFG.COUNT src).wrAt FLT_SRCTS.TS src s.stamp

/-- The event is the first one where none is held. -/
def State.noteFirst (s : State) (src : Nat) : State :=
  if s.on FLT_FIRST.VALID then s
  else ((s.put FLT_FIRST.VALID true).wr FLT_FIRST.SOURCE src).wr FLT_FIRSTTS.TS s.stamp

/-- The event goes to the end of the FIFO, or is lost where that is full, and LEVEL shows the entries. -/
def State.listFault (s : State) (src : Nat) : State :=
  let s := if s.flt.fifo.length < 1024 then { s with flt := { s.flt with fifo := s.flt.fifo ++ [(src, s.stamp)] } }
    else s.inc FLT_FIFOSTAT.LOST
  s.wr FLT_FIFOSTAT.LEVEL s.flt.fifo.length

theorem State.capture_eq (s : State) (src : Nat) :
    s.capture src = (((s.countFault src).noteFirst src).listFault src).setSticky src true := rfl

/-- The fields that the first parts write, beside the sticky bit: one list per part. -/
def countFields : List Fld := [FLT_SRCCFG.COUNT, FLT_SRCTS.TS]

def firstFields : List Fld := [FLT_FIRST.VALID, FLT_FIRST.SOURCE, FLT_FIRSTTS.TS]

def fifoFields : List Fld := [FLT_FIFOSTAT.LOST, FLT_FIFOSTAT.LEVEL]

/-- The fields of the first event stand at places of their own. -/
theorem firstFields_banked : ∀ f ∈ firstFields, f.isBanked = true ∧ f.addr % bank ≠ 0x160000 ∧ f.addr % bank ≠ 0x160008 := by
  decide

theorem firstFields_apart_fifo : ∀ f ∈ firstFields, ∀ g ∈ fifoFields, g.apart f = true := by decide

theorem firstFields_apart_count : ∀ f ∈ firstFields, ∀ g ∈ countFields, g.apart f = true := by decide

section
variable (s : State) (src : Nat)

/-! #### Each part leaves the fields of the others -/

theorem State.rdAt_countFault_outside {f : Fld} {i : Nat} (h : f.outside i countFields) :
    (s.countFault src).rdAt f i = s.rdAt f i :=
  (State.rdAt_wrAt_outside _ h (by decide) src _).trans (s.rdAt_wrAt_outside h (by decide) src _)

theorem State.rdAt_noteFirst_outside {f : Fld} {i : Nat} (h : f.outside i firstFields) :
    (s.noteFirst src).rdAt f i = s.rdAt f i := by
  unfold State.noteFirst
  split
  · rfl
  · exact (State.rdAt_wrAt_outside _ h (by decide) 0 _).trans
      ((State.rdAt_wrAt_outside _ h (by decide) 0 _).trans (s.rdAt_wrAt_outside h (by decide) 0 _))

theorem State.rdAt_listFault_outside {f : Fld} {i : Nat} (h : f.outside i fifoFields) :
    (s.listFault src).rdAt f i = s.rdAt f i := by
  refine (State.rdAt_wrAt_outside _ h (by decide) 0 _).trans ?_
  split
  · rfl
  · exact s.rdAt_wrAt_outside h (by decide) 0 _

/-- The sticky bits stand at the first two places of the fault unit (R568). -/
theorem stickyKey_ne {f : Fld} (hf : f.isBanked = true ∧ f.addr % bank ≠ 0x160000 ∧ f.addr % bank ≠ 0x160008) {k : Nat}
    (hk : k < 128) (i : Nat) : FLT_STICKY.SRC.key (k / 64) ≠ f.key i := by
  obtain ⟨hbanked, hplace⟩ := hf
  refine Fld.key_ne_of_offset (by decide) hbanked ?_ i
  simp only [FLT_STICKY.SRC, bank] at hplace ⊢
  omega

theorem State.rdAt_setSticky_ne {f : Fld} (hf : f.isBanked = true ∧ f.addr % bank ≠ 0x160000 ∧ f.addr % bank ≠ 0x160008)
    (hsrc : src < 128) (b : Bool) (i : Nat) : (s.setSticky src b).rdAt f i = s.rdAt f i :=
  s.rdAt_wrAt_ne _ (stickyKey_ne hf hsrc i)

/-- Setting a source's sticky bit sets that bit and no other. -/
theorem State.sticky_setSticky_true (k : Nat) : (s.setSticky src true).sticky k = (s.sticky k || decide (k = src)) := by
  unfold State.sticky State.setSticky
  by_cases hword : k / 64 = src / 64
  · have hbit : decide (k % 64 = src % 64) = decide (k = src) := decide_eq_decide.2 (by omega)
    have hin : k % 64 < FLT_STICKY.SRC.width := Nat.mod_lt k (by decide)
    rw [hword, State.rdAt_wrAt_self, bit, bit, Nat.testBit_mod_two_pow, testBit_setBit_true, hbit, decide_eq_true hin, Bool.true_and]
  · have hne : k ≠ src := fun h => hword (by rw [h])
    rw [State.rdAt_wrAt_copy _ (by decide) (Ne.symm hword), decide_eq_false hne, Bool.or_false]

/-- The parts of the capture before the last one leave the sticky bits. -/
theorem State.sticky_listFault {k : Nat} (hk : k < 128) :
    (((s.countFault src).noteFirst src).listFault src).sticky k = s.sticky k := by
  have houtside : ∀ l : List Fld, (∀ g ∈ l, g.isBanked = true ∧ g.addr % bank ≠ 0x160000 ∧ g.addr % bank ≠ 0x160008) →
      FLT_STICKY.SRC.outside (k / 64) l := fun l hl g hg j => (stickyKey_ne (hl g hg) hk j).symm
  rw [State.sticky, State.rdAt_listFault_outside _ _ (houtside _ (by decide)), State.rdAt_noteFirst_outside _ _ (houtside _ (by decide)),
    State.rdAt_countFault_outside _ _ (houtside _ (by decide)), State.sticky]

/-! #### What each part writes -/

theorem State.stamp_lt : s.stamp < 2 ^ 64 := Nat.mod_lt _ (by decide)

theorem State.stamp_noteFirst : (s.noteFirst src).stamp = s.stamp := by
  unfold State.noteFirst
  split <;> rfl

theorem State.flt_noteFirst : (s.noteFirst src).flt = s.flt := by
  unfold State.noteFirst
  split <;> rfl

/-- The count saturates at the width of COUNT. -/
theorem State.rdAt_count_countFault :
    (s.countFault src).rdAt FLT_SRCCFG.COUNT src = min (s.rdAt FLT_SRCCFG.COUNT src + 1) (2 ^ 32 - 1) := by
  rw [State.countFault, State.rdAt_wrAt_apart _ (by decide), State.incAt, State.addAt, State.rdAt_wrAt_self]
  exact Nat.mod_eq_of_lt (Nat.lt_of_le_of_lt (Nat.min_le_right _ _) (by decide))

theorem State.rdAt_ts_countFault : (s.countFault src).rdAt FLT_SRCTS.TS src = s.stamp := by
  rw [State.countFault, State.rdAt_wrAt_self]
  exact Nat.mod_eq_of_lt s.stamp_lt

/-- The first event is held from now on. -/
theorem State.on_valid_noteFirst : (s.noteFirst src).on FLT_FIRST.VALID = true := by
  unfold State.noteFirst
  split
  · assumption
  · have hvalid : (s.put FLT_FIRST.VALID true).rd FLT_FIRST.VALID = 1 := s.rd_wr_self FLT_FIRST.VALID 1
    rw [State.on, State.onAt, State.wr, State.rdAt_wrAt_apart _ (by decide), State.wr, State.rdAt_wrAt_apart _ (by decide)]
    exact beq_iff_eq.2 hvalid

theorem State.noteFirst_of_held (h : s.on FLT_FIRST.VALID = true) : s.noteFirst src = s := if_pos h

/-- Where no event is held, this one is the first. -/
theorem State.first_noteFirst (h : s.on FLT_FIRST.VALID = false) (hsrc : src < 128) :
    (s.noteFirst src).rd FLT_FIRST.SOURCE = src ∧ (s.noteFirst src).rd FLT_FIRSTTS.TS = s.stamp := by
  rw [State.noteFirst, if_neg (ne_true_of_eq_false h)]
  constructor
  · rw [State.rd_wr_ne _ _ (by decide), State.rd_wr_self]
    exact Nat.mod_eq_of_lt hsrc
  · rw [State.rd_wr_self]
    exact Nat.mod_eq_of_lt s.stamp_lt

/-- A FIFO with room takes the event, and LOST stays (R569). -/
theorem State.listFault_of_room (h : s.flt.fifo.length < 1024) :
    (s.listFault src).flt.fifo = s.flt.fifo ++ [(src, s.stamp)] ∧
      (s.listFault src).rd FLT_FIFOSTAT.LOST = s.rd FLT_FIFOSTAT.LOST := by
  rw [State.listFault, if_pos h]
  exact ⟨rfl, State.rd_wr_ne _ _ (by decide)⟩

/-- A full FIFO stays, and the event is counted as lost (R569). -/
theorem State.listFault_of_full (h : s.flt.fifo.length = 1024) :
    (s.listFault src).flt.fifo = s.flt.fifo ∧
      (s.listFault src).rd FLT_FIFOSTAT.LOST = min (s.rd FLT_FIFOSTAT.LOST + 1) 0xFFFF := by
  rw [State.listFault, if_neg (by omega)]
  refine ⟨rfl, ?_⟩
  rw [State.rd_wr_ne _ _ (by decide), State.inc, State.incAt, State.addAt, State.rd, State.rdAt_wrAt_self]
  exact Nat.mod_eq_of_lt (Nat.lt_of_le_of_lt (Nat.min_le_right _ _) (by decide))

/-- LEVEL shows the number of entries, which the FIFO never exceeds. -/
theorem State.rd_level_listFault (h : s.flt.fifo.length ≤ 1024) :
    (s.listFault src).rd FLT_FIFOSTAT.LEVEL = (s.listFault src).flt.fifo.length := by
  have hfits : (s.listFault src).flt.fifo.length ≤ 1024 := by
    obtain hroom | hfull := Nat.lt_or_eq_of_le h
    · rw [(s.listFault_of_room src hroom).1, List.length_append, List.length_singleton]
      omega
    · rw [(s.listFault_of_full src hfull).1, hfull]
  have hlevel : (s.listFault src).rd FLT_FIFOSTAT.LEVEL = (s.listFault src).flt.fifo.length % 2 ^ 11 := State.rd_wr_self _ _ _
  rw [hlevel]
  exact Nat.mod_eq_of_lt (by omega)

/-! #### The whole capture -/

theorem State.flt_capture : (s.capture src).flt = (((s.countFault src).noteFirst src).listFault src).flt := rfl

/-- After the parts before it, the last part of the capture leaves every field but the sticky bits. -/
theorem State.rdAt_capture_eq {f : Fld} (hf : f.isBanked = true ∧ f.addr % bank ≠ 0x160000 ∧ f.addr % bank ≠ 0x160008)
    (hsrc : src < 128) (i : Nat) :
    (s.capture src).rdAt f i = (((s.countFault src).noteFirst src).listFault src).rdAt f i := by
  rw [State.capture_eq, State.rdAt_setSticky_ne _ _ hf hsrc]

/-- A fault event reaches no message, memory, request or command. -/
theorem State.capture_frame : (s.capture src).out = s.out ∧ (s.capture src).dram = s.dram ∧ (s.capture src).reqs = s.reqs ∧
    (s.capture src).pending = s.pending := by
  rw [State.capture_eq]
  unfold State.listFault State.noteFirst
  split <;> split <;> exact ⟨rfl, rfl, rfl, rfl⟩

end

/-- Settles O14: each part of the capture writes fields of its own, so what one part leaves the later ones keep. -/
theorem faultCapture : Obligations.FaultCapture := by
  intro s src hsource hfifo
  have hsrc : src < 128 := by omega
  obtain ⟨hout, hdram, hreqs, hpending⟩ := s.capture_frame src
  have hsticky : ∀ k, k < 128 → (s.capture src).sticky k = (s.sticky k || decide (k = src)) := fun k hk => by
    rw [State.capture_eq, State.sticky_setSticky_true, State.sticky_listFault _ _ hk]
  have hflt : ((s.countFault src).noteFirst src).flt = s.flt := (s.countFault src).flt_noteFirst src
  have hstamp : ((s.countFault src).noteFirst src).stamp = s.stamp := (s.countFault src).stamp_noteFirst src
  have hvalid : (s.countFault src).on FLT_FIRST.VALID = s.on FLT_FIRST.VALID :=
    congrArg (· == 1) (s.rdAt_countFault_outside src (Fld.outside_of_apart (by decide) 0))
  have hlost : ((s.countFault src).noteFirst src).rd FLT_FIFOSTAT.LOST = s.rd FLT_FIFOSTAT.LOST :=
    ((s.countFault src).rdAt_noteFirst_outside src (Fld.outside_of_apart (by decide) 0)).trans
      (s.rdAt_countFault_outside src (Fld.outside_of_apart (by decide) 0))
  refine ⟨?set, ?others, ?count, ?ts, ?valid, ?held, ?first, ?room, ?full, ?level, hout, hdram, hreqs, hpending⟩
  case set => rw [hsticky src hsrc, decide_eq_true rfl, Bool.or_true]
  case others =>
    intro k hk hne
    rw [hsticky k hk, decide_eq_false hne, Bool.or_false]
  case count =>
    rw [State.rdAt_capture_eq _ _ (by decide) hsrc, State.rdAt_listFault_outside _ _ (Fld.outside_of_apart (by decide) _),
      State.rdAt_noteFirst_outside _ _ (Fld.outside_of_apart (by decide) _), State.rdAt_count_countFault]
  case ts =>
    rw [State.rdAt_capture_eq _ _ (by decide) hsrc, State.rdAt_listFault_outside _ _ (Fld.outside_of_apart (by decide) _),
      State.rdAt_noteFirst_outside _ _ (Fld.outside_of_apart (by decide) _), State.rdAt_ts_countFault]
  case valid =>
    rw [State.on, State.onAt, State.rdAt_capture_eq _ _ (by decide) hsrc,
      State.rdAt_listFault_outside _ _ (Fld.outside_of_apart (by decide) _)]
    exact (s.countFault src).on_valid_noteFirst src
  case held =>
    intro hheld
    have hkept : ∀ f ∈ firstFields, (s.capture src).rd f = s.rd f := fun f hf => by
      rw [State.rd, State.rdAt_capture_eq _ _ (firstFields_banked f hf) hsrc,
        State.rdAt_listFault_outside _ _ (Fld.outside_of_apart (firstFields_apart_fifo f hf) _),
        State.noteFirst_of_held _ _ (hvalid.trans hheld),
        State.rdAt_countFault_outside _ _ (Fld.outside_of_apart (firstFields_apart_count f hf) _), State.rd]
    exact ⟨hkept _ (by decide), hkept _ (by decide)⟩
  case first =>
    intro hnone
    have hkept : ∀ f ∈ firstFields, (s.capture src).rd f = ((s.countFault src).noteFirst src).rd f := fun f hf => by
      rw [State.rd, State.rdAt_capture_eq _ _ (firstFields_banked f hf) hsrc,
        State.rdAt_listFault_outside _ _ (Fld.outside_of_apart (firstFields_apart_fifo f hf) _), State.rd]
    rw [hkept _ (by decide), hkept _ (by decide)]
    exact (s.countFault src).first_noteFirst src (hvalid.trans hnone) hsrc
  case room =>
    intro hroom
    obtain ⟨hlist, hsame⟩ := ((s.countFault src).noteFirst src).listFault_of_room src (by rw [hflt]; exact hroom)
    rw [State.flt_capture, hlist, hflt, hstamp, State.rd, State.rdAt_capture_eq _ _ (by decide) hsrc]
    exact ⟨rfl, hsame.trans hlost⟩
  case full =>
    intro hfull
    obtain ⟨hlist, hcounted⟩ := ((s.countFault src).noteFirst src).listFault_of_full src (by rw [hflt]; exact hfull)
    rw [State.flt_capture, hlist, hflt, State.rd, State.rdAt_capture_eq _ _ (by decide) hsrc]
    exact ⟨rfl, hcounted.trans (by rw [hlost])⟩
  case level =>
    rw [State.flt_capture, State.rd, State.rdAt_capture_eq _ _ (by decide) hsrc]
    exact ((s.countFault src).noteFirst src).rd_level_listFault src (by rw [hflt]; exact hfifo)

end Sys2Proof.Machine

/-! ### The reactions of a fault source (R573, R586) -/

namespace Sys2Proof.Machine

/-! #### Fields that store what is written -/

/-- A field stores what is written to it: it is RW, no bit that starts something, without a range of its own, and no fixed copy. -/
def Fld.plain (f : Fld) : Bool :=
  f.acc == .rw && !f.isEnable && f.clamp == .asWritten && !(f == QOS_BUCKET.RATE || f == QOS_BUCKET.BURST || f == QOS_BUCKET.YIELD)

theorem State.writeField_plain (s : State) {f : Fld} (h : f.plain = true) (i v : Nat) : s.writeField f i v = s.wrAt f i v := by
  simp only [Fld.plain, Bool.and_eq_true, beq_iff_eq, Bool.not_eq_true', Bool.or_eq_false_iff] at h
  obtain ⟨⟨⟨hacc, henable⟩, hclamp⟩, ⟨hrate, hburst⟩, hyield⟩ := h
  simp only [State.writeField, Fld.fixedCopy, hrate, hburst, hyield, hacc, henable, hclamp, Clamp.apply, Bool.or_self,
    Bool.false_and, Bool.false_eq_true, if_false]

theorem Fld.acc_of_plain {f : Fld} (h : f.plain = true) : f.acc = .rw := by
  simp only [Fld.plain, Bool.and_eq_true, beq_iff_eq] at h
  exact h.1.1.1

/-- What a word that is written to several fields puts into each of them: the bits at its place. -/
def wordParts (v : Nat) (fs : List Fld) : List (Fld × Nat) := fs.map fun f => (f, bits v f.lo f.width)

theorem State.storeFields_plain (s : State) {fs : List Fld} (h : ∀ f ∈ fs, f.plain = true) (i v : Nat) :
    s.storeFields fs i v = s.wrAll i (wordParts v fs) := by
  rw [State.wrAll, wordParts, List.foldl_map]
  refine List.foldl_ext _ _ _ fun t f hf => ?_
  rw [if_neg fun hlocked => by simp [Fld.acc_of_plain (h f hf)] at hlocked, State.writeField_plain _ (h f hf)]

/-! #### The reactions -/

/-- The reactions of a source that software may choose (R573). -/
def reactionFields : List Fld := [FLT_SRCCFG.INT, FLT_SRCCFG.NMI, FLT_SRCCFG.BLKRST, FLT_SRCCFG.CHIPRST, FLT_SRCCFG.ERRN]

theorem reactionFields_plain : ∀ f ∈ reactionFields, f.plain = true := by decide

theorem reactionFields_apart : ∀ f ∈ reactionFields, ∀ g ∈ reactionFields, g ≠ f → g.apart f = true := by decide

theorem reactionFields_pairwise : reactionFields.Pairwise fun f g => g.apart f = true := by decide

/-- Each reaction is one bit, of registers a bank apart, beside FIXED and away from the pins. -/
theorem reactionFields_place : ∀ f ∈ reactionFields, f.width = 1 ∧ 0 < f.step ∧ f.apart FLT_SRCCFG.FIXED = true ∧
    FLT_PINS.ERRN.apart f = true := by decide

/-- The reactions of two sources share no key. -/
theorem reactionFields_key_ne {f g : Fld} (hf : f ∈ reactionFields) (hg : g ∈ reactionFields) {i k : Nat} (hne : i ≠ k) :
    g.key i ≠ f.key k := by
  obtain ⟨-, hstep, -, -⟩ := reactionFields_place f hf
  by_cases hfg : g = f
  · rw [hfg]
    exact Fld.key_ne_of_copy hstep hne
  · exact Fld.key_ne_of_apart (reactionFields_apart f hf g hg hfg) i k

/-- The reactions as they are stored: what is written, with the fixed ones. -/
theorem State.setReactions_eq (s : State) (src v : Nat) : s.setReactions src v =
    (s.wrAll src (wordParts (v ||| s.rdAt FLT_SRCCFG.FIXED src) reactionFields)).driveErrn :=
  congrArg State.driveErrn (s.storeFields_plain reactionFields_plain src _)

/-- A field of the registers of the sources that is not the pin's reads after a write of the reactions what was stored. -/
theorem State.rdAt_setReactions (s : State) {f : Fld} (hpin : FLT_PINS.ERRN.apart f = true) (src v k : Nat) :
    (s.setReactions src v).rdAt f k = (s.wrAll src (wordParts (v ||| s.rdAt FLT_SRCCFG.FIXED src) reactionFields)).rdAt f k := by
  rw [State.setReactions_eq, State.driveErrn, State.put, State.wr, State.rdAt_wrAt_apart _ hpin]

/-- A one-bit field of a word is set where the word's bit is. -/
theorem bits_one_beq_one (v lo : Nat) : (bits v lo 1 == 1) = bit v lo := by
  rw [bits, bit, Nat.testBit_eq_decide_div_mod_eq, Nat.shiftRight_eq_div_pow, Nat.pow_one]
  rfl

/-- Settles O15: the fixed reactions are added to the word before its bits are stored, each at a place of its own. -/
theorem fixedReactions : Obligations.FixedReactions := by
  constructor
  · exact fun _ _ _ => rfl
  · intro s src v f _ hf
    change f ∈ reactionFields at hf
    obtain ⟨hwidth, -, -, hpin⟩ := reactionFields_place f hf
    refine ⟨?reaction, ?fixed, ?others⟩
    case reaction =>
      have hstored : (f, bits (v ||| s.rdAt FLT_SRCCFG.FIXED src) f.lo 1) ∈
          wordParts (v ||| s.rdAt FLT_SRCCFG.FIXED src) reactionFields := List.mem_map.2 ⟨f, hf, by rw [hwidth]⟩
      rw [State.onAt, State.rdAt_setReactions _ hpin,
        State.rdAt_wrAll_mem _ hstored (List.pairwise_map.2 reactionFields_pairwise), hwidth, bits,
        Nat.mod_mod, ← bits, bits_one_beq_one, bit, bit, bit, Nat.testBit_or, Bool.or_comm]
    case fixed =>
      rw [State.rdAt_setReactions _ (by decide), State.rdAt_wrAll_ne]
      refine List.forall_mem_map.2 fun g hg => ?_
      obtain ⟨-, -, hfixed, -⟩ := reactionFields_place g hg
      exact Fld.key_ne_of_apart hfixed src src
    case others =>
      intro k _ hne
      rw [State.rdAt_setReactions _ hpin, State.rdAt_wrAll_ne]
      exact List.forall_mem_map.2 fun g hg => reactionFields_key_ne hf hg hne.symm

end Sys2Proof.Machine

/-! ### Unsupported writes (R624, R630) -/

namespace Sys2Proof.Machine

/-- A write of an unsupported width, or one that is unaligned, is recorded with its kind and does nothing else. -/
theorem State.writeOffset_unsupported (s : State) (p : Path) {offset bytes : Nat}
    (h : (bytes ≠ 4 ∧ bytes ≠ 8) ∨ offset % bytes ≠ 0) (v : Nat) (bme msix : Bool) :
    s.writeOffset p offset bytes v bme msix = s.badWrite p offset (if bytes ≠ 4 ∧ bytes ≠ 8 then 1 else 0) := by
  unfold State.writeOffset
  split
  · rfl
  · rw [if_pos (h.resolve_left ‹_›)]

/-- What the record of an access holds beside COUNT (R624). -/
def accessRecord (p : Path) (offset kind : Nat) : List (Fld × Nat) :=
  [(SYS_ACCERR.OFFSET, offset), (SYS_ACCERR.PATH, pathCode p), (SYS_ACCERR.KIND, kind), (SYS_ACCERR.WRITE, 1), (SYS_ACCERR.VALID, 1)]

/-- The fields of that record. -/
def accessFields : List Fld := [SYS_ACCERR.OFFSET, SYS_ACCERR.PATH, SYS_ACCERR.KIND, SYS_ACCERR.WRITE, SYS_ACCERR.VALID]

theorem accessFields_apart : accessFields.Pairwise fun f g => g.apart f = true := by decide

theorem accessRecord_apart (p : Path) (offset kind : Nat) :
    (accessRecord p offset kind).Pairwise fun x y => y.1.apart x.1 = true :=
  (List.pairwise_map (f := Prod.fst) (R := fun f g : Fld => g.apart f = true)).1 accessFields_apart

theorem accessFields_place : ∀ f ∈ accessFields,
    f.addr = SYS_ACCERR.COUNT.addr ∧ f.step = 0 ∧ f.lo < 64 ∧ f.apart SYS_ACCERR.COUNT = true := by decide

theorem mem_accessFields {p : Path} {offset kind : Nat} {x : Fld × Nat} (hx : x ∈ accessRecord p offset kind) :
    x.1 ∈ accessFields := List.mem_map_of_mem (f := Prod.fst) hx

theorem State.on_valid_inc_count (s : State) : (s.inc SYS_ACCERR.COUNT).on SYS_ACCERR.VALID = s.on SYS_ACCERR.VALID :=
  congrArg (· == 1) (s.rdAt_wrAt_apart (by decide) 0 0 _)

/-- A held record stays: only COUNT changes. -/
theorem State.badWrite_of_held {s : State} (h : s.on SYS_ACCERR.VALID = true) (p : Path) (offset kind : Nat) :
    s.badWrite p offset kind = s.inc SYS_ACCERR.COUNT := by
  rw [State.badWrite]
  exact if_pos (s.on_valid_inc_count.trans h)

theorem State.badWrite_of_clear {s : State} (h : s.on SYS_ACCERR.VALID = false) (p : Path) (offset kind : Nat) :
    s.badWrite p offset kind = (s.inc SYS_ACCERR.COUNT).wrAll 0 (accessRecord p offset kind) := by
  rw [State.badWrite]
  exact if_neg (ne_true_of_eq_false (s.on_valid_inc_count.trans h))

/-- COUNT saturates at its 16 bits. -/
theorem State.rd_count_inc (s : State) :
    (s.inc SYS_ACCERR.COUNT).rd SYS_ACCERR.COUNT = min (s.rd SYS_ACCERR.COUNT + 1) 0xFFFF := by
  rw [State.inc, State.incAt, State.addAt, State.rd, State.rdAt_wrAt_self]
  exact Nat.mod_eq_of_lt (Nat.lt_of_le_of_lt (Nat.min_le_right _ _) (by decide))

/-- What the record reads (R624): each field holds its part. -/
theorem State.record_reads (s : State) (p : Path) {offset kind : Nat} (hoffset : offset < 2 ^ 28) (hkind : kind < 2) :
    let t := s.wrAll 0 (accessRecord p offset kind)
    t.rd SYS_ACCERR.OFFSET = offset ∧ t.rd SYS_ACCERR.PATH = pathCode p ∧ t.rd SYS_ACCERR.KIND = kind ∧
      t.on SYS_ACCERR.WRITE = true ∧ t.on SYS_ACCERR.VALID = true := by
  have hreads : ∀ f v, (f, v) ∈ accessRecord p offset kind → v < 2 ^ f.width →
      (s.wrAll 0 (accessRecord p offset kind)).rd f = v := fun f v hmem hfits =>
    (s.rdAt_wrAll_mem hmem (accessRecord_apart p offset kind) 0).trans (Nat.mod_eq_of_lt hfits)
  have hpath : pathCode p < 2 ^ 2 := by cases p <;> decide
  exact ⟨hreads _ _ (by simp [accessRecord]) hoffset, hreads _ _ (by simp [accessRecord]) hpath,
    hreads _ _ (by simp [accessRecord]) hkind, beq_iff_eq.2 (hreads _ 1 (by simp [accessRecord]) (by decide)),
    beq_iff_eq.2 (hreads _ 1 (by simp [accessRecord]) (by decide))⟩

/-- A field of another register shares no key with SYS_ACCERR's. -/
theorem accessKey_ne {f g : Fld} {i : Nat} (haddr : f.addr + f.step * i ≠ SYS_ACCERR.COUNT.addr) (hlo : f.lo < 64)
    (hg : g.addr = SYS_ACCERR.COUNT.addr ∧ g.step = 0 ∧ g.lo < 64) : g.key 0 ≠ f.key i := by
  obtain ⟨hgaddr, hgstep, hglo⟩ := hg
  intro hkey
  simp only [Fld.key, hgstep, Nat.zero_mul, Nat.add_zero, hgaddr] at hkey
  omega

/-- Settles O13. The order of the checks of an access is the model's choice (log entry 13). -/
theorem unsupportedWrites : Obligations.UnsupportedWrites := by
  refine ⟨?command, ?count, ?held, ?first⟩
  case command =>
    intro s p fn offset bytes v bme msix hview hbad
    rw [exec_registerWrite, execRegisterWrite_shown fun hp => hview.resolve_left (not_not.2 hp), s.writeOffset_unsupported p hbad]
  case count =>
    intro s p offset kind
    cases hvalid : s.on SYS_ACCERR.VALID
    · have hne : ∀ x ∈ accessRecord p offset kind, x.1.key 0 ≠ SYS_ACCERR.COUNT.key 0 := fun x hx =>
        by
        obtain ⟨-, -, -, hcount⟩ := accessFields_place _ (mem_accessFields hx)
        exact Fld.key_ne_of_apart hcount 0 0
      rw [State.badWrite_of_clear hvalid, State.rd, State.rdAt_wrAll_ne _ hne]
      exact s.rd_count_inc
    · rw [State.badWrite_of_held hvalid, s.rd_count_inc]
  case held =>
    intro s p offset kind hvalid f i hne
    rw [State.badWrite_of_held hvalid]
    exact s.rdAt_wrAt_ne _ hne.symm
  case first =>
    intro s p offset kind hvalid hoffset hkind
    rw [State.badWrite_of_clear hvalid]
    obtain ⟨hreadOffset, hreadPath, hreadKind, hwrite, hset⟩ := (s.inc SYS_ACCERR.COUNT).record_reads p hoffset hkind
    refine ⟨hreadOffset, hreadPath, hreadKind, hwrite, hset, fun f i haddr hlo => ?_⟩
    have hne : ∀ x ∈ accessRecord p offset kind, x.1.key 0 ≠ f.key i := fun x hx => by
      obtain ⟨hxaddr, hxstep, hxlo, -⟩ := accessFields_place _ (mem_accessFields hx)
      exact accessKey_ne haddr hlo ⟨hxaddr, hxstep, hxlo⟩
    rw [State.rdAt_wrAll_ne _ hne]
    exact s.rdAt_wrAt_ne _ (accessKey_ne haddr hlo (by decide))

end Sys2Proof.Machine

/-! ### What a cold reset leaves and keeps (R501, R513, R589) -/

namespace Sys2Proof.Machine

/-- What a cold reset records in RST_LAST. -/
def lastReset (cause rail source : Nat) : List (Fld × Nat) :=
  [(RST_LAST.CAUSE, cause), (RST_LAST.RAIL, rail), (RST_LAST.SOURCE, source)]

theorem lastReset_apart (cause rail source : Nat) : (lastReset cause rail source).Pairwise fun x y => y.1.apart x.1 = true :=
  (List.pairwise_map (f := Prod.fst) (R := fun f g : Fld => g.apart f = true)).1
    (by decide : [RST_LAST.CAUSE, RST_LAST.RAIL, RST_LAST.SOURCE].Pairwise fun f g => g.apart f = true)

/-- A cold reset writes RST_LAST and the prior fault vector into a register file that lists nothing. -/
theorem State.coldReset_eq (s : State) (cause rail source : Nat) : ∃ r : State, r.regs = [] ∧
    s.coldReset cause rail source = ((r.wrAll 0 (lastReset cause rail source)).wrAt FLT_PRIOR.SRC 0 (s.rdAt FLT_PRIOR.SRC 0)).wrAt
      FLT_PRIOR.SRC 1 (s.rdAt FLT_PRIOR.SRC 1) := ⟨_, rfl, rfl⟩

/-- RST_LAST does not stand at a place of the prior fault vector. -/
theorem priorKey_ne {g : Fld} (hg : g.isBanked = true) (hplace : g.addr % bank ≠ 0x160080 ∧ g.addr % bank ≠ 0x160088) {j : Nat}
    (hj : j < 2) (i : Nat) : FLT_PRIOR.SRC.key j ≠ g.key i := by
  refine Fld.key_ne_of_offset (by decide) hg ?_ i
  simp only [FLT_PRIOR.SRC, bank] at hplace ⊢
  omega

/-- Settles O25: the register file is emptied before RST_LAST and the prior fault vector are written, and the rest of the state is that
after reset, with the fuses, the queue and the messages put in. -/
theorem coldResetRestores : Obligations.ColdResetRestores := by
  intro s cause rail source hcause hrail hsource
  obtain ⟨r, hempty, ht⟩ := s.coldReset_eq cause rail source
  have hlast : ∀ f v, (f, v) ∈ lastReset cause rail source → v < 2 ^ f.width →
      (s.coldReset cause rail source).rd f = v := fun f v hmem hfits => by
    have hplace : ∀ x ∈ lastReset cause rail source, x.1.isBanked = true ∧ x.1.addr % bank ≠ 0x160080 ∧
        x.1.addr % bank ≠ 0x160088 := by
      simp only [lastReset, List.forall_mem_cons]
      decide
    obtain ⟨hbanked, haddr⟩ := hplace _ hmem
    rw [ht, State.rd, State.rdAt_wrAt_ne _ _ (priorKey_ne hbanked haddr (by decide) 0),
      State.rdAt_wrAt_ne _ _ (priorKey_ne hbanked haddr (by decide) 0), State.rdAt_wrAll_mem _ hmem (lastReset_apart _ _ _),
      Nat.mod_eq_of_lt hfits]
  refine ⟨?others, hlast _ _ (by simp [lastReset]) hcause, hlast _ _ (by simp [lastReset]) hrail, hlast _ _ (by simp [lastReset]) hsource,
    ?prior, rfl, rfl, rfl, rfl, rfl⟩
  case others =>
    intro f i hf
    simp only [List.mem_cons, List.not_mem_nil, or_false, not_or] at hf
    obtain ⟨hkeyCause, hkeyRail, hkeySource, hprior0, hprior1⟩ := hf
    have hne : ∀ x ∈ lastReset cause rail source, x.1.key 0 ≠ f.key i := by
      simp only [lastReset, List.forall_mem_cons]
      exact ⟨Ne.symm hkeyCause, Ne.symm hkeyRail, Ne.symm hkeySource, fun _ h => nomatch h⟩
    rw [ht, State.rdAt_wrAt_ne _ _ (Ne.symm hprior1), State.rdAt_wrAt_ne _ _ (Ne.symm hprior0), State.rdAt_wrAll_ne _ hne,
      State.rdAt_of_unlisted (by rw [hempty]; rfl)]
  case prior =>
    intro i hi
    obtain rfl | rfl : i = 0 ∨ i = 1 := by omega
    · rw [ht, State.rdAt_wrAt_copy _ (by decide) (by decide), State.rdAt_wrAt_self]
      rfl
    · rw [ht, State.rdAt_wrAt_self]
      rfl

end Sys2Proof.Machine

/-! ### The timestamp (R501, R513, R530) -/

namespace Sys2Proof.Machine

/-! #### What a fault event and a counter reach: registers, the fault unit and messages -/

/-- Nothing but registers, the fault unit and the messages differs. -/
def State.signals (s t : State) : Prop := ∃ regs flt out, t = { s with regs := regs, flt := flt, out := out }

theorem State.signals_refl (s : State) : s.signals s := ⟨_, _, _, rfl⟩

theorem State.signals.trans {s t u : State} (hst : s.signals t) (htu : t.signals u) : s.signals u := by
  obtain ⟨_, _, _, rfl⟩ := hst
  obtain ⟨_, _, _, rfl⟩ := htu
  exact ⟨_, _, _, rfl⟩

theorem State.signals_wrAt (s : State) (f : Fld) (i v : Nat) : s.signals (s.wrAt f i v) := ⟨_, _, _, rfl⟩

theorem State.signals_ite {s t u : State} {p : Prop} [Decidable p] (ht : s.signals t) (hu : s.signals u) :
    s.signals (if p then t else u) := by
  split
  · exact ht
  · exact hu

theorem State.signals_interrupt (s : State) : s.signals s.interrupt :=
  State.signals_ite ⟨_, _, _, rfl⟩ ⟨_, _, _, rfl⟩

theorem State.signals_capture (s : State) (src : Nat) : s.signals (s.capture src) := by
  have hcount : s.signals (s.countFault src) := ⟨_, _, _, rfl⟩
  have hfirst : ∀ t : State, t.signals (t.noteFirst src) := fun t => State.signals_ite t.signals_refl ⟨_, _, _, rfl⟩
  have hlist : ∀ t : State, t.signals (t.listFault src) := fun t =>
    State.signals.trans (State.signals_ite ⟨_, _, _, rfl⟩ ⟨_, _, _, rfl⟩) ⟨_, _, _, rfl⟩
  rw [State.capture_eq]
  exact hcount.trans ((hfirst _).trans ((hlist _).trans ⟨_, _, _, rfl⟩))

theorem State.signals_chipReset (s : State) (src : Nat) : s.signals (s.chipReset src) :=
  State.signals.trans ⟨_, _, _, rfl⟩ (State.signals_ite ⟨_, _, _, rfl⟩ (State.signals_refl _))

theorem State.signals_reactRising (s : State) (src : Nat) : s.signals (s.reactRising src) := by
  have hint : s.signals (if s.onAt FLT_SRCCFG.INT src then s.interrupt else s) := State.signals_ite s.signals_interrupt s.signals_refl
  exact hint.trans ((State.signals_ite ⟨_, _, _, rfl⟩ (State.signals_refl _)).trans ⟨_, _, _, rfl⟩)

theorem State.signals_reactAlways (s : State) (src core : Nat) : s.signals (s.reactAlways src core) := by
  unfold State.reactAlways
  extract_lets _ asked
  have hasked : s.signals asked := by
    refine State.signals_ite ?_ s.signals_refl
    split
    · exact State.signals_ite s.signals_refl ⟨_, _, _, rfl⟩
    · exact s.signals_interrupt
  exact State.signals_ite (hasked.trans ((asked.signals_chipReset src).trans ⟨_, _, _, rfl⟩)) hasked

theorem State.signals_raise (s : State) (src : Nat) : s.signals (s.raise src) := by
  have hcaptured : s.signals (s.capture src) := s.signals_capture src
  have hreacted : s.signals (if !s.sticky src then (s.capture src).reactRising src else s.capture src) :=
    State.signals_ite (hcaptured.trans (State.signals_reactRising _ src)) hcaptured
  exact hreacted.trans (State.signals_reactAlways _ src 0)

theorem State.signals_overflow (s : State) (c : Nat) : s.signals (s.overflow c) :=
  State.signals_ite ((s.signals_wrAt _ _ _).trans (State.signals_raise _ _)) (s.signals_wrAt _ _ _)

theorem State.signals_addCounter (s : State) (c n fuel : Nat) : s.signals (s.addCounter c n fuel) := by
  induction fuel generalizing s c n with
  | zero => exact s.signals_refl
  | succ fuel ih =>
    exact State.signals_ite (s.signals_wrAt _ _ _) (State.signals_ite ((s.signals_wrAt _ _ _).trans (ih _ _ _))
      ((s.signals_wrAt _ _ _).trans (State.signals_overflow _ c)))

theorem State.signals_event (s : State) (ev idx : Nat) : s.signals (s.event ev idx) :=
  List.foldlRecOn _ _ (motive := s.signals) s.signals_refl fun t ht c _ => ht.trans (t.signals_addCounter c 1 8)

/-- The timestamp is no register. -/
theorem State.signals.stamp_eq {s t : State} (h : s.signals t) : t.stamp = s.stamp := by
  obtain ⟨_, _, _, rfl⟩ := h
  rfl

/-! #### The clock -/

/-- One tick adds 1 to the timestamp, whatever the event of the tick counts (R501). -/
theorem State.stamp_tick {s : State} (h : s.clockRuns = true) : s.tick.stamp = (s.stamp + 1) % 2 ^ 64 := by
  have hticked : ({ s with time := s.time + 1 } : State).signals s.tick := by
    rw [State.tick, if_pos h]
    exact State.signals_ite (State.signals_event _ _ _) (State.signals_refl _)
  rw [hticked.stamp_eq]
  change (s.time + 1 + s.stampBase) % 2 ^ 64 = ((s.time + s.stampBase) % 2 ^ 64 + 1) % 2 ^ 64
  omega

/-- What has to be added to `t` to reach `v`, modulo `m`. -/
theorem add_offset_mod (t v : Nat) {m : Nat} (h : 0 < m) : (t + (v % m + m - t % m) % m) % m = v % m := by
  have hsum : t % m + (v % m + m - t % m) = v % m + m := Nat.add_sub_cancel' (Nat.le_add_left_of_le (Nat.mod_lt t h).le)
  rw [Nat.add_mod_mod, ← Nat.mod_add_mod, hsum, Nat.add_mod_right, Nat.mod_mod]

theorem State.stamp_withBase (s : State) (base : Nat) : ({ s with stampBase := base } : State).stamp = (s.time + base) % 2 ^ 64 := rfl

theorem State.stamp_setStamp (s : State) (v : Nat) : (s.setStamp v).stamp = v % 2 ^ 64 :=
  (s.stamp_withBase _).trans (add_offset_mod s.time v (Nat.two_pow_pos 64))

theorem State.stamp_coldReset (s : State) (cause rail source : Nat) : (s.coldReset cause rail source).stamp = 0 := by
  have htime : (s.coldReset cause rail source).time = 0 := rfl
  have hbase : (s.coldReset cause rail source).stampBase = 0 := rfl
  rw [State.stamp, State.stampOf, htime, hbase, Nat.zero_mod]

/-- Settles O20: the timestamp is the running clock with an offset, which Set Timestamp chooses and a cold reset clears. That an idle step
is one tick is the model's choice (log entry 1). -/
theorem timestampCounts : Obligations.TimestampCounts := by
  refine ⟨fun s => State.stamp_tick, fun s hstopped => ?_, State.stamp_setStamp, State.stamp_coldReset⟩
  rw [State.tick, if_neg (ne_true_of_eq_false hstopped)]

end Sys2Proof.Machine

/-! ### Counters (R594, R595, R596) -/

namespace Sys2Proof.Machine

/-! #### An overflow sets a bit of TEL_OVF and leaves the values -/

theorem windowOfKey_ovf {j : Nat} (hj : j < 5) : windowOfKey (TEL_OVF.BITS.key j) ≠ fltWindow :=
  (by decide : ∀ j < 5, windowOfKey (TEL_OVF.BITS.key j) ≠ fltWindow) j hj

theorem windowOfKey_counter (k : Nat) : windowOfKey (TEL_CNTVAL.VALUE.key k) ≠ fltWindow := by
  rw [Fld.windowOfKey_bank rfl (by decide)]
  decide

/-- A counter's overflow bit stands at no counter's value, as TEL has 320 counters. -/
theorem ovfKey_ne {c : Nat} (hc : c < 320) (k : Nat) : TEL_OVF.BITS.key (c / 64) ≠ TEL_CNTVAL.VALUE.key k := by
  have hplace : ∀ j < 5, (TEL_OVF.BITS.addr + TEL_OVF.BITS.step * j) % bank ≠ TEL_CNTVAL.VALUE.addr % bank := by decide
  exact Fld.key_ne_of_offset (by decide) (by decide) (hplace _ (by omega)) k

/-- The source of counter overflows raises nothing outside the fault unit. -/
theorem State.rdAt_overflow {f : Fld} {i : Nat} (s : State) (c : Nat) (hf : windowOfKey (f.key i) ≠ fltWindow) :
    (s.overflow c).rdAt f i =
      (s.wrAt TEL_OVF.BITS (c / 64) (setBit (s.rdAt TEL_OVF.BITS (c / 64)) (c % 64) true)).rdAt f i := by
  unfold State.overflow
  extract_lets old marked
  split
  · exact State.rdAt_raise hf marked (by decide)
  · rfl

theorem State.value_overflow (s : State) {c : Nat} (hc : c < 320) (k : Nat) :
    (s.overflow c).rdAt TEL_CNTVAL.VALUE k = s.rdAt TEL_CNTVAL.VALUE k := by
  rw [State.rdAt_overflow s c (windowOfKey_counter k), State.rdAt_wrAt_ne _ _ (ovfKey_ne hc k)]

theorem State.bit_overflow (s : State) {c : Nat} (hc : c < 320) :
    bit ((s.overflow c).rdAt TEL_OVF.BITS (c / 64)) (c % 64) = true := by
  have hwidth : c % 64 < TEL_OVF.BITS.width := Nat.mod_lt c (by decide)
  rw [State.rdAt_overflow s c (windowOfKey_ovf (by omega)), State.rdAt_wrAt_self, bit, Nat.testBit_mod_two_pow, testBit_setBit_true,
    decide_eq_true hwidth, decide_eq_true rfl, Bool.or_true, Bool.and_true]

/-! #### What one count does -/

section
variable {s : State} {c n : Nat}

theorem State.addCounter_fits (h : s.rdAt TEL_CNTVAL.VALUE c + n ≤ counterMax) (fuel : Nat) :
    s.addCounter c n (fuel + 1) = s.wrAt TEL_CNTVAL.VALUE c (s.rdAt TEL_CNTVAL.VALUE c + n) := by
  rw [State.addCounter, if_pos h]

theorem State.addCounter_carries (h : counterMax < s.rdAt TEL_CNTVAL.VALUE c + n) (hlast : c % 8 ≠ 7)
    (hchained : s.onAt TEL_CNTCFG.CHAIN c = true) (fuel : Nat) :
    s.addCounter c n (fuel + 1) =
      (s.wrAt TEL_CNTVAL.VALUE c ((s.rdAt TEL_CNTVAL.VALUE c + n) % 2 ^ 48)).addCounter (c + 1) 1 fuel := by
  rw [State.addCounter, if_neg (Nat.not_le.2 h), if_pos (by simp [hlast, hchained])]

theorem State.addCounter_saturates (h : counterMax < s.rdAt TEL_CNTVAL.VALUE c + n)
    (hfree : s.onAt TEL_CNTCFG.CHAIN c = false ∨ c % 8 = 7) (fuel : Nat) :
    s.addCounter c n (fuel + 1) = (s.wrAt TEL_CNTVAL.VALUE c counterMax).overflow c := by
  rw [State.addCounter, if_neg (Nat.not_le.2 h), if_neg (by rcases hfree with h | h <;> simp [h])]

/-- A value that a counter can hold is stored whole. -/
theorem State.value_wrAt_self (s : State) (c : Nat) {v : Nat} (h : v ≤ counterMax) :
    (s.wrAt TEL_CNTVAL.VALUE c v).rdAt TEL_CNTVAL.VALUE c = v := by
  rw [State.rdAt_wrAt_self]
  exact Nat.mod_eq_of_lt (Nat.lt_of_le_of_lt h (by decide))

theorem State.value_wrAt_other (s : State) {c k : Nat} (h : k ≠ c) (v : Nat) :
    (s.wrAt TEL_CNTVAL.VALUE c v).rdAt TEL_CNTVAL.VALUE k = s.rdAt TEL_CNTVAL.VALUE k :=
  s.rdAt_wrAt_copy (by decide) h.symm v

/-- A counter that does not carry stops at its greatest value, where it sets its overflow bit, and leaves the other counters (R596). -/
theorem State.addCounter_unchained (hc : c < 320) (hfree : s.onAt TEL_CNTCFG.CHAIN c = false ∨ c % 8 = 7) (fuel : Nat) :
    (s.addCounter c n (fuel + 1)).rdAt TEL_CNTVAL.VALUE c = min (s.rdAt TEL_CNTVAL.VALUE c + n) counterMax ∧
    (counterMax < s.rdAt TEL_CNTVAL.VALUE c + n →
      bit ((s.addCounter c n (fuel + 1)).rdAt TEL_OVF.BITS (c / 64)) (c % 64) = true) ∧
    ∀ k, k ≠ c → (s.addCounter c n (fuel + 1)).rdAt TEL_CNTVAL.VALUE k = s.rdAt TEL_CNTVAL.VALUE k := by
  obtain hover | hfits := Nat.lt_or_ge counterMax (s.rdAt TEL_CNTVAL.VALUE c + n)
  · rw [State.addCounter_saturates hover hfree]
    refine ⟨?_, fun _ => State.bit_overflow _ hc, fun k hk => ?_⟩
    · rw [State.value_overflow _ hc, State.value_wrAt_self _ _ le_rfl, Nat.min_eq_right hover.le]
    · rw [State.value_overflow _ hc, State.value_wrAt_other _ hk]
  · rw [State.addCounter_fits hfits]
    exact ⟨(State.value_wrAt_self _ _ hfits).trans (Nat.min_eq_left hfits).symm, fun h => absurd hfits (Nat.not_le.2 h),
      fun k hk => State.value_wrAt_other _ hk _⟩

/-- A chained counter wraps, and the next counter takes its carry (R595). -/
theorem State.addCounter_chained (hlast : c % 8 ≠ 7) (hchained : s.onAt TEL_CNTCFG.CHAIN c = true)
    (hover : counterMax < s.rdAt TEL_CNTVAL.VALUE c + n) (hnext : s.rdAt TEL_CNTVAL.VALUE (c + 1) < counterMax) (fuel : Nat) :
    (s.addCounter c n (fuel + 2)).rdAt TEL_CNTVAL.VALUE c = (s.rdAt TEL_CNTVAL.VALUE c + n) % 2 ^ 48 ∧
    (s.addCounter c n (fuel + 2)).rdAt TEL_CNTVAL.VALUE (c + 1) = s.rdAt TEL_CNTVAL.VALUE (c + 1) + 1 := by
  rw [State.addCounter_carries hover hlast hchained]
  generalize hwrapped : s.wrAt TEL_CNTVAL.VALUE c ((s.rdAt TEL_CNTVAL.VALUE c + n) % 2 ^ 48) = wrapped
  have hsame : wrapped.rdAt TEL_CNTVAL.VALUE (c + 1) = s.rdAt TEL_CNTVAL.VALUE (c + 1) := by
    rw [← hwrapped, State.value_wrAt_other _ (Nat.succ_ne_self c)]
  have hfits : wrapped.rdAt TEL_CNTVAL.VALUE (c + 1) + 1 ≤ counterMax := hsame ▸ hnext
  rw [State.addCounter_fits hfits, State.value_wrAt_self _ _ hfits, State.value_wrAt_other _ (Nat.ne_of_lt (Nat.lt_succ_self c))]
  refine ⟨?_, by rw [hsame]⟩
  rw [← hwrapped, State.value_wrAt_self _ _ (Nat.le_pred_of_lt (Nat.mod_lt _ (Nat.two_pow_pos 48)))]

end

theorem State.rdAt_keepEvent (s : State) (c : Nat) :
    (s.keepEvent c).rdAt TEL_CNTCFG.EVENT c =
      if bankCounts (c / 8) (s.rdAt TEL_CNTCFG.EVENT c) then s.rdAt TEL_CNTCFG.EVENT c else 0 := by
  unfold State.keepEvent
  split
  · rfl
  · rw [State.rdAt_wrAt_self, Nat.zero_mod]

/-- Settles O18, by the three outcomes of a count: the value fits, carries into the next counter, or saturates. -/
theorem counterSaturates : Obligations.CounterSaturates := by
  refine ⟨fun s c n hc hfree => ?unchained, fun s c n _ hlast hchained _ hover hnext => ?chained, State.rdAt_keepEvent⟩
  case unchained =>
    obtain ⟨hvalue, hbit, hothers⟩ := State.addCounter_unchained (n := n) hc hfree 7
    exact ⟨hvalue, hbit, fun k _ hk => hothers k hk⟩
  case chained =>
    exact State.addCounter_chained hlast hchained hover hnext 6

end Sys2Proof.Machine

/-! ### A held domain (R485, R558) -/

namespace Sys2Proof.Machine

/-- The number of a counter past the 320 of TEL whose overflow bit would stand at the state of domain 1. -/
def strayCounter : Nat := 64 * ((PWR_DOMSTAT.STATE.addr + bank - TEL_OVF.BITS.addr) / TEL_OVF.BITS.step)

theorem ovfKey_strayCounter : TEL_OVF.BITS.key (strayCounter / 64) = PWR_DOMSTAT.STATE.key 1 := by decide

/-- After reset Zenith holds domain 0, and the register file lists that counter as enabled, at its greatest value, for refused requests. -/
def strayState : State :=
  (((State.reset.wrAt TEL_CNTCFG.EN strayCounter 1).wrAt TEL_CNTCFG.EVENT strayCounter Ev.domRefusals).wrAt
    TEL_CNTVAL.VALUE strayCounter counterMax).wr ENG_HOLD.DOMAINS 1

theorem strayState_sound : strayState.Sound :=
  (State.wr_kept (State.wrAt_kept (State.wrAt_kept (State.wrAt_kept ⟨rfl, List.suffix_rfl, resetIsSound⟩)))).sound

/-- Refutes O19: the statement speaks of every register file, also of one that lists an enabled counter past the 320 of TEL. In such a
state the refusal of a request overflows that counter, and its overflow bit is set at the key of another domain's state, which so does not
stay. -/
theorem not_heldDomainsRefused : ¬ Obligations.HeldDomainsRefused := by
  intro h
  have hheld : strayState.held 0 = true := by decide +kernel
  obtain ⟨-, -, -, -, -, -, hkept⟩ := h strayState .bar2 0 actGate (by decide) (by decide) (by decide) (by decide) hheld
  have hbefore : strayState.rdAt PWR_DOMSTAT.STATE 1 = 0 := by decide +kernel
  have hafter : (strayState.askDomain .bar2 0 actGate).2.2.rdAt PWR_DOMSTAT.STATE 1 = 1 := by decide +kernel
  exact absurd ((hkept 1 (by decide)).symm.trans hafter) (by rw [hbefore]; decide)

end Sys2Proof.Machine
